-- ==== Sys2Proof/Word.lean ====
section
/-! DEFINITION. The word types of the device and their plainest names (R1, R2). -/

namespace Sys2Proof

/-- One byte of memory (R1). -/
abbrev Byte := BitVec 8
/-- One register of a lane: 32 bits (R33). -/
abbrev W32 := BitVec 32
/-- A 64-bit word: a slot word, a pair, a virtual address (R1, R27). -/
abbrev W64 := BitVec 64
/-- A register code: 9 bits (R33). -/
abbrev Code := BitVec 9

end Sys2Proof
end

