-- ==== Sys2Proof/Syntax.lean ====
section
/-! DEFINITION. The syntax of the device: the operand fields of the slot-word forms (R27) and the one
inductive Instr, one constructor for each row of the opcode table. The first 208 rows are
instructions; the others are the events of the machine and of its surroundings (95_what_each_step_holds). -/

namespace Sys2Proof

/-- Bits [6:0] of every slot word: guard predicate, its complement, and TAIL (R27, R44, R45). -/
structure Guard where
  pred : BitVec 4
  pn : Bool
  tail : BitVec 2
deriving DecidableEq, Repr

/-- Trigger, two-source form (R27). -/
structure F2 where
  mod : BitVec 3
  d : Code
  a : Code
  b : Code
  amod : BitVec 12
  rnd : BitVec 3
  nf : Bool
  g : Guard
deriving DecidableEq, Repr

/-- Trigger, three-source form (R27). -/
structure F3 where
  mod : BitVec 3
  d : Code
  a : Code
  b : Code
  c : Code
  rnd : BitVec 3
  nf : Bool
  g : Guard
deriving DecidableEq, Repr

/-- Immediate form of every unit but LS (R27). -/
structure FI where
  mod : BitVec 3
  d : Code
  a : Code
  imm : BitVec 24
  nf : Bool
  g : Guard
deriving DecidableEq, Repr

/-- Trigger form of the LS unit (R27). -/
structure L2 where
  mod : BitVec 3
  d : Code
  a : Code
  b : Code
  space : BitVec 2
  scope : BitVec 3
  hint : BitVec 3
  g : Guard
deriving DecidableEq, Repr

/-- Three-source trigger form of the LS unit, CAS and CAS.X only (R27). -/
structure L3 where
  mod : BitVec 3
  d : Code
  a : Code
  b : Code
  space : BitVec 2
  scope : BitVec 3
  c : Code
  g : Guard
deriving DecidableEq, Repr

/-- Immediate form of the LS unit (R27). -/
structure LI where
  mod : BitVec 3
  d : Code
  a : Code
  imm : BitVec 20
  space : BitVec 2
  scope : BitVec 3
  g : Guard
deriving DecidableEq, Repr

/-- Control form, UNIT 4 (R27). -/
structure FC where
  mod : BitVec 3
  a : Code
  imm : BitVec 32
  g : Guard
deriving DecidableEq, Repr

/-- Move form (R27, R30). -/
structure MV where
  xc : Bool
  scl : BitVec 2
  sln : BitVec 3
  dport : BitVec 6
  d : Code
  a : Code
  amod : BitVec 12
  g : Guard
deriving DecidableEq, Repr

/-- The host's answer to an ATS translation request (R368). -/
inductive AtsAnswer where
  /-- success: read and write granted, untranslated bit, host frame (4 KiB units) -/
  | success (r w u : Bool) (frame : Nat)
  /-- Unsupported Request or Completer Abort -/
  | refused
deriving DecidableEq, Repr

/-- The host's answer to a page request (R369). -/
inductive PrgAnswer where
  | success
  | invalid
  | failure
deriving DecidableEq, Repr

/-- An access to module memory by the host or a peer (R372). -/
inductive OuterOp where
  | read (n : Nat)
  | write (bytes : List Byte)
  | fetchAdd (n : Nat) (v : Nat)
  | swap (n : Nat) (v : Nat)
  | cas (n : Nat) (cmp new : Nat)
  /-- an atomic of a peer by its operation (R184, R373); of a RED the peer discards the value -/
  | atom (op n : Nat) (v : Nat)
deriving DecidableEq, Repr

/-- What a write of a control register brings: its value, and whether the management controller makes it or the host (R431). -/
structure CtlWrite where
  val : W32
  mgmt : Bool
deriving DecidableEq, Repr

/-- One constructor for each row of the opcode table. Of the events, an argument c is a core, sl an L2
slice (128 q + s), q a launch queue, l a kettle line, g a gathering, stk a memory stack. -/
inductive Instr where
  /-- Move instruction copies register A, with its source modifier or cross-lane source, into register D or into a unit's latched operand port. (R30) -/
  | mov (f : MV)
  /-- The VLIW decoder checks a bundle header and its slots, assigns slots to lanes and engines, and issues every slot together. (R47) -/
  | bundle (hdr : W64) (slots : List W64)
  /-- Wrapping integer add, per element, two-source trigger form. (R66) -/
  | iadd (f : F2)
  /-- Wrapping integer add with IMM24 as the second source. (R66) -/
  | iaddI (f : FI)
  /-- Wrapping integer subtract, trigger form. (R66) -/
  | isub (f : F2)
  /-- Wrapping integer subtract with an immediate. (R66) -/
  | isubI (f : FI)
  /-- Integer multiply keeping the low element bits, trigger form. (R66) -/
  | imul (f : F2)
  /-- Integer multiply keeping the low bits, immediate form. (R66) -/
  | imulI (f : FI)
  /-- Integer multiply giving the high half of the double-width product, trigger form. (R66) -/
  | imulh (f : F2)
  /-- Integer multiply high half, immediate form. (R66) -/
  | imulhI (f : FI)
  /-- Integer multiply-add a*b+c with one wrap. (R66) -/
  | imad (f : F3)
  /-- Integer divide truncating toward zero, with fixed results for zero divisors and overflow, trigger form. (R69) -/
  | idiv (f : F2)
  /-- Integer divide, immediate form. (R69) -/
  | idivI (f : FI)
  /-- Integer remainder with the sign of the dividend, trigger form. (R69) -/
  | irem (f : F2)
  /-- Integer remainder, immediate form. (R69) -/
  | iremI (f : FI)
  /-- Integer minimum by type signedness, trigger form. (R66) -/
  | imin (f : F2)
  /-- Integer minimum, immediate form. (R66) -/
  | iminI (f : FI)
  /-- Integer maximum by type signedness, trigger form. (R66) -/
  | imax (f : F2)
  /-- Integer maximum, immediate form. (R66) -/
  | imaxI (f : FI)
  /-- Integer absolute value on signed types, wrapping at the minimum. (R66) -/
  | iabs (f : F2)
  /-- Integer negation on signed types, wrapping at the minimum. (R66) -/
  | ineg (f : F2)
  /-- Saturating integer add, trigger form. (R67) -/
  | iadds (f : F2)
  /-- Saturating integer add, immediate form. (R67) -/
  | iaddsI (f : FI)
  /-- Sum of absolute differences across elements added into a 32-bit C. (R68) -/
  | isad (f : F3)
  /-- Four-way byte dot product added into a 32-bit C. (R68) -/
  | idot4 (f : F3)
  /-- Bitwise AND on 32 or 64 bits, trigger form. (R70) -/
  | and (f : F2)
  /-- Bitwise AND, immediate form. (R70) -/
  | andI (f : FI)
  /-- Bitwise OR, trigger form. (R70) -/
  | or (f : F2)
  /-- Bitwise OR, immediate form. (R70) -/
  | orI (f : FI)
  /-- Bitwise XOR, trigger form. (R70) -/
  | xor (f : F2)
  /-- Bitwise XOR, immediate form. (R70) -/
  | xorI (f : FI)
  /-- Bitwise a AND NOT b, trigger form. (R70) -/
  | andn (f : F2)
  /-- Bitwise a AND NOT b, immediate form. (R70) -/
  | andnI (f : FI)
  /-- Bitwise complement. (R70) -/
  | not (f : F2)
  /-- Logical shift left per element, trigger form. (R71) -/
  | shl (f : F2)
  /-- Logical shift left, immediate count. (R71) -/
  | shlI (f : FI)
  /-- Logical shift right per element, trigger form. (R71) -/
  | shr (f : F2)
  /-- Logical shift right, immediate count. (R71) -/
  | shrI (f : FI)
  /-- Arithmetic shift right per element, trigger form. (R71) -/
  | sar (f : F2)
  /-- Arithmetic shift right, immediate count. (R71) -/
  | sarI (f : FI)
  /-- Rotate left per element, trigger form. (R71) -/
  | rotl (f : F2)
  /-- Rotate left, immediate count. (R71) -/
  | rotlI (f : FI)
  /-- Funnel shift of the 64-bit join of C and A right by B[5:0]. (R72) -/
  | funnel (f : F3)
  /-- Bit-field extract with clamped position and length. (R73) -/
  | bfx (f : F3)
  /-- Bit-field insert with clamped position and length. (R73) -/
  | bfi (f : F3)
  /-- Population count. (R74) -/
  | popc (f : F2)
  /-- Count leading zeros. (R74) -/
  | clz (f : F2)
  /-- Count trailing zeros. (R74) -/
  | ctz (f : F2)
  /-- Bit reversal. (R74) -/
  | brev (f : F2)
  /-- Byte shuffle from eight bytes of A and B with sign extension and zero mask. (R75) -/
  | bshuf (f : F3)
  /-- Forms a 64-bit address base plus sign-extended index shifted by MOD, trigger form. (R76) -/
  | lea (f : F2)
  /-- Address formation with an immediate index. (R76) -/
  | leaI (f : FI)
  /-- Integer compare writing a predicate, condition in RND. (R77) -/
  | icmp (f : F2)
  /-- Integer compare with an immediate, condition in D[6:4]. (R77) -/
  | icmpI (f : FI)
  /-- Selects A or B per lane by predicate C. (R78) -/
  | isel (f : F3)
  /-- Combines predicates through an 8-bit truth table. (R79) -/
  | plop (f : F2)
  /-- Sets the upper 16 bits from B while keeping the low half of A, trigger form. (R80) -/
  | movh (f : F2)
  /-- Sets the upper 16 bits from an immediate. (R80) -/
  | movhI (f : FI)
  /-- Writes the sign-extended IMM24 to D. (R80) -/
  | movi (f : FI)
  /-- Uniform ALL, ANY or BALLOT of a predicate over the active lanes into a w register. (R83) -/
  | vote (f : F2)
  /-- Copies register A of lane k, given by a register, into a w register. (R84) -/
  | rdlane (f : F2)
  /-- Copies register A of an immediate lane into a w register. (R84) -/
  | rdlaneI (f : FI)
  /-- Marks for each active lane the nearest lower active lane with non-zero A. (R85) -/
  | find1 (f : F2)
  /-- Clamping conversion between integer types. (R81) -/
  | cvti (f : F2)
  /-- Integer reduction over active lanes into a w register. (R86) -/
  | iredw (f : F2)
  /-- Clamps A between B and C. (R66) -/
  | clamp (f : F3)
  /-- Floating add rounded once, trigger form. (R100) -/
  | fadd (f : F2)
  /-- Floating add with an immediate. (R100) -/
  | faddI (f : FI)
  /-- Floating subtract, trigger form. (R100) -/
  | fsub (f : F2)
  /-- Floating subtract with an immediate. (R100) -/
  | fsubI (f : FI)
  /-- Floating multiply, trigger form. (R100) -/
  | fmul (f : F2)
  /-- Floating multiply with an immediate. (R100) -/
  | fmulI (f : FI)
  /-- Fused multiply-add a*b+c rounded once. (R100) -/
  | ffma (f : F3)
  /-- Fused c-a*b rounded once. (R100) -/
  | fnma (f : F3)
  /-- Floating minimum returning operand bits, trigger form. (R102) -/
  | fmin (f : F2)
  /-- Floating minimum with an immediate. (R102) -/
  | fminI (f : FI)
  /-- Floating maximum returning operand bits, trigger form. (R102) -/
  | fmax (f : F2)
  /-- Floating maximum with an immediate. (R102) -/
  | fmaxI (f : FI)
  /-- Clears the sign bit of each element. (R103) -/
  | fabs (f : F2)
  /-- Inverts the sign bit of each element. (R103) -/
  | fneg (f : F2)
  /-- Floating compare writing a predicate, condition in RND. (R104) -/
  | fcmp (f : F2)
  /-- Floating compare with an immediate, condition in IMM24[2:0]. (R104) -/
  | fcmpI (f : FI)
  /-- Writes a class code for each element. (R105) -/
  | fclass (f : F2)
  /-- Rounds each element to an integral value in its format. (R106) -/
  | frint (f : F2)
  /-- Converts between floating formats over register groups. (R107) -/
  | fcvt (f : F2)
  /-- Converts floating elements to an integer type. (R109) -/
  | f2i (f : F2)
  /-- Converts integers to a floating format. (R110) -/
  | i2f (f : F2)
  /-- Two-element half-precision dot product added into FP32 C. (R100) -/
  | fdot2 (f : F3)
  /-- Floating reduction over active lanes in a fixed tree into a w register. (R111) -/
  | fredw (f : F2)
  /-- Writes the mode register from the lowest active lane. (R97) -/
  | fsetmode (f : F2)
  /-- Reads the mode register. (R97) -/
  | fgetmode (f : F2)
  /-- Reads each lane's sticky flags after earlier FU and SF instructions complete. (R97) -/
  | fflags (f : F2)
  /-- Reads and then clears each lane's sticky flags. (R97) -/
  | fflagsClr (f : F2)
  /-- Multiplies by a power of two from B, trigger form. (R100) -/
  | fscale (f : F2)
  /-- Multiplies by a power of two from an immediate. (R100) -/
  | fscaleI (f : FI)
  /-- Correctly rounded reciprocal. (R113) -/
  | rcp (f : F2)
  /-- Correctly rounded reciprocal square root. (R113) -/
  | rsq (f : F2)
  /-- Square root rounded by RND. (R113) -/
  | sqrt (f : F2)
  /-- Base-2 exponential. (R113) -/
  | ex2 (f : F2)
  /-- Base-2 logarithm. (R113) -/
  | lg2 (f : F2)
  /-- sin(pi x). (R113) -/
  | sinpi (f : F2)
  /-- cos(pi x). (R113) -/
  | cospi (f : F2)
  /-- Hyperbolic tangent. (R113) -/
  | tanh (f : F2)
  /-- Logistic sigmoid. (R113) -/
  | sigm (f : F2)
  /-- Floating divide rounded by RND. (R113) -/
  | fdiv (f : F2)
  /-- Loads 1 to 32 bytes per lane, index in B. (R181) -/
  | ld (f : L2)
  /-- Loads per lane with an IMM20 offset. (R181) -/
  | ldI (f : LI)
  /-- Stores 1 to 32 bytes per lane, index in B. (R181) -/
  | st (f : L2)
  /-- Stores per lane with an IMM20 offset. (R181) -/
  | stI (f : LI)
  /-- Loads once for the lowest active lane into a w register, index in B. (R181) -/
  | ldw (f : L2)
  /-- Uniform load with an IMM20 offset. (R181) -/
  | ldwI (f : LI)
  /-- Acquire load of 4 or 8 bytes at a scope, index in B. (R182) -/
  | ldAcq (f : L2)
  /-- Acquire load with an IMM20 offset. (R182) -/
  | ldAcqI (f : LI)
  /-- Release store of 4 or 8 bytes at a scope, index in B. (R182) -/
  | stRel (f : L2)
  /-- Release store with an IMM20 offset. (R182) -/
  | stRelI (f : LI)
  /-- 32-bit read-modify-write atomic returning the old value. (R184) -/
  | atom (f : L2)
  /-- 32-bit compare-and-swap returning the old value. (R185) -/
  | cas (f : L3)
  /-- 32-bit atomic reduction returning nothing. (R184) -/
  | red (f : L2)
  /-- 64-bit atomic ADD, MIN, MAX or EXCH returning the old pair. (R184) -/
  | atomX (f : L2)
  /-- 64-bit compare-and-swap. (R185) -/
  | casX (f : L3)
  /-- Orders every earlier access before every later one at a scope. (R186) -/
  | fenceFull (f : L2)
  /-- Orders earlier reads before later accesses and performs the acquire cache action. (R186) -/
  | fenceAcq (f : L2)
  /-- Orders earlier accesses before later writes behind a drain. (R186) -/
  | fenceRel (f : L2)
  /-- Waits until the path's earlier engine requests release their clasp entries, then acts as an acquire. (R211) -/
  | fenceEng (f : L2)
  /-- Remote acquire: promotes another core's write buffer to device scope, then loads with acquire. (R183) -/
  | ldRacq (f : L2)
  /-- Reads the phase token, releases, and arrives on a barrier object. (R190) -/
  | arrive (f : L2)
  /-- Parks while the barrier phase equals the token, then acquires. (R191) -/
  | waitph (f : L2)
  /-- Tests the barrier phase once into a predicate, acquiring on success. (R191) -/
  | tryph (f : L2)
  /-- Initialises a barrier object with an arrival count. (R189) -/
  | barinit (f : L2)
  /-- Writes a predicate telling whether each lane's scratchpad line is present. (R193) -/
  | pres (f : L2)
  /-- Invalidates the L1 line of each lane's address. (R194) -/
  | cctlInvl (f : L2)
  /-- Invalidates the whole L1 or fused L1. (R194) -/
  | cctlInvall (f : L2)
  /-- Starts a fetch of each lane's line into L2 and L1. (R194) -/
  | cctlPref (f : L2)
  /-- Marks each lane's line first to be evicted in its home L2. (R194) -/
  | cctlEvf (f : L2)
  /-- Direct branch, splitting the path into taken and fall sets. (R132) -/
  | bra (f : FC)
  /-- Uniform branch following the guard of the lowest active thread. (R134) -/
  | braU (f : FC)
  /-- Indirect branch through a register, checked against landing points. (R132) -/
  | brx (f : FC)
  /-- Direct call writing the link register. (R136) -/
  | call (f : FC)
  /-- Indirect call with target in vk and link in vk+1. (R136) -/
  | callx (f : FC)
  /-- Jumps to the return offset in register A. (R136) -/
  | ret (f : FC)
  /-- Carries active threads out of n divergent regions. (R137) -/
  | brk (f : FC)
  /-- Opens a hardware loop. (R141) -/
  | loop (f : FC)
  /-- Opens a pipelined hardware loop driving stage predicates. (R143) -/
  | loopPipe (f : FC)
  /-- Sets up register rotation. (R144) -/
  | rotset (f : FC)
  /-- Turns the issuing warp into a strand once its clusters are free. (R146) -/
  | modeCollapse (f : FC)
  /-- Turns the strand back into its warp. (R148) -/
  | modeExpand (f : FC)
  /-- Waits on the kettle line of a domain level. (R163) -/
  | sync (f : FC)
  /-- Ends the active threads, or the strand and its warp. (R139) -/
  | exit (f : FC)
  /-- Raises a software trap cause 0x80 to 0xFF. (R125) -/
  | trap (f : FC)
  /-- Returns from a trap handler to %trappc. (R161) -/
  | eret (f : FC)
  /-- Issues nothing for n cycles. (R125) -/
  | nop (f : FC)
  /-- Places the path last in the selection order. (R125) -/
  | yield (f : FC)
  /-- Sets a predicate true in the lowest active lane only. (R125) -/
  | elect (f : F2)
  /-- Starts loading a folio image into a folio slot of the block. (R120) -/
  | folld (f : FC)
  /-- Empties a folio slot of the block. (R121) -/
  | folfree (f : FC)
  /-- Privileged write of the domain membership register. (R125) -/
  | domset (f : FC)
  /-- Matrix step accumulating A times B into a bank. (R265) -/
  | mms (f : F2)
  /-- Matrix step writing A times B into a zeroed accumulator. (R265) -/
  | mmsz (f : F2)
  /-- BF16 matrix step whose B operand is expanded from a marbled tile record. (R291) -/
  | mmsg (f : F2)
  /-- Claims n logical banks from a register count and queues for physical banks. (R261) -/
  | accalloc (f : F2)
  /-- Claims n logical banks from an immediate count. (R261) -/
  | accallocI (f : FI)
  /-- Returns banks, count from a register. (R262) -/
  | accfree (f : F2)
  /-- Returns banks, count from an immediate. (R262) -/
  | accfreeI (f : FI)
  /-- Converts a row group of a bank into registers. (R273) -/
  | accrd (f : F2)
  /-- Writes a row group of a bank from registers. (R274) -/
  | accwr (f : F2)
  /-- Writes +0 to every element of a bank. (R275) -/
  | accclr (f : F2)
  /-- Writes a format table entry or the loop map from a register pair. (R257) -/
  | fmtset (f : F2)
  /-- Writes a format table entry or the loop map from an immediate. (R257) -/
  | fmtsetI (f : FI)
  /-- Adds one bank into another element by element. (R275) -/
  | accadd (f : F2)
  /-- Hands the copy engine a request to move one tensor box. (R227) -/
  | copy (f : F3)
  /-- Hands the copy engine a list of requests built in scratchpad. (R230) -/
  | kick (f : F2)
  /-- Hands the copy engine an index-selected gather request. (R228) -/
  | gather (f : F3)
  /-- Hands the copy engine an index-selected scatter request. (R229) -/
  | scatter (f : F3)
  /-- Scatter request whose elements are added atomically into memory. (R229) -/
  | scatterAdd (f : F3)
  /-- L2 prefetch request counting on a barrier object. (R232) -/
  | pfl2 (f : F2)
  /-- L2 prefetch request taking a completion token. (R232) -/
  | pfl2Tok (f : F2)
  /-- Reads or reads-and-clears the block's copy status. (R233) -/
  | cstat (f : F2)
  /-- Hands the marbling engine a request to form a trial block for one seed. (R303) -/
  | seedtry (f : F3)
  /-- Hands the marbling engine a seed search over a scan descriptor. (R308) -/
  | seedscan (f : F3)
  /-- Hands the marbling engine a fixed-point solve of a trial block. (R304) -/
  | fit (f : F2)
  /-- Hands the marbling engine a projection of a bank onto a record's bases. (R312) -/
  | proj (f : F2)
  /-- Writes 32 raw generator bits of a seed into a w register. (R313) -/
  | mgen (f : F2)
  /-- Reads or reads-and-clears the block's marbling status. (R314) -/
  | mstat (f : F2)
  /-- Translates each lane's address and writes a translation status. (R360) -/
  | xlate (f : F2)
  /-- Looks up cached translations only and writes a status. (R361) -/
  | xprobe (f : F2)
  /-- Invalidates translations of one page module-wide. (R362) -/
  | xinvPage (f : F2)
  /-- Invalidates translations of a range of 64 KiB units. (R362) -/
  | xinvRange (f : F2)
  /-- Invalidates every translation of one PASID. (R362) -/
  | xinvPasid (f : F2)
  /-- Invalidates every translation of every PASID. (R362) -/
  | xinvAll (f : F2)
  /-- Empties the issuing core's LPRs and core TLB. (R363) -/
  | xflush (f : F2)
  /-- Requests the operating point of a class-map entry from a register. (R386) -/
  | pclass (f : F2)
  /-- Requests the operating point of an immediate class-map entry. (R386) -/
  | pclassI (f : FI)
  /-- Requests an operating point from a register, with permission. (R386) -/
  | opsel (f : F2)
  /-- Requests an immediate operating point, with permission. (R386) -/
  | opselI (f : FI)
  /-- Optionally writes the self-limit and reads the grant view. (R387) -/
  | grant (f : F2)
  /-- Places a marker trace record with a register value. (R412) -/
  | tmark (f : F2)
  /-- Places a marker trace record with an immediate value. (R412) -/
  | tmarkI (f : FI)
  /-- Breakpoint with a register tag: traps, or stops the core precisely when BKSTOP is set. (R413) -/
  | bkpt (f : F2)
  /-- Breakpoint with an immediate tag. (R413) -/
  | bkptI (f : FI)
  /-- Waits for earlier writes to retire and takes a store-hash checkpoint. (R429) -/
  | shash (f : F2)
  /-- Reads bank-conflict cells, observation registers or profile and module versions. (R414) -/
  | confrd (f : F2)
  /-- Sets a slice's replay mode to off and returns its status. (R415) -/
  | rpctlOff (f : F2)
  /-- Sets a slice's replay mode to record. (R415) -/
  | rpctlRec (f : F2)
  /-- Sets a slice's replay mode to replay. (R415) -/
  | rpctlReplay (f : F2)
  /-- Returns a slice's replay status without change. (R415) -/
  | rpctlQuery (f : F2)
  /-- Reserves a ticket and writes a launch record into a device-fed queue. (R329) -/
  | qsub (f : F2)
  /-- Reads a special register. (R52) -/
  | getsp (f : F2)
  /-- Writes a special register at issue. (R52) -/
  | setsp (f : F2)
  /-- A fixed-latency result is written when its latency count expires. (R128) -/
  | resultLands (c : Nat)
  /-- A variable-latency result returns and lands, releasing parked or frozen readers. (R151) -/
  | interlockedResultReturn (c : Nat)
  /-- A scratchpad line becomes present again and parked loads read the landed bytes. (R169) -/
  | linePresent (c : Nat)
  /-- Outstanding-request entries free up and a parked global access issues whole. (R180) -/
  | requestEntryFree (c : Nat)
  /-- The write buffer delivers a store to its home L2 in issue order. (R170) -/
  | writeBufferDrain (c : Nat)
  /-- A remote-acquire promotion request reaches a core, which drains its write buffer at device scope and acknowledges. (R183) -/
  | promotionRequest (c : Nat)
  /-- An atomic arrives at its home L2 slice and is performed in the slice's arbitration order. (R174) -/
  | sliceAtomic (sl : Nat)
  /-- A remote scratchpad access from a gathering core arrives at the target core's banks. (R167) -/
  | remoteScratchAccess (c : Nat)
  /-- A parked path becomes ready once its park reason clears. (R126) -/
  | warpReady (c : Nat)
  /-- At the last body instruction or LEND bundle the loop decrements or closes, rotating stage predicates. (R142) -/
  | loopBackEdge (c : Nat)
  /-- Arrival at a reconvergence point frees a slot, fills it from the deferred path or pops the record. (R133) -/
  | reconvergeMerge (c : Nat)
  /-- A folio image finishes loading, becomes resident and the path continues. (R120) -/
  | folldComplete (c : Nat)
  /-- A parked collapse finds its clusters free and the strand's first bundle issues 4 cycles later. (R146) -/
  | collapseComplete (c : Nat)
  /-- The strand's results land and the clusters return to the warp. (R148) -/
  | expandComplete (c : Nat)
  /-- A fault reported after a bundle issued freezes the strand by snapshot at the next bundle boundary. (R158) -/
  | strandFaultFreeze (c : Nat)
  /-- A snapshotted strand resumes and its captured results land after their remaining latencies. (R156) -/
  | strandSnapshotResume (c : Nat)
  /-- After outstanding results land, the warp enters its role's handler with banked registers and privilege. (R159) -/
  | trapEntry (c : Nat)
  /-- A pending asynchronous cause enters the handler at the next instruction boundary. (R159) -/
  | asyncTrapDelivery (c : Nat)
  /-- Every member core asserts arrival and the kettle line rises, fixing the release edge. (R164) -/
  | kettleLineRise (l : Nat)
  /-- On the release edge all member cores begin a new cycle and their waiters issue. (R164) -/
  | kettleRelease (l : Nat)
  /-- A parked engine request obtains a queue slot and clasp entries, registers them, clears presence and adds its count. (R226) -/
  | copyAccept (c : Nat)
  /-- The copy engine reads the next KICK list entry and accepts it, or ends the list on a request error. (R231) -/
  | kickEntryAccept (c : Nat)
  /-- The copy engine moves one 128-byte line into or out of a local store. (R214) -/
  | copyLineMove (c : Nat)
  /-- A copy engine global line request returns its data. (R214) -/
  | copyGlobalReturn (c : Nat)
  /-- Request bytes land and are subtracted from the barrier object's pending bytes. (R234) -/
  | copyBytesLand (c : Nat)
  /-- A copy request fails at an element, counts its remaining bytes as landed and records the error. (R241) -/
  | requestError (c : Nat)
  /-- A prefetched line becomes present in its home L2 or is skipped. (R232) -/
  | pfl2LineDone (c : Nat)
  /-- An engine request waiting on a host page request continues. (R242) -/
  | pageWaitResume (c : Nat)
  /-- The next MX instruction in engine order starts when its predecessor's occupancy ends. (R268) -/
  | mxStart (c : Nat)
  /-- An MX instruction's occupancy count expires and its bank or table result is written. (R268) -/
  | mxOccupancyEnd (c : Nat)
  /-- At MMSG start the generator reads and checks the tile record, waiting on absent lines. (R293) -/
  | mmsgRecordRead (c : Nat)
  /-- The head of the ACCALLOC queue finds enough free banks, which are mapped and zero-filled. (R261) -/
  | accallocGrant (c : Nat)
  /-- After earlier MX instructions and copies on the banks complete, the banks become free. (R262) -/
  | accfreeRelease (c : Nat)
  /-- After 1,024 cycles of accumulator deadlock the engine evicts the lowest-priority last-placed block. (R277) -/
  | accDeadlock (c : Nat)
  /-- The 256-cycle matrix engine reset ends and waiting MX instructions start on the reset state. (R280) -/
  | mxResetEnd (c : Nat)
  /-- A bank transfer copies a bank into the marbling target buffer in engine order. (R298) -/
  | bankTransfer (c : Nat)
  /-- A parked marbling request obtains the target buffer, a slot and clasp entries and is enqueued. (R297) -/
  | marbleAccept (c : Nat)
  /-- A marbling request starts after the previous completes and reads its sources. (R300) -/
  | marbleStart (c : Nat)
  /-- A marbling request's run time expires and it writes its destination. (R300) -/
  | marbleComplete (c : Nat)
  /-- A SEEDSCAN candidate's run time ends and it may become BEST. (R309) -/
  | candidateComplete (c : Nat)
  /-- The scan's deadline count expires, abandoning any candidate in progress and writing the result. (R310) -/
  | scanDeadline (c : Nat)
  /-- A host write of a queue's write pointer makes records visible for admission. (R319) -/
  | qwpWrite (q : Nat) (v : W32)
  /-- A host write of queue control enables or configures a queue. (R317) -/
  | qctlWrite (q : Nat) (v : W32)
  /-- A host write of 1 clears queue status bits. (R318) -/
  | qstatClear (q : Nat) (v : W32)
  /-- The scheduler reads and checks a launch record and assigns every block to a core. (R323) -/
  | recordAdmit
  /-- The first block of a core's waiting list fits and is placed, loading folios and starting warps. (R326) -/
  | blockPlace (c : Nat)
  /-- A block ends once threads have exited and requests completed, returning its resources. (R330) -/
  | blockEnd (c : Nat)
  /-- The last block ends, membership is cleared, the completion record is written and an interrupt raised. (R331) -/
  | gridComplete
  /-- A priority-3 pre-empting block that does not fit causes lower-priority blocks to be halted. (R335) -/
  | preempt (c : Nat)
  /-- No path of the halted block issues any longer and its save begins. (R336) -/
  | preemptHaltDone (c : Nat)
  /-- ERESET command 1 resets one core's matrix engine. (R281) -/
  | mxResetCmd (c : Nat)
  /-- ERESET command 2 resets a core, ending its resident blocks. (R343) -/
  | coreResetCmd (c : Nat)
  /-- The quire walker reads directory and table entries and ends in a translation or a fault. (R350) -/
  | walk (c : Nat)
  /-- An ATS translation completion arrives and the access proceeds, requests a page or faults. (R368) -/
  | atsCompletion (c : Nat) (r : AtsAnswer)
  /-- No ATS completion within 2^36 ticks faults the access with reason 2. (R368) -/
  | atsTimeout (c : Nat)
  /-- The host's page request group response arrives and retranslation or a fault follows. (R369) -/
  | prgResponse (c : Nat) (r : PrgAnswer)
  /-- No page request response within 2^36 ticks faults the access. (R369) -/
  | pageRequestTimeout (c : Nat)
  /-- A host ATS invalidation request removes host translations by the sweep rule. (R370) -/
  | hostAtsInvalidate (pasid : Option Nat) (va : W64) (pages : Nat)
  /-- No covered access remains in flight and the invalidation completes. (R364) -/
  | invalidationComplete
  /-- TINVC go with mode 0 starts a page invalidation. (R348) -/
  | hostInvPage (pasid : Nat)
  /-- TINVC go with mode 1 starts a range invalidation. (R348) -/
  | hostInvRange (pasid : Nat)
  /-- TINVC go with mode 2 invalidates one PASID. (R348) -/
  | hostInvPasid (pasid : Nat)
  /-- TINVC go with mode 3 invalidates every PASID. (R348) -/
  | hostInvAll
  /-- A host or peer access to module memory is performed at its home slice at system scope. (R372) -/
  | hostHostAccess (peer : Bool) (op : OuterOp) (pa : Nat)
  /-- A host completion reports an error after the access, giving all-ones or dropping the write. (R371) -/
  | hostCompletionError (c : Nat)
  /-- The links lose a peer access, giving all-ones or dropping the write. (R374) -/
  | peerLoss (c : Nat)
  /-- A write of a core's grant register takes effect at the next cycle edge. (R383) -/
  | cgrantWrite (c : Nat) (v : W64)
  /-- The settling count reaches zero and the core runs at the effective point. (R389) -/
  | settleComplete (c : Nat)
  /-- The energy window test stalls a cycle, freezing issue while engines run. (R393) -/
  | governedStall (c : Nat)
  /-- At a step boundary every 40 ticks the slew limiter updates its level. (R396) -/
  | slewStep
  /-- A waiting heavy operation is granted, lighting its core and starting. (R397) -/
  | slewGrant (c : Nat)
  /-- The 16 filler cycles end and the core is no longer lit. (R398) -/
  | fillerEnd (c : Nat)
  /-- A write of SLEWCTL or SLEWRAMP takes effect at the next step boundary. (R399) -/
  | slewWrite (g : Nat) (hi : Bool) (isCtl : Bool) (v : W32)
  /-- The core hang counter reaches HANGLIM, setting status and raising an event. (R404) -/
  | hangTimeout (c : Nat)
  /-- The MX hang counter reaches MXLIM and the matrix engine is reset. (R404) -/
  | mxhangTimeout (c : Nat)
  /-- A write of 1 clears watchdog status bits. (R401) -/
  | wstatClear (c : Nat) (v : W32)
  /-- STOPCTL write with MODE 1 arms a stop at a cycle value. (R417) -/
  | stopArmCycle (c : Nat) (v : W32)
  /-- STOPCTL write with MODE 2 arms a stop at the n-th issue of an instruction or bundle. (R417) -/
  | stopArmCount (c : Nat) (v : W32)
  /-- STOPCTL write with MODE 0 disarms an armed stop. (R417) -/
  | stopDisarm (c : Nat) (v : W32)
  /-- STOPCTL RESUME resumes a stopped core or strand after its dump is accepted. (R419) -/
  | stopResume (c : Nat)
  /-- An armed stop fires, freezing by snapshot and emitting the stop dump. (R418) -/
  | preciseStop (c : Nat)
  /-- A cycle that is a multiple of SPER produces a sample record per decoder. (R416) -/
  | sample (c : Nat)
  /-- BCMCTL CLR zeroes the live bank-conflict matrix. (R423) -/
  | bcmClear (c : Nat)
  /-- A write of 1 clears OSTAT DIVERGED. (R407) -/
  | divergedClear (c : Nat)
  /-- A write of OBSCTL sets the enables and, when HMODE changes, resets the store hashes. (R428) -/
  | obsctlWrite (c : Nat) (v : W32)
  /-- HBCTL FLUSH emits pending drop counts and partial log chunks. (R410) -/
  | headbandFlush
  /-- A write of HBCTL EN enables or disables the headband port. (R453) -/
  | headbandEnable (en : Bool)
  /-- The buffer fill falls below 512 KiB and drop-count records are placed. (R410) -/
  | dropCountEmit
  /-- Room in the record buffer frees a waiting lossless source. (R410) -/
  | losslessRoom
  /-- The spine emits a time sync record when %time[31:0] is zero. (R409) -/
  | timeSync
  /-- RPMODE write 0 turns a slice's replay off, emitting the pending chunk if recording. (R425) -/
  | rpmodeOff (sl : Nat)
  /-- RPMODE write 1 starts an empty arbitration log. (R425) -/
  | rpmodeRecord (sl : Nat)
  /-- RPMODE write 2 starts replay from the log's first chunk. (R425) -/
  | rpmodeReplay (sl : Nat)
  /-- A partial RLOG record is sent 2^20 slice cycles after its first chunk closed. (R426) -/
  | rlogPartialFlush (sl : Nat)
  /-- An atomic waits GTIMEOUT at the order gate, which passes everything and raises REPLAY_DIVERGE. (R427) -/
  | gateTimeout (sl : Nat)
  /-- The path's earlier writes retire and SHASH writes the hash and checks or records it. (R429) -/
  | shashRetire (c : Nat)
  /-- Assertion of the press pin requests a module press. (R432) -/
  | pressPinAssert
  /-- Deassertion of the press pin withdraws a pending request or releases a pin press. (R432) -/
  | pressPinDeassert
  /-- PRESSCTL PRESS requests a press. (R433) -/
  | pressCmd
  /-- PRESSCTL RELEASE releases a press. (R433) -/
  | pressReleaseCmd
  /-- On the chosen tick edge every clock and counter stops and memory self-refreshes. (R432) -/
  | pressEdge
  /-- On the release edge every clock and counter resumes from its value. (R432) -/
  | pressReleaseEdge
  /-- Periodic DRAM refresh occupies a stack bank above all accesses. (R345) -/
  | dramRefresh (stk : Nat)
  /-- A memory ECC scrub deferred 1 ms is forced ahead of accesses. (R345) -/
  | eccScrubForced (stk : Nat)
  /-- Power good starts the boot sequence from step 1. (R436) -/
  | powerOn (err : Nat)
  /-- MRESET or a management command ends every block and re-runs boot steps 3 to 7. (R435) -/
  | warmReset (memKept : Bool) (err : Nat)
  /-- ATTCTL GO starts signing an attestation report over the nonce. (R441) -/
  | attestGo
  /-- The attestation report is signed and DONE or EXH is set. (R441) -/
  | attestDone
  /-- A host or management write to a control register without behaviour of its own stores the value. (R4) -/
  | controlRegisterWrite (off : Nat) (v : CtlWrite)
  /-- A QSUB's record write into the queue array completes and, once every lower ticket has advanced QWP, QWP advances to ticket plus one. (R329) -/
  | qsubRecordWritten (q : Nat)
  /-- A host write of the endpoint's PCI Express configuration space enables PASID, ATS and PRI, or re-enables PRI after a Response Failure. (R366) -/
  | configurationSpaceWrite (pasidEn atsEn priEn : Bool)
  /-- Loss of the module supply ends all activity and discards the identity seed, memory contents and endpaper record, while the flash and its leaf counter persist. (R440) -/
  | powerLoss
deriving DecidableEq, Repr

end Sys2Proof
end

