-- ==== Sys2Proof/WellFormed.lean ====
section
/-! DEFINITION. Which instructions are encodable: every field that a form, a MOD column or an operand
table makes illegal whatever the issuer and whatever the registers hold. A slot word whose fields fail
these checks traps with ILLEGAL_ENCODING (R4, R5, R50). Checks that depend on the issuer (a warp or a
slot of a strand) are made when the instruction issues. -/

namespace Sys2Proof

/-- PRED = 1111 with PN = 1 is illegal (R44). -/
def Guard.ok (g : Guard) : Bool := !(g.pred == 15 && g.pn)

/-- The guard is absent: PRED 1111, PN 0 (R124). -/
def Guard.none (g : Guard) : Bool := g.pred == 15 && !g.pn

/-- The source modifier is legal: LOGS at most 5, and LOGS and DIST zero under CLS 00 (R40). -/
def amodOk (m : BitVec 12) : Bool :=
  if m.extractLsb' 10 2 == 0 then m == 0 else (m.extractLsb' 7 3).toNat ≤ 5

/-- A field that names a predicate: bits [8:4] zero (R37, R65). -/
def predOk (c : Code) : Bool := c.extractLsb' 4 5 == 0

/-- A field an instruction does not use is zero (R28). -/
def unused (used : Bool) (c : Code) : Bool := used || c == 0

/-- How an instruction uses the AMOD field: not at all, as the modifier of A, or as PLOP's truth
table (R40, R79); not at all also where A is used and the spec gives it no modifier (assumption 19). -/
inductive AmodUse where
  | no
  | src
  | table
deriving DecidableEq, Repr

/-- Is the AMOD field legal for its use (R40, R79)? -/
def AmodUse.ok (u : AmodUse) (m : BitVec 12) : Bool :=
  match u with
  | .no => m == 0
  | .src => amodOk m
  | .table => m.extractLsb' 8 4 == 0

/-- Two-source form: MOD listed, unused fields zero, AMOD legal, RND at most rmax, NF allowed or zero. -/
def F2.ok (mods : List Nat) (d a b : Bool) (am : AmodUse) (rmax : Nat) (nf : Bool) (f : F2) : Bool :=
  mods.contains f.mod.toNat && unused d f.d && unused a f.a && unused b f.b && am.ok f.amod
    && decide (f.rnd.toNat ≤ rmax) && (nf || !f.nf) && f.g.ok

/-- Three-source form. -/
def F3.ok (mods : List Nat) (rmax : Nat) (nf : Bool) (f : F3) : Bool :=
  mods.contains f.mod.toNat && decide (f.rnd.toNat ≤ rmax) && (nf || !f.nf) && f.g.ok

/-- Immediate form. -/
def FI.ok (mods : List Nat) (d a : Bool) (nf : Bool) (f : FI) : Bool :=
  mods.contains f.mod.toNat && unused d f.d && unused a f.a && (nf || !f.nf) && f.g.ok

/-- The rows of R177: which SPACE and SCOPE an LS instruction may name. -/
inductive SpaceUse where
  /-- LD, ST, LDW -/
  | plain
  /-- LD.ACQ, ST.REL and the atomics -/
  | strong
  /-- LD.RACQ -/
  | racq
  /-- FENCE -/
  | fence
  /-- ARRIVE, WAITPH, TRYPH -/
  | phase
  /-- BARINIT, PRES -/
  | local
  /-- CCTL -/
  | cache
deriving DecidableEq, Repr

/-- The legal combinations of SPACE and SCOPE (R177). -/
def SpaceUse.ok (u : SpaceUse) (space : BitVec 2) (scope : BitVec 3) : Bool :=
  match u with
  | .plain => if space == 0 then scope.toNat ≤ 6 else if space == 1 then scope.toNat ≤ 3
      else space == 2 && (scope == 0 || scope == 3)
  | .strong => if space == 0 then 1 ≤ scope.toNat && scope.toNat ≤ 6
      else if space == 1 then 1 ≤ scope.toNat && scope.toNat ≤ 3 else space == 2 && scope == 3
  | .racq => space == 0 && (scope == 5 || scope == 6)
  | .fence => space == 0 && 1 ≤ scope.toNat && scope.toNat ≤ 6
  | .phase => if space == 1 then 2 ≤ scope.toNat && scope.toNat ≤ 6
      else space == 2 && 3 ≤ scope.toNat && scope.toNat ≤ 6
  | .local => (space == 1 || space == 2) && scope == 0
  | .cache => space == 0 && scope == 0

/-- Trigger form of LS; HINT 5 to 7 is illegal, and any HINT outside global memory (R172). -/
def L2.ok (mods : List Nat) (d a b : Bool) (u : SpaceUse) (f : L2) : Bool :=
  mods.contains f.mod.toNat && unused d f.d && unused a f.a && unused b f.b && u.ok f.space f.scope
    && decide (f.hint.toNat ≤ 4) && (f.space == 0 || f.hint == 0) && f.g.ok

/-- Three-source trigger form of LS: MOD is 0. -/
def L3.ok (u : SpaceUse) (f : L3) : Bool := f.mod == 0 && u.ok f.space f.scope && f.g.ok

/-- Immediate form of LS. -/
def LI.ok (mods : List Nat) (u : SpaceUse) (f : LI) : Bool :=
  mods.contains f.mod.toNat && u.ok f.space f.scope && f.g.ok

/-- Control form: MOD listed, A used or zero, the guard of the row (R124). -/
def FC.ok (mods : List Nat) (a : Bool) (lanes : Bool) (f : FC) : Bool :=
  mods.contains f.mod.toNat && unused a f.a && (if lanes then f.g.ok else f.g.none)

/-- Move form: DPORT 0 to 11, D zero when a port is named, AMOD legal (R27, R31, R40). -/
def MV.ok (f : MV) : Bool :=
  decide (f.dport.toNat ≤ 11) && (f.dport == 0 || f.d == 0) && amodOk f.amod && f.g.ok

/-- The legal conversions of CVTI: two different scalar types, or the two types of one packed width (R81). -/
def cvtiOk (mod : BitVec 3) (b : Code) : Bool :=
  let s := b.toNat
  let t := mod.toNat
  decide (s ≤ 7) && s != t &&
    (([0, 1, 6, 7].contains s && [0, 1, 6, 7].contains t) ||
      ([2, 3].contains s && [2, 3].contains t) || ([4, 5].contains s && [4, 5].contains t))

/-- The legal conversions of FCVT (R107). -/
def fcvtOk (mod : BitVec 3) (b : Code) : Bool :=
  let s := b.toNat
  let t := mod.toNat
  s != t && (([0, 1, 2, 4, 5].contains s && [0, 1, 2, 4, 5].contains t) || (s == 0 && t == 3)
    || (s == 3 && t == 0))

/-- F2I and I2F: integer types 0, 1, 6, 7, and no 64-bit type with a packed format (R109, R110). -/
def f2iOk (mod : BitVec 3) (b : Code) : Bool :=
  [0, 1, 6, 7].contains b.toNat && !([6, 7].contains b.toNat && [1, 2].contains mod.toNat)

/-- Is the instruction encodable; for an event, are its arguments in range? -/
def Instr.wf : Instr → Bool
  | .mov f => f.ok
  | .bundle h sl => (h.extractLsb' 58 6).toNat == sl.length && decide (1 ≤ sl.length ∧ sl.length ≤ 34)
  | .iadd f => f.ok [0, 1, 2, 3, 4, 5, 6, 7] true true true .src 0 false
  | .iaddI f => f.ok [0, 1, 2, 3, 4, 5, 6, 7] true true false
  | .isub f => f.ok [0, 1, 2, 3, 4, 5, 6, 7] true true true .src 0 false
  | .isubI f => f.ok [0, 1, 2, 3, 4, 5, 6, 7] true true false
  | .imul f => f.ok [0, 1, 2, 3, 4, 5, 6, 7] true true true .src 0 false
  | .imulI f => f.ok [0, 1, 2, 3, 4, 5, 6, 7] true true false
  | .imulh f => f.ok [0, 1, 6, 7] true true true .src 0 false
  | .imulhI f => f.ok [0, 1, 6, 7] true true false
  | .imad f => f.ok [0, 1, 6, 7] 0 false
  | .idiv f => f.ok [0, 1, 6, 7] true true true .src 0 false
  | .idivI f => f.ok [0, 1, 6, 7] true true false
  | .irem f => f.ok [0, 1, 6, 7] true true true .src 0 false
  | .iremI f => f.ok [0, 1, 6, 7] true true false
  | .imin f => f.ok [0, 1, 2, 3, 4, 5, 6, 7] true true true .src 0 false
  | .iminI f => f.ok [0, 1, 2, 3, 4, 5, 6, 7] true true false
  | .imax f => f.ok [0, 1, 2, 3, 4, 5, 6, 7] true true true .src 0 false
  | .imaxI f => f.ok [0, 1, 2, 3, 4, 5, 6, 7] true true false
  | .iabs f => f.ok [0, 2, 4, 6] true true false .src 0 false
  | .ineg f => f.ok [0, 2, 4, 6] true true false .src 0 false
  | .iadds f => f.ok [0, 1, 2, 3, 4, 5] true true true .src 0 false
  | .iaddsI f => f.ok [0, 1, 2, 3, 4, 5] true true false
  | .isad f => f.ok [0, 1, 2, 3, 4, 5] 0 false
  | .idot4 f => f.ok [4, 5] 0 false
  | .and f => f.ok [0, 6] true true true .src 0 false
  | .andI f => f.ok [0, 6] true true false
  | .or f => f.ok [0, 6] true true true .src 0 false
  | .orI f => f.ok [0, 6] true true false
  | .xor f => f.ok [0, 6] true true true .src 0 false
  | .xorI f => f.ok [0, 6] true true false
  | .andn f => f.ok [0, 6] true true true .src 0 false
  | .andnI f => f.ok [0, 6] true true false
  | .not f => f.ok [0, 6] true true false .src 0 false
  | .shl f => f.ok [0, 1, 6, 7] true true true .src 0 false
  | .shlI f => f.ok [0, 1, 6, 7] true true false
  | .shr f => f.ok [0, 1, 6, 7] true true true .src 0 false
  | .shrI f => f.ok [0, 1, 6, 7] true true false
  | .sar f => f.ok [0, 1, 6, 7] true true true .src 0 false
  | .sarI f => f.ok [0, 1, 6, 7] true true false
  | .rotl f => f.ok [0, 1, 6, 7] true true true .src 0 false
  | .rotlI f => f.ok [0, 1, 6, 7] true true false
  | .funnel f => f.ok [0] 0 false
  | .bfx f => f.ok [0, 1, 6, 7] 0 false
  | .bfi f => f.ok [0, 1, 6, 7] 0 false
  | .popc f => f.ok [0, 1, 6, 7] true true false .src 0 false
  | .clz f => f.ok [0, 1, 6, 7] true true false .src 0 false
  | .ctz f => f.ok [0, 1, 6, 7] true true false .src 0 false
  | .brev f => f.ok [0, 1, 6, 7] true true false .src 0 false
  | .bshuf f => f.ok [0] 0 false
  | .lea f => f.ok [0, 1, 2, 3, 4, 5, 6, 7] true true true .src 0 false
  | .leaI f => f.ok [0, 1, 2, 3, 4, 5, 6, 7] true true false
  | .icmp f => f.ok [0, 1, 2, 3, 4, 5, 6, 7] true true true .src 5 false && predOk f.d
  | .icmpI f => f.ok [0, 1, 2, 3, 4, 5, 6, 7] true true false && f.d.extractLsb' 7 2 == 0 && (f.d.extractLsb' 4 3).toNat ≤ 5
  | .isel f => f.ok [0, 6] 0 false && predOk f.c
  | .plop f => f.ok [0] true true true .table 0 false && predOk f.d && predOk f.a && predOk f.b
  | .movh f => f.ok [0] true true true .src 0 false
  | .movhI f => f.ok [0] true true false
  | .movi f => f.ok [1] true false false
  | .vote f => f.ok [0, 1, 2] true true false .no 0 false && predOk f.a
  | .rdlane f => f.ok [0, 6] true true true .no 0 false
  | .rdlaneI f => f.ok [0, 6] true true false
  | .find1 f => f.ok [0, 6] true true false .src 0 false
  | .cvti f => f.ok [0, 1, 2, 3, 4, 5, 6, 7] true true true .src 0 false && cvtiOk f.mod f.b
  | .iredw f => f.ok [0, 1, 6, 7] true true true .src 0 false && f.b.toNat ≤ 5
  | .clamp f => f.ok [0, 1, 2, 3, 4, 5, 6, 7] 0 false
  | .fadd f => f.ok [0, 1, 2, 3] true true true .src 6 true
  | .faddI f => f.ok [0, 2] true true true
  | .fsub f => f.ok [0, 1, 2, 3] true true true .src 6 true
  | .fsubI f => f.ok [0, 2] true true true
  | .fmul f => f.ok [0, 1, 2, 3] true true true .src 6 true
  | .fmulI f => f.ok [0, 2] true true true
  | .ffma f => f.ok [0, 1, 2, 3] 6 true
  | .fnma f => f.ok [0, 1, 2, 3] 6 true
  | .fmin f => f.ok [0, 1, 2, 3, 4, 5] true true true .src 0 true
  | .fminI f => f.ok [0, 2] true true true
  | .fmax f => f.ok [0, 1, 2, 3, 4, 5] true true true .src 0 true
  | .fmaxI f => f.ok [0, 2] true true true
  | .fabs f => f.ok [0, 1, 2, 3, 4, 5] true true false .src 0 false
  | .fneg f => f.ok [0, 1, 2, 3, 4, 5] true true false .src 0 false
  | .fcmp f => f.ok [0, 1, 2, 3, 4, 5] true true true .src 7 true && predOk f.d
  | .fcmpI f => f.ok [0, 2] true true true && predOk f.d
  | .fclass f => f.ok [0, 1, 2, 3, 4, 5] true true false .src 0 false
  | .frint f => f.ok [0, 1, 2, 3] true true false .src 6 true
  | .fcvt f => f.ok [0, 1, 2, 3, 4, 5] true true true .src 6 true && fcvtOk f.mod f.b
  | .f2i f => f.ok [0, 1, 2, 3] true true true .src 6 true && f2iOk f.mod f.b
  | .i2f f => f.ok [0, 1, 2, 3] true true true .src 6 true && f2iOk f.mod f.b
  | .fdot2 f => f.ok [1, 2] 6 true
  | .fredw f => f.ok [0, 3] true true true .src 5 true && f.b.toNat ≤ 2 && (f.b == 0 || f.rnd == 0)
  | .fsetmode f => f.ok [0] false true false .src 0 false
  | .fgetmode f => f.ok [0] true false false .no 0 false
  | .fflags f => f.ok [0] true false false .no 0 false
  | .fflagsClr f => f.ok [1] true false false .no 0 false
  | .fscale f => f.ok [0, 1, 2, 3] true true true .src 6 true
  | .fscaleI f => f.ok [0, 2] true true true
  | .rcp f => f.ok [0, 1, 2] true true false .src 0 true
  | .rsq f => f.ok [0, 1, 2] true true false .src 0 true
  | .sqrt f => f.ok [0] true true false .src 6 true
  | .ex2 f => f.ok [0, 1, 2] true true false .src 0 true
  | .lg2 f => f.ok [0, 1, 2] true true false .src 0 true
  | .sinpi f => f.ok [0] true true false .src 0 true
  | .cospi f => f.ok [0] true true false .src 0 true
  | .tanh f => f.ok [0, 1, 2] true true false .src 0 true
  | .sigm f => f.ok [0, 1, 2] true true false .src 0 true
  | .fdiv f => f.ok [0] true true true .src 6 true
  | .ld f => f.ok [0, 1, 2, 3, 4, 5] true true true .plain
  | .ldI f => f.ok [0, 1, 2, 3, 4, 5] .plain
  | .st f => f.ok [0, 1, 2, 3, 4, 5] true true true .plain
  | .stI f => f.ok [0, 1, 2, 3, 4, 5] .plain
  | .ldw f => f.ok [2, 3] true true true .plain
  | .ldwI f => f.ok [2, 3] .plain
  | .ldAcq f => f.ok [2, 3] true true true .strong
  | .ldAcqI f => f.ok [2, 3] .strong
  | .stRel f => f.ok [2, 3] true true true .strong
  | .stRelI f => f.ok [2, 3] .strong
  | .atom f => f.ok [0, 1, 2, 3, 4, 5, 6, 7] true true true .strong
  | .cas f => f.ok .strong
  | .red f => f.ok [0, 1, 2, 3, 4, 5, 6, 7] true true false .strong
  | .atomX f => f.ok [0, 1, 2, 3] true true true .strong
  | .casX f => f.ok .strong
  | .fenceFull f => f.ok [0] false false false .fence && f.hint == 0
  | .fenceAcq f => f.ok [1] false false false .fence && f.hint == 0
  | .fenceRel f => f.ok [2] false false false .fence && f.hint == 0
  | .fenceEng f => f.ok [3] false false false .fence && f.hint == 0
  | .ldRacq f => f.ok [2, 3] true true true .racq
  | .arrive f => f.ok [0] true true true .phase
  | .waitph f => f.ok [0] false true true .phase
  | .tryph f => f.ok [0] true true true .phase && predOk f.d
  | .barinit f => f.ok [0] false true true .local
  | .pres f => f.ok [0] true true false .local && predOk f.d
  | .cctlInvl f => f.ok [0] false true false .cache
  | .cctlInvall f => f.ok [1] false false false .cache
  | .cctlPref f => f.ok [2] false true false .cache
  | .cctlEvf f => f.ok [3] false true false .cache
  | .bra f => f.ok [0] false true
  | .braU f => f.ok [1] false true
  | .brx f => f.ok [0] true true && f.imm == 0
  | .call f => f.ok [0] true true
  | .callx f => f.ok [0] true true && f.imm == 0
  | .ret f => f.ok [0] true true && f.imm == 0
  | .brk f => f.ok [0, 1, 2, 3, 4, 5, 6, 7] false true && f.imm == 0
  | .loop f => f.ok [0] true false && f.imm.extractLsb' 12 4 == 0 && f.imm.extractLsb' 0 12 != 0
  | .loopPipe f => f.ok [1] true false && f.imm.extractLsb' 12 1 == 0 && f.imm.extractLsb' 13 3 != 7 && f.imm.extractLsb' 0 12 != 0
  | .rotset f => f.ok [0] false false && f.imm.extractLsb' 0 14 == 0
  | .modeCollapse f => f.ok [0] false false && f.imm.extractLsb' 0 2 != 3 && f.imm.extractLsb' 2 1 == 0
  | .modeExpand f => f.ok [1] false false && f.imm.extractLsb' 0 3 == 0
  | .sync f => f.ok [0] false false && (f.imm == 1 || f.imm == 2 || f.imm == 3)
  | .exit f => f.ok [0] false true && f.imm == 0
  | .trap f => f.ok [0] false true
  | .eret f => f.ok [0] false false && f.imm == 0
  | .nop f => f.ok [0] false false && f.imm.extractLsb' 16 16 == 0
  | .yield f => f.ok [0] false false && f.imm == 0
  | .elect f => f.ok [0] true false false .no 0 false && predOk f.d
  | .folld f => f.ok [0] true false && f.imm.extractLsb' 4 28 == 0
  | .folfree f => f.ok [0] false false && f.imm.extractLsb' 4 28 == 0
  | .domset f => f.ok [0] true false && f.imm == 0
  | .mms f => f.ok [0, 1, 2, 3, 4, 5, 6, 7] true true true .no 0 false
  | .mmsz f => f.ok [0, 1, 2, 3, 4, 5, 6, 7] true true true .no 0 false
  | .mmsg f => f.ok [0, 1, 2, 3, 4, 5, 6, 7] true true true .no 0 false
  | .accalloc f => f.ok [0] true true false .no 0 false
  | .accallocI f => f.ok [0] true false false
  | .accfree f => f.ok [0] false true true .no 0 false
  | .accfreeI f => f.ok [0] false true false
  | .accrd f => f.ok [0, 1, 2, 3, 4, 5, 6, 7] true true true .no 6 false
  | .accwr f => f.ok [0, 1, 2, 3, 4, 5, 6, 7] true true true .no 0 false
  | .accclr f => f.ok [0] true false false .no 0 false
  | .fmtset f => f.ok [0, 1, 2, 3, 4, 5, 6, 7] false true false .no 0 false
  | .fmtsetI f => f.ok [0, 1, 2, 3, 4, 5, 6, 7] false false false
  | .accadd f => f.ok [0] true true false .no 0 false
  | .copy f => f.ok [0] 0 false
  | .kick f => f.ok [0] false true true .no 0 false
  | .gather f => f.ok [0] 0 false
  | .scatter f => f.ok [0] 0 false
  | .scatterAdd f => f.ok [1] 0 false
  | .pfl2 f => f.ok [0] true true true .no 0 false
  | .pfl2Tok f => f.ok [1] true true true .no 0 false
  | .cstat f => f.ok [0] true true false .no 0 false
  | .seedtry f => f.ok [0] 0 false
  | .seedscan f => f.ok [0] 0 false
  | .fit f => f.ok [0] true true true .no 0 false
  | .proj f => f.ok [0] true true true .no 0 false
  | .mgen f => f.ok [0] true true true .no 0 false
  | .mstat f => f.ok [0] true true false .no 0 false
  | .xlate f => f.ok [0] true true false .no 0 false
  | .xprobe f => f.ok [0] true true false .no 0 false
  | .xinvPage f => f.ok [0] false true false .no 0 false
  | .xinvRange f => f.ok [1] false true true .no 0 false
  | .xinvPasid f => f.ok [2] false true false .no 0 false
  | .xinvAll f => f.ok [3] false false false .no 0 false
  | .xflush f => f.ok [0] false false false .no 0 false
  | .pclass f => f.ok [0] false true false .no 0 false
  | .pclassI f => f.ok [0] false false false
  | .opsel f => f.ok [0] false true false .no 0 false
  | .opselI f => f.ok [0] false false false
  | .grant f => f.ok [0] true true false .no 0 false
  | .tmark f => f.ok [0] false true false .no 0 false
  | .tmarkI f => f.ok [0] false false false
  | .bkpt f => f.ok [0] false true false .no 0 false
  | .bkptI f => f.ok [0] false false false
  | .shash f => f.ok [0] true true false .no 0 false
  | .confrd f => f.ok [0] true true false .no 0 false
  | .rpctlOff f => f.ok [0] true true false .no 0 false
  | .rpctlRec f => f.ok [1] true true false .no 0 false
  | .rpctlReplay f => f.ok [2] true true false .no 0 false
  | .rpctlQuery f => f.ok [3] true true false .no 0 false
  | .qsub f => f.ok [0] true true true .no 0 false
  | .getsp f => f.ok [0] true false true .no 0 false
  | .setsp f => f.ok [0] false true true .src 0 false
  | .resultLands c => decide (c < 576)
  | .interlockedResultReturn c => decide (c < 576)
  | .linePresent c => decide (c < 576)
  | .requestEntryFree c => decide (c < 576)
  | .writeBufferDrain c => decide (c < 576)
  | .promotionRequest c => decide (c < 576)
  | .sliceAtomic sl => decide (sl < 512)
  | .remoteScratchAccess c => decide (c < 576)
  | .warpReady c => decide (c < 576)
  | .loopBackEdge c => decide (c < 576)
  | .reconvergeMerge c => decide (c < 576)
  | .folldComplete c => decide (c < 576)
  | .collapseComplete c => decide (c < 576)
  | .expandComplete c => decide (c < 576)
  | .strandFaultFreeze c => decide (c < 576)
  | .strandSnapshotResume c => decide (c < 576)
  | .trapEntry c => decide (c < 576)
  | .asyncTrapDelivery c => decide (c < 576)
  | .kettleLineRise l => decide (l < 77)
  | .kettleRelease l => decide (l < 77)
  | .copyAccept c => decide (c < 576)
  | .kickEntryAccept c => decide (c < 576)
  | .copyLineMove c => decide (c < 576)
  | .copyGlobalReturn c => decide (c < 576)
  | .copyBytesLand c => decide (c < 576)
  | .requestError c => decide (c < 576)
  | .pfl2LineDone c => decide (c < 576)
  | .pageWaitResume c => decide (c < 576)
  | .mxStart c => decide (c < 576)
  | .mxOccupancyEnd c => decide (c < 576)
  | .mmsgRecordRead c => decide (c < 576)
  | .accallocGrant c => decide (c < 576)
  | .accfreeRelease c => decide (c < 576)
  | .accDeadlock c => decide (c < 576)
  | .mxResetEnd c => decide (c < 576)
  | .bankTransfer c => decide (c < 576)
  | .marbleAccept c => decide (c < 576)
  | .marbleStart c => decide (c < 576)
  | .marbleComplete c => decide (c < 576)
  | .candidateComplete c => decide (c < 576)
  | .scanDeadline c => decide (c < 576)
  | .qwpWrite q _ => decide (q < 64)
  | .qctlWrite q _ => decide (q < 64)
  | .qstatClear q _ => decide (q < 64)
  | .recordAdmit => true
  | .blockPlace c => decide (c < 576)
  | .blockEnd c => decide (c < 576)
  | .gridComplete => true
  | .preempt c => decide (c < 576)
  | .preemptHaltDone c => decide (c < 576)
  | .mxResetCmd c => decide (c < 576)
  | .coreResetCmd c => decide (c < 576)
  | .walk c => decide (c < 576)
  | .atsCompletion c _ => decide (c < 576)
  | .atsTimeout c => decide (c < 576)
  | .prgResponse c _ => decide (c < 576)
  | .pageRequestTimeout c => decide (c < 576)
  | .hostAtsInvalidate _ _ _ => true
  | .invalidationComplete => true
  | .hostInvPage pasid => decide (pasid < 2 ^ 20)
  | .hostInvRange pasid => decide (pasid < 2 ^ 20)
  | .hostInvPasid pasid => decide (pasid < 2 ^ 20)
  | .hostInvAll => true
  | .hostHostAccess _ _ pa => decide (pa < 2 ^ 40)
  | .hostCompletionError c => decide (c < 576)
  | .peerLoss c => decide (c < 576)
  | .cgrantWrite c _ => decide (c < 576)
  | .settleComplete c => decide (c < 576)
  | .governedStall c => decide (c < 576)
  | .slewStep => true
  | .slewGrant c => decide (c < 576)
  | .fillerEnd c => decide (c < 576)
  | .slewWrite g _ _ _ => decide (g < 72)
  | .hangTimeout c => decide (c < 576)
  | .mxhangTimeout c => decide (c < 576)
  | .wstatClear c _ => decide (c < 576)
  | .stopArmCycle c _ => decide (c < 576)
  | .stopArmCount c _ => decide (c < 576)
  | .stopDisarm c _ => decide (c < 576)
  | .stopResume c => decide (c < 576)
  | .preciseStop c => decide (c < 576)
  | .sample c => decide (c < 576)
  | .bcmClear c => decide (c < 576)
  | .divergedClear c => decide (c < 576)
  | .obsctlWrite c _ => decide (c < 576)
  | .headbandFlush => true
  | .headbandEnable _ => true
  | .dropCountEmit => true
  | .losslessRoom => true
  | .timeSync => true
  | .rpmodeOff sl => decide (sl < 512)
  | .rpmodeRecord sl => decide (sl < 512)
  | .rpmodeReplay sl => decide (sl < 512)
  | .rlogPartialFlush sl => decide (sl < 512)
  | .gateTimeout sl => decide (sl < 512)
  | .shashRetire c => decide (c < 576)
  | .pressPinAssert => true
  | .pressPinDeassert => true
  | .pressCmd => true
  | .pressReleaseCmd => true
  | .pressEdge => true
  | .pressReleaseEdge => true
  | .dramRefresh stk => decide (stk < 8)
  | .eccScrubForced stk => decide (stk < 8)
  | .powerOn err => decide (err ≤ 6 ∧ err ≠ 3)
  | .warmReset _ err => decide (err = 0 ∨ 4 ≤ err ∧ err ≤ 6)
  | .attestGo => true
  | .attestDone => true
  | .controlRegisterWrite off _ => decide (off < 2 ^ 20)
  | .qsubRecordWritten q => decide (q < 64)
  | .configurationSpaceWrite _ _ _ => true
  | .powerLoss => true

end Sys2Proof
end

