-- ==== Sys2Proof/Decode.lean ====
section
/-! DEFINITION. The decoder of slot words (R26 to R30, R50), total on any 64-bit word, and the encoder
written from the same tables. A word that is no instruction is rejected with the name of what is wrong;
the machine turns each rejection into an ILLEGAL_ENCODING trap (R4, R5). -/

namespace Sys2Proof

/-- Why a word is not an instruction. -/
inductive DecodeError where
  /-- KIND 11 outside UNIT 4, or a KIND the OP does not have (R28, R50) -/
  | kind
  /-- an OP value the opcode map does not list, or a MOD value of an OP that has none (R50) -/
  | op
  /-- a field marked zero is not zero (R4, R27) -/
  | zeroField
  /-- an operand, MOD, RND, NF, guard or space field is illegal (R28, R50) -/
  | field
  /-- a bundle header whose NSLOT does not count the words that follow (R46) -/
  | slots
deriving DecidableEq, Repr

/-- The guard and TAIL bits [6:0] of a word (R27). -/
def guardOf (w : W64) : Guard := ⟨w.extractLsb' 3 4, w.getLsbD 2, w.extractLsb' 0 2⟩

/-- The two-source trigger fields of a word (R27). -/
def f2Of (w : W64) : F2 :=
  ⟨w.extractLsb' 50 3, w.extractLsb' 41 9, w.extractLsb' 32 9, w.extractLsb' 23 9, w.extractLsb' 11 12,
    w.extractLsb' 8 3, w.getLsbD 7, guardOf w⟩

/-- The three-source trigger fields (R27); bits [13:11] are marked zero. -/
def f3Of (w : W64) : F3 :=
  ⟨w.extractLsb' 50 3, w.extractLsb' 41 9, w.extractLsb' 32 9, w.extractLsb' 23 9, w.extractLsb' 14 9,
    w.extractLsb' 8 3, w.getLsbD 7, guardOf w⟩

/-- The immediate fields (R27). -/
def fiOf (w : W64) : FI :=
  ⟨w.extractLsb' 50 3, w.extractLsb' 41 9, w.extractLsb' 32 9, w.extractLsb' 8 24, w.getLsbD 7, guardOf w⟩

/-- The LS trigger fields (R27); bits [14:7] are zero. -/
def l2Of (w : W64) : L2 :=
  ⟨w.extractLsb' 50 3, w.extractLsb' 41 9, w.extractLsb' 32 9, w.extractLsb' 23 9, w.extractLsb' 21 2,
    w.extractLsb' 18 3, w.extractLsb' 15 3, guardOf w⟩

/-- The LS three-source fields (R27); bits [8:7] are zero. -/
def l3Of (w : W64) : L3 :=
  ⟨w.extractLsb' 50 3, w.extractLsb' 41 9, w.extractLsb' 32 9, w.extractLsb' 23 9, w.extractLsb' 21 2,
    w.extractLsb' 18 3, w.extractLsb' 9 9, guardOf w⟩

/-- The LS immediate fields (R27). -/
def liOf (w : W64) : LI :=
  ⟨w.extractLsb' 50 3, w.extractLsb' 41 9, w.extractLsb' 32 9, w.extractLsb' 12 20, w.extractLsb' 10 2,
    w.extractLsb' 7 3, guardOf w⟩

/-- The control fields (R27); bits [8:7] are zero. -/
def fcOf (w : W64) : FC := ⟨w.extractLsb' 50 3, w.extractLsb' 41 9, w.extractLsb' 9 32, guardOf w⟩

/-- The move fields (R27); bits [31:23] and [10:7] are zero. -/
def mvOf (w : W64) : MV :=
  ⟨w.getLsbD 61, w.extractLsb' 59 2, w.extractLsb' 56 3, w.extractLsb' 50 6, w.extractLsb' 41 9,
    w.extractLsb' 32 9, w.extractLsb' 11 12, guardOf w⟩

/-- The two-source trigger instructions of UNIT 0, by OP (R50). -/
def iuF2 (op : Nat) (f : F2) : Option Instr :=
  match op with
  | 0 => some (.iadd f)
  | 1 => some (.isub f)
  | 2 => some (.imul f)
  | 3 => some (.imulh f)
  | 5 => some (.idiv f)
  | 6 => some (.irem f)
  | 7 => some (.imin f)
  | 8 => some (.imax f)
  | 9 => some (.iabs f)
  | 10 => some (.ineg f)
  | 11 => some (.iadds f)
  | 16 => some (.and f)
  | 17 => some (.or f)
  | 18 => some (.xor f)
  | 19 => some (.andn f)
  | 20 => some (.not f)
  | 21 => some (.shl f)
  | 22 => some (.shr f)
  | 23 => some (.sar f)
  | 24 => some (.rotl f)
  | 28 => some (.popc f)
  | 29 => some (.clz f)
  | 30 => some (.ctz f)
  | 31 => some (.brev f)
  | 33 => some (.lea f)
  | 34 => some (.icmp f)
  | 36 => some (.plop f)
  | 37 => some (.movh f)
  | 38 => some (.vote f)
  | 39 => some (.rdlane f)
  | 40 => some (.find1 f)
  | 41 => some (.cvti f)
  | 42 => some (.iredw f)
  | _ => none

/-- The two-source trigger instructions of UNIT 1, by OP (R50). -/
def fuF2 (op : Nat) (f : F2) : Option Instr :=
  match op with
  | 0 => some (.fadd f)
  | 1 => some (.fsub f)
  | 2 => some (.fmul f)
  | 5 => some (.fmin f)
  | 6 => some (.fmax f)
  | 7 => some (.fabs f)
  | 8 => some (.fneg f)
  | 9 => some (.fcmp f)
  | 10 => some (.fclass f)
  | 11 => some (.frint f)
  | 12 => some (.fcvt f)
  | 13 => some (.f2i f)
  | 14 => some (.i2f f)
  | 16 => some (.fredw f)
  | 17 => some (.fsetmode f)
  | 18 => some (.fgetmode f)
  | 19 => match f.mod.toNat with
    | 0 => some (.fflags f)
    | 1 => some (.fflagsClr f)
    | _ => none
  | 20 => some (.fscale f)
  | _ => none

/-- The two-source trigger instructions of UNIT 2, by OP (R50). -/
def sfF2 (op : Nat) (f : F2) : Option Instr :=
  match op with
  | 0 => some (.rcp f)
  | 1 => some (.rsq f)
  | 2 => some (.sqrt f)
  | 3 => some (.ex2 f)
  | 4 => some (.lg2 f)
  | 5 => some (.sinpi f)
  | 6 => some (.cospi f)
  | 7 => some (.tanh f)
  | 8 => some (.sigm f)
  | 9 => some (.fdiv f)
  | _ => none

/-- The two-source trigger instructions of UNIT 4, by OP (R50). -/
def sqF2 (op : Nat) (f : F2) : Option Instr :=
  match op with
  | 15 => some (.elect f)
  | _ => none

/-- The two-source trigger instructions of UNIT 5, by OP (R50). -/
def mxF2 (op : Nat) (f : F2) : Option Instr :=
  match op with
  | 0 => some (.mms f)
  | 1 => some (.mmsz f)
  | 2 => some (.mmsg f)
  | 3 => some (.accalloc f)
  | 4 => some (.accfree f)
  | 5 => some (.accrd f)
  | 6 => some (.accwr f)
  | 7 => some (.accclr f)
  | 8 => some (.fmtset f)
  | 9 => some (.accadd f)
  | _ => none

/-- The two-source trigger instructions of UNIT 6, by OP (R50). -/
def aeF2 (op : Nat) (f : F2) : Option Instr :=
  match op with
  | 1 => some (.kick f)
  | 4 => match f.mod.toNat with
    | 0 => some (.pfl2 f)
    | 1 => some (.pfl2Tok f)
    | _ => none
  | 5 => some (.cstat f)
  | 34 => some (.fit f)
  | 35 => some (.proj f)
  | 36 => some (.mgen f)
  | 37 => some (.mstat f)
  | _ => none

/-- The two-source trigger instructions of UNIT 7, by OP (R50). -/
def syF2 (op : Nat) (f : F2) : Option Instr :=
  match op with
  | 0 => some (.xlate f)
  | 1 => some (.xprobe f)
  | 2 => match f.mod.toNat with
    | 0 => some (.xinvPage f)
    | 1 => some (.xinvRange f)
    | 2 => some (.xinvPasid f)
    | 3 => some (.xinvAll f)
    | _ => none
  | 3 => some (.xflush f)
  | 16 => some (.pclass f)
  | 17 => some (.opsel f)
  | 18 => some (.grant f)
  | 32 => some (.tmark f)
  | 33 => some (.bkpt f)
  | 34 => some (.shash f)
  | 35 => some (.confrd f)
  | 36 => match f.mod.toNat with
    | 0 => some (.rpctlOff f)
    | 1 => some (.rpctlRec f)
    | 2 => some (.rpctlReplay f)
    | 3 => some (.rpctlQuery f)
    | _ => none
  | 48 => some (.qsub f)
  | 49 => some (.getsp f)
  | 50 => some (.setsp f)
  | _ => none

/-- The three-source trigger instructions of UNIT 0, by OP (R50). -/
def iuF3 (op : Nat) (f : F3) : Option Instr :=
  match op with
  | 4 => some (.imad f)
  | 12 => some (.isad f)
  | 13 => some (.idot4 f)
  | 25 => some (.funnel f)
  | 26 => some (.bfx f)
  | 27 => some (.bfi f)
  | 32 => some (.bshuf f)
  | 35 => some (.isel f)
  | 43 => some (.clamp f)
  | _ => none

/-- The three-source trigger instructions of UNIT 1, by OP (R50). -/
def fuF3 (op : Nat) (f : F3) : Option Instr :=
  match op with
  | 3 => some (.ffma f)
  | 4 => some (.fnma f)
  | 15 => some (.fdot2 f)
  | _ => none

/-- The three-source trigger instructions of UNIT 6, by OP (R50). -/
def aeF3 (op : Nat) (f : F3) : Option Instr :=
  match op with
  | 0 => some (.copy f)
  | 2 => some (.gather f)
  | 3 => match f.mod.toNat with
    | 0 => some (.scatter f)
    | 1 => some (.scatterAdd f)
    | _ => none
  | 32 => some (.seedtry f)
  | 33 => some (.seedscan f)
  | _ => none

/-- The immediate instructions of UNIT 0, by OP (R50). -/
def iuFI (op : Nat) (f : FI) : Option Instr :=
  match op with
  | 0 => some (.iaddI f)
  | 1 => some (.isubI f)
  | 2 => some (.imulI f)
  | 3 => some (.imulhI f)
  | 5 => some (.idivI f)
  | 6 => some (.iremI f)
  | 7 => some (.iminI f)
  | 8 => some (.imaxI f)
  | 11 => some (.iaddsI f)
  | 16 => some (.andI f)
  | 17 => some (.orI f)
  | 18 => some (.xorI f)
  | 19 => some (.andnI f)
  | 21 => some (.shlI f)
  | 22 => some (.shrI f)
  | 23 => some (.sarI f)
  | 24 => some (.rotlI f)
  | 33 => some (.leaI f)
  | 34 => some (.icmpI f)
  | 37 => match f.mod.toNat with
    | 0 => some (.movhI f)
    | 1 => some (.movi f)
    | _ => none
  | 39 => some (.rdlaneI f)
  | _ => none

/-- The immediate instructions of UNIT 1, by OP (R50). -/
def fuFI (op : Nat) (f : FI) : Option Instr :=
  match op with
  | 0 => some (.faddI f)
  | 1 => some (.fsubI f)
  | 2 => some (.fmulI f)
  | 5 => some (.fminI f)
  | 6 => some (.fmaxI f)
  | 9 => some (.fcmpI f)
  | 20 => some (.fscaleI f)
  | _ => none

/-- The immediate instructions of UNIT 5, by OP (R50). -/
def mxFI (op : Nat) (f : FI) : Option Instr :=
  match op with
  | 3 => some (.accallocI f)
  | 4 => some (.accfreeI f)
  | 8 => some (.fmtsetI f)
  | _ => none

/-- The immediate instructions of UNIT 7, by OP (R50). -/
def syFI (op : Nat) (f : FI) : Option Instr :=
  match op with
  | 16 => some (.pclassI f)
  | 17 => some (.opselI f)
  | 32 => some (.tmarkI f)
  | 33 => some (.bkptI f)
  | _ => none

/-- The LS trigger instructions of UNIT 3, by OP (R50). -/
def lsL2 (op : Nat) (f : L2) : Option Instr :=
  match op with
  | 0 => some (.ld f)
  | 1 => some (.st f)
  | 2 => some (.ldw f)
  | 3 => some (.ldAcq f)
  | 4 => some (.stRel f)
  | 5 => some (.atom f)
  | 7 => some (.red f)
  | 8 => some (.atomX f)
  | 10 => match f.mod.toNat with
    | 0 => some (.fenceFull f)
    | 1 => some (.fenceAcq f)
    | 2 => some (.fenceRel f)
    | 3 => some (.fenceEng f)
    | _ => none
  | 11 => some (.ldRacq f)
  | 12 => some (.arrive f)
  | 13 => some (.waitph f)
  | 14 => some (.tryph f)
  | 15 => some (.barinit f)
  | 16 => some (.pres f)
  | 17 => match f.mod.toNat with
    | 0 => some (.cctlInvl f)
    | 1 => some (.cctlInvall f)
    | 2 => some (.cctlPref f)
    | 3 => some (.cctlEvf f)
    | _ => none
  | _ => none

/-- The LS three-source instructions of UNIT 3, by OP (R50). -/
def lsL3 (op : Nat) (f : L3) : Option Instr :=
  match op with
  | 6 => some (.cas f)
  | 9 => some (.casX f)
  | _ => none

/-- The LS immediate instructions of UNIT 3, by OP (R50). -/
def lsLI (op : Nat) (f : LI) : Option Instr :=
  match op with
  | 0 => some (.ldI f)
  | 1 => some (.stI f)
  | 2 => some (.ldwI f)
  | 3 => some (.ldAcqI f)
  | 4 => some (.stRelI f)
  | _ => none

/-- The control instructions of UNIT 4, by OP (R50). -/
def sqFC (op : Nat) (f : FC) : Option Instr :=
  match op with
  | 0 => match f.mod.toNat with
    | 0 => some (.bra f)
    | 1 => some (.braU f)
    | _ => none
  | 1 => some (.brx f)
  | 2 => some (.call f)
  | 3 => some (.callx f)
  | 4 => some (.ret f)
  | 5 => some (.brk f)
  | 6 => match f.mod.toNat with
    | 0 => some (.loop f)
    | 1 => some (.loopPipe f)
    | _ => none
  | 7 => some (.rotset f)
  | 8 => match f.mod.toNat with
    | 0 => some (.modeCollapse f)
    | 1 => some (.modeExpand f)
    | _ => none
  | 9 => some (.sync f)
  | 10 => some (.exit f)
  | 11 => some (.trap f)
  | 12 => some (.eret f)
  | 13 => some (.nop f)
  | 14 => some (.yield f)
  | 16 => some (.folld f)
  | 17 => some (.folfree f)
  | 18 => some (.domset f)
  | _ => none

/-- Two-source trigger words (R50). -/
def trig2 (unit op : Nat) (f : F2) : Option Instr :=
  match unit with
  | 0 => iuF2 op f
  | 1 => fuF2 op f
  | 2 => sfF2 op f
  | 4 => sqF2 op f
  | 5 => mxF2 op f
  | 6 => aeF2 op f
  | 7 => syF2 op f
  | _ => none

/-- Three-source trigger words (R50). -/
def trig3 (unit op : Nat) (f : F3) : Option Instr :=
  match unit with
  | 0 => iuF3 op f
  | 1 => fuF3 op f
  | 6 => aeF3 op f
  | _ => none

/-- Immediate words (R50). -/
def imm (unit op : Nat) (f : FI) : Option Instr :=
  match unit with
  | 0 => iuFI op f
  | 1 => fuFI op f
  | 5 => mxFI op f
  | 7 => syFI op f
  | _ => none

/-- A named answer: the instruction when its fields are legal, else the field error. -/
def checked (i : Option Instr) : Except DecodeError Instr :=
  match i with
  | none => .error .op
  | some j => if j.wf then .ok j else .error .field

/-- Decode a word of KIND 01 (R27): the OP decides between the two- and three-source forms. -/
def decodeTrigger (w : W64) : Except DecodeError Instr :=
  let unit := (w.extractLsb' 59 3).toNat
  let op := (w.extractLsb' 53 6).toNat
  if unit == 3 then
    if (lsL3 op (l3Of w)).isSome then
      if w.extractLsb' 7 2 == 0 then checked (lsL3 op (l3Of w)) else .error .zeroField
    else if w.extractLsb' 7 8 == 0 then checked (lsL2 op (l2Of w)) else .error .zeroField
  else if (trig3 unit op (f3Of w)).isSome then
    if w.extractLsb' 11 3 == 0 then checked (trig3 unit op (f3Of w)) else .error .zeroField
  else checked (trig2 unit op (f2Of w))

/-- Decode one slot word (R27, R28, R50). -/
def decode (w : W64) : Except DecodeError Instr :=
  match (w.extractLsb' 62 2).toNat with
  | 0 =>
    if w.extractLsb' 23 9 == 0 && w.extractLsb' 7 4 == 0 then checked (some (.mov (mvOf w)))
    else .error .zeroField
  | 1 => decodeTrigger w
  | 2 =>
    let unit := (w.extractLsb' 59 3).toNat
    let op := (w.extractLsb' 53 6).toNat
    if unit == 3 then checked (lsLI op (liOf w)) else checked (imm unit op (fiOf w))
  | _ =>
    if w.extractLsb' 59 3 == 4 then
      if w.extractLsb' 7 2 == 0 then checked (sqFC (w.extractLsb' 53 6).toNat (fcOf w))
      else .error .zeroField
    else .error .kind

/-- Decode a bundle: a header and the slot words that follow it (R26, R46). The header's own fields and
the slots are checked when the bundle issues (R48). -/
def decodeBundle (hdr : W64) (slots : List W64) : Except DecodeError Instr :=
  if Instr.wf (.bundle hdr slots) then .ok (.bundle hdr slots) else .error .slots

/-- The 64-bit little-endian word of eight bytes (R1). -/
def wordOfBytes (l : List Byte) : W64 :=
  BitVec.ofNat 64 (l.foldr (fun b acc => b.toNat + 256 * acc) 0)

/-- The eight bytes of a word, byte 0 first (R1). -/
def bytesOfWord (w : W64) : List Byte :=
  (List.range 8).map (fun i => w.extractLsb' (8 * i) 8)

/-- Decode the first eight of a list of bytes, with the bytes that follow. -/
def decodeBytes (l : List Byte) : Except DecodeError (Instr × List Byte) :=
  match decode (wordOfBytes (l.take 8)) with
  | .ok i => .ok (i, l.drop 8)
  | .error e => .error e

/-! ## The encoder, from the same tables of the spec -/

/-- Bits [6:0] (R27). -/
def Guard.bits (g : Guard) : BitVec 7 := g.pred ++ BitVec.ofBool g.pn ++ g.tail

/-- A two-source trigger word (R27). -/
def F2.word (unit : BitVec 3) (op : BitVec 6) (f : F2) : W64 :=
  (1#2 ++ unit ++ op ++ f.mod ++ f.d ++ f.a ++ f.b ++ f.amod ++ f.rnd ++ BitVec.ofBool f.nf ++ f.g.bits :)

/-- A three-source trigger word (R27). -/
def F3.word (unit : BitVec 3) (op : BitVec 6) (f : F3) : W64 :=
  (1#2 ++ unit ++ op ++ f.mod ++ f.d ++ f.a ++ f.b ++ f.c ++ 0#3 ++ f.rnd ++ BitVec.ofBool f.nf ++ f.g.bits :)

/-- An immediate word (R27). -/
def FI.word (unit : BitVec 3) (op : BitVec 6) (f : FI) : W64 :=
  (2#2 ++ unit ++ op ++ f.mod ++ f.d ++ f.a ++ f.imm ++ BitVec.ofBool f.nf ++ f.g.bits :)

/-- An LS trigger word (R27). -/
def L2.word (unit : BitVec 3) (op : BitVec 6) (f : L2) : W64 :=
  (1#2 ++ unit ++ op ++ f.mod ++ f.d ++ f.a ++ f.b ++ f.space ++ f.scope ++ f.hint ++ 0#8 ++ f.g.bits :)

/-- An LS three-source word (R27). -/
def L3.word (unit : BitVec 3) (op : BitVec 6) (f : L3) : W64 :=
  (1#2 ++ unit ++ op ++ f.mod ++ f.d ++ f.a ++ f.b ++ f.space ++ f.scope ++ f.c ++ 0#2 ++ f.g.bits :)

/-- An LS immediate word (R27). -/
def LI.word (unit : BitVec 3) (op : BitVec 6) (f : LI) : W64 :=
  (2#2 ++ unit ++ op ++ f.mod ++ f.d ++ f.a ++ f.imm ++ f.space ++ f.scope ++ f.g.bits :)

/-- A control word (R27). -/
def FC.word (unit : BitVec 3) (op : BitVec 6) (f : FC) : W64 :=
  (3#2 ++ unit ++ op ++ f.mod ++ f.a ++ f.imm ++ 0#2 ++ f.g.bits :)

/-- A move word (R27). -/
def MV.word (f : MV) : W64 :=
  (0#2 ++ BitVec.ofBool f.xc ++ f.scl ++ f.sln ++ f.dport ++ f.d ++ f.a ++ 0#9 ++ f.amod ++ 0#4 ++ f.g.bits :)

/-- The words of an instruction: one slot word, or the header and slots of a bundle. An event of the
machine or its surroundings has no words. -/
def encode : Instr → List W64
  | .mov f => [f.word]
  | .bundle h sl => h :: sl
  | .iadd f => [f.word 0 0]
  | .iaddI f => [f.word 0 0]
  | .isub f => [f.word 0 1]
  | .isubI f => [f.word 0 1]
  | .imul f => [f.word 0 2]
  | .imulI f => [f.word 0 2]
  | .imulh f => [f.word 0 3]
  | .imulhI f => [f.word 0 3]
  | .imad f => [f.word 0 4]
  | .idiv f => [f.word 0 5]
  | .idivI f => [f.word 0 5]
  | .irem f => [f.word 0 6]
  | .iremI f => [f.word 0 6]
  | .imin f => [f.word 0 7]
  | .iminI f => [f.word 0 7]
  | .imax f => [f.word 0 8]
  | .imaxI f => [f.word 0 8]
  | .iabs f => [f.word 0 9]
  | .ineg f => [f.word 0 10]
  | .iadds f => [f.word 0 11]
  | .iaddsI f => [f.word 0 11]
  | .isad f => [f.word 0 12]
  | .idot4 f => [f.word 0 13]
  | .and f => [f.word 0 16]
  | .andI f => [f.word 0 16]
  | .or f => [f.word 0 17]
  | .orI f => [f.word 0 17]
  | .xor f => [f.word 0 18]
  | .xorI f => [f.word 0 18]
  | .andn f => [f.word 0 19]
  | .andnI f => [f.word 0 19]
  | .not f => [f.word 0 20]
  | .shl f => [f.word 0 21]
  | .shlI f => [f.word 0 21]
  | .shr f => [f.word 0 22]
  | .shrI f => [f.word 0 22]
  | .sar f => [f.word 0 23]
  | .sarI f => [f.word 0 23]
  | .rotl f => [f.word 0 24]
  | .rotlI f => [f.word 0 24]
  | .funnel f => [f.word 0 25]
  | .bfx f => [f.word 0 26]
  | .bfi f => [f.word 0 27]
  | .popc f => [f.word 0 28]
  | .clz f => [f.word 0 29]
  | .ctz f => [f.word 0 30]
  | .brev f => [f.word 0 31]
  | .bshuf f => [f.word 0 32]
  | .lea f => [f.word 0 33]
  | .leaI f => [f.word 0 33]
  | .icmp f => [f.word 0 34]
  | .icmpI f => [f.word 0 34]
  | .isel f => [f.word 0 35]
  | .plop f => [f.word 0 36]
  | .movh f => [f.word 0 37]
  | .movhI f => [f.word 0 37]
  | .movi f => [f.word 0 37]
  | .vote f => [f.word 0 38]
  | .rdlane f => [f.word 0 39]
  | .rdlaneI f => [f.word 0 39]
  | .find1 f => [f.word 0 40]
  | .cvti f => [f.word 0 41]
  | .iredw f => [f.word 0 42]
  | .clamp f => [f.word 0 43]
  | .fadd f => [f.word 1 0]
  | .faddI f => [f.word 1 0]
  | .fsub f => [f.word 1 1]
  | .fsubI f => [f.word 1 1]
  | .fmul f => [f.word 1 2]
  | .fmulI f => [f.word 1 2]
  | .ffma f => [f.word 1 3]
  | .fnma f => [f.word 1 4]
  | .fmin f => [f.word 1 5]
  | .fminI f => [f.word 1 5]
  | .fmax f => [f.word 1 6]
  | .fmaxI f => [f.word 1 6]
  | .fabs f => [f.word 1 7]
  | .fneg f => [f.word 1 8]
  | .fcmp f => [f.word 1 9]
  | .fcmpI f => [f.word 1 9]
  | .fclass f => [f.word 1 10]
  | .frint f => [f.word 1 11]
  | .fcvt f => [f.word 1 12]
  | .f2i f => [f.word 1 13]
  | .i2f f => [f.word 1 14]
  | .fdot2 f => [f.word 1 15]
  | .fredw f => [f.word 1 16]
  | .fsetmode f => [f.word 1 17]
  | .fgetmode f => [f.word 1 18]
  | .fflags f => [f.word 1 19]
  | .fflagsClr f => [f.word 1 19]
  | .fscale f => [f.word 1 20]
  | .fscaleI f => [f.word 1 20]
  | .rcp f => [f.word 2 0]
  | .rsq f => [f.word 2 1]
  | .sqrt f => [f.word 2 2]
  | .ex2 f => [f.word 2 3]
  | .lg2 f => [f.word 2 4]
  | .sinpi f => [f.word 2 5]
  | .cospi f => [f.word 2 6]
  | .tanh f => [f.word 2 7]
  | .sigm f => [f.word 2 8]
  | .fdiv f => [f.word 2 9]
  | .ld f => [f.word 3 0]
  | .ldI f => [f.word 3 0]
  | .st f => [f.word 3 1]
  | .stI f => [f.word 3 1]
  | .ldw f => [f.word 3 2]
  | .ldwI f => [f.word 3 2]
  | .ldAcq f => [f.word 3 3]
  | .ldAcqI f => [f.word 3 3]
  | .stRel f => [f.word 3 4]
  | .stRelI f => [f.word 3 4]
  | .atom f => [f.word 3 5]
  | .cas f => [f.word 3 6]
  | .red f => [f.word 3 7]
  | .atomX f => [f.word 3 8]
  | .casX f => [f.word 3 9]
  | .fenceFull f => [f.word 3 10]
  | .fenceAcq f => [f.word 3 10]
  | .fenceRel f => [f.word 3 10]
  | .fenceEng f => [f.word 3 10]
  | .ldRacq f => [f.word 3 11]
  | .arrive f => [f.word 3 12]
  | .waitph f => [f.word 3 13]
  | .tryph f => [f.word 3 14]
  | .barinit f => [f.word 3 15]
  | .pres f => [f.word 3 16]
  | .cctlInvl f => [f.word 3 17]
  | .cctlInvall f => [f.word 3 17]
  | .cctlPref f => [f.word 3 17]
  | .cctlEvf f => [f.word 3 17]
  | .bra f => [f.word 4 0]
  | .braU f => [f.word 4 0]
  | .brx f => [f.word 4 1]
  | .call f => [f.word 4 2]
  | .callx f => [f.word 4 3]
  | .ret f => [f.word 4 4]
  | .brk f => [f.word 4 5]
  | .loop f => [f.word 4 6]
  | .loopPipe f => [f.word 4 6]
  | .rotset f => [f.word 4 7]
  | .modeCollapse f => [f.word 4 8]
  | .modeExpand f => [f.word 4 8]
  | .sync f => [f.word 4 9]
  | .exit f => [f.word 4 10]
  | .trap f => [f.word 4 11]
  | .eret f => [f.word 4 12]
  | .nop f => [f.word 4 13]
  | .yield f => [f.word 4 14]
  | .elect f => [f.word 4 15]
  | .folld f => [f.word 4 16]
  | .folfree f => [f.word 4 17]
  | .domset f => [f.word 4 18]
  | .mms f => [f.word 5 0]
  | .mmsz f => [f.word 5 1]
  | .mmsg f => [f.word 5 2]
  | .accalloc f => [f.word 5 3]
  | .accallocI f => [f.word 5 3]
  | .accfree f => [f.word 5 4]
  | .accfreeI f => [f.word 5 4]
  | .accrd f => [f.word 5 5]
  | .accwr f => [f.word 5 6]
  | .accclr f => [f.word 5 7]
  | .fmtset f => [f.word 5 8]
  | .fmtsetI f => [f.word 5 8]
  | .accadd f => [f.word 5 9]
  | .copy f => [f.word 6 0]
  | .kick f => [f.word 6 1]
  | .gather f => [f.word 6 2]
  | .scatter f => [f.word 6 3]
  | .scatterAdd f => [f.word 6 3]
  | .pfl2 f => [f.word 6 4]
  | .pfl2Tok f => [f.word 6 4]
  | .cstat f => [f.word 6 5]
  | .seedtry f => [f.word 6 32]
  | .seedscan f => [f.word 6 33]
  | .fit f => [f.word 6 34]
  | .proj f => [f.word 6 35]
  | .mgen f => [f.word 6 36]
  | .mstat f => [f.word 6 37]
  | .xlate f => [f.word 7 0]
  | .xprobe f => [f.word 7 1]
  | .xinvPage f => [f.word 7 2]
  | .xinvRange f => [f.word 7 2]
  | .xinvPasid f => [f.word 7 2]
  | .xinvAll f => [f.word 7 2]
  | .xflush f => [f.word 7 3]
  | .pclass f => [f.word 7 16]
  | .pclassI f => [f.word 7 16]
  | .opsel f => [f.word 7 17]
  | .opselI f => [f.word 7 17]
  | .grant f => [f.word 7 18]
  | .tmark f => [f.word 7 32]
  | .tmarkI f => [f.word 7 32]
  | .bkpt f => [f.word 7 33]
  | .bkptI f => [f.word 7 33]
  | .shash f => [f.word 7 34]
  | .confrd f => [f.word 7 35]
  | .rpctlOff f => [f.word 7 36]
  | .rpctlRec f => [f.word 7 36]
  | .rpctlReplay f => [f.word 7 36]
  | .rpctlQuery f => [f.word 7 36]
  | .qsub f => [f.word 7 48]
  | .getsp f => [f.word 7 49]
  | .setsp f => [f.word 7 50]
  | .resultLands _ => []
  | .interlockedResultReturn _ => []
  | .linePresent _ => []
  | .requestEntryFree _ => []
  | .writeBufferDrain _ => []
  | .promotionRequest _ => []
  | .sliceAtomic _ => []
  | .remoteScratchAccess _ => []
  | .warpReady _ => []
  | .loopBackEdge _ => []
  | .reconvergeMerge _ => []
  | .folldComplete _ => []
  | .collapseComplete _ => []
  | .expandComplete _ => []
  | .strandFaultFreeze _ => []
  | .strandSnapshotResume _ => []
  | .trapEntry _ => []
  | .asyncTrapDelivery _ => []
  | .kettleLineRise _ => []
  | .kettleRelease _ => []
  | .copyAccept _ => []
  | .kickEntryAccept _ => []
  | .copyLineMove _ => []
  | .copyGlobalReturn _ => []
  | .copyBytesLand _ => []
  | .requestError _ => []
  | .pfl2LineDone _ => []
  | .pageWaitResume _ => []
  | .mxStart _ => []
  | .mxOccupancyEnd _ => []
  | .mmsgRecordRead _ => []
  | .accallocGrant _ => []
  | .accfreeRelease _ => []
  | .accDeadlock _ => []
  | .mxResetEnd _ => []
  | .bankTransfer _ => []
  | .marbleAccept _ => []
  | .marbleStart _ => []
  | .marbleComplete _ => []
  | .candidateComplete _ => []
  | .scanDeadline _ => []
  | .qwpWrite _ _ => []
  | .qctlWrite _ _ => []
  | .qstatClear _ _ => []
  | .recordAdmit => []
  | .blockPlace _ => []
  | .blockEnd _ => []
  | .gridComplete => []
  | .preempt _ => []
  | .preemptHaltDone _ => []
  | .mxResetCmd _ => []
  | .coreResetCmd _ => []
  | .walk _ => []
  | .atsCompletion _ _ => []
  | .atsTimeout _ => []
  | .prgResponse _ _ => []
  | .pageRequestTimeout _ => []
  | .hostAtsInvalidate _ _ _ => []
  | .invalidationComplete => []
  | .hostInvPage _ => []
  | .hostInvRange _ => []
  | .hostInvPasid _ => []
  | .hostInvAll => []
  | .hostHostAccess _ _ _ => []
  | .hostCompletionError _ => []
  | .peerLoss _ => []
  | .cgrantWrite _ _ => []
  | .settleComplete _ => []
  | .governedStall _ => []
  | .slewStep => []
  | .slewGrant _ => []
  | .fillerEnd _ => []
  | .slewWrite _ _ _ _ => []
  | .hangTimeout _ => []
  | .mxhangTimeout _ => []
  | .wstatClear _ _ => []
  | .stopArmCycle _ _ => []
  | .stopArmCount _ _ => []
  | .stopDisarm _ _ => []
  | .stopResume _ => []
  | .preciseStop _ => []
  | .sample _ => []
  | .bcmClear _ => []
  | .divergedClear _ => []
  | .obsctlWrite _ _ => []
  | .headbandFlush => []
  | .headbandEnable _ => []
  | .dropCountEmit => []
  | .losslessRoom => []
  | .timeSync => []
  | .rpmodeOff _ => []
  | .rpmodeRecord _ => []
  | .rpmodeReplay _ => []
  | .rlogPartialFlush _ => []
  | .gateTimeout _ => []
  | .shashRetire _ => []
  | .pressPinAssert => []
  | .pressPinDeassert => []
  | .pressCmd => []
  | .pressReleaseCmd => []
  | .pressEdge => []
  | .pressReleaseEdge => []
  | .dramRefresh _ => []
  | .eccScrubForced _ => []
  | .powerOn _ => []
  | .warmReset _ _ => []
  | .attestGo => []
  | .attestDone => []
  | .controlRegisterWrite _ _ => []
  | .qsubRecordWritten _ => []
  | .configurationSpaceWrite _ _ _ => []
  | .powerLoss => []

/-- Is the constructor one of the 208 instructions (not an event)? -/
def Instr.isInstruction (i : Instr) : Bool := encode i != []

/-- The words of a number whose bits stand as the opcode table numbers them: the first word lowest. -/
def tableWords : Nat → Nat → List W64
  | 0, _ => []
  | n + 1, w => BitVec.ofNat 64 w :: tableWords n (w / 2 ^ 64)

/-- The instruction the decoder reads from an instruction whose bits are w: one slot word, or, above 64
bits, a bundle header with its slot words. -/
def decodeTableWord (nbits w : Nat) : Option Instr :=
  if nbits ≤ 64 then (decode (BitVec.ofNat 64 w)).toOption
  else
    match tableWords ((nbits + 63) / 64) w with
    | h :: sl => (decodeBundle h sl).toOption
    | [] => none

end Sys2Proof
end

