-- ==== Sys2Proof/Config.lean ====
section
/-! DEFINITION. What an implementation fixes and the spec leaves open: free values, each an opaque
constant applied to plain data, so that nothing can be proved about the value it has. -/

namespace Sys2Proof.Config

/-- Extra cycles of a variable-latency result beyond the first (R54, R128): free. Assumption 6. -/
opaque latency : Nat → Nat
/-- Cycles after which the write buffer delivers an entry (R170): free. Assumption 6. -/
opaque drainDelay : Nat → Nat
/-- The old or the new value of a warp's read of a pending variable-latency result (R128): free.
Assumption 7. -/
opaque raceBit : Nat → Bool
/-- The L1 line that is evicted when the L1 is full: free. Assumption 14. -/
opaque l1Victim : Nat → Nat
/-- The identity seed and what is derived from it (R440): the module identity. Assumption 11. -/
opaque identity : BitVec 256
/-- Byte i of copy A (false) or B of the module image in the flash, given the words written to the flash window (R437, R438).
Assumption 11. -/
opaque imageByte : List (Nat × W32) → Bool → Nat → Byte
/-- SHA-256 (R437). Assumption 11. -/
opaque sha256 : List Byte → List Byte
/-- Does a message's LMS signature verify under Ebler's root key, which the image carries and whose hash the boot ROM holds
(R437)? Assumption 11. -/
opaque lmsVerifies : List Byte → List Byte → Bool
/-- A word of the header registers in the n-th reset when no copy is booted (R438). Assumption 11. -/
opaque unbooted : Nat → Nat → W32
/-- Byte i of the HSS signature of the n-th report (R440, R441). Assumption 11. -/
opaque signature : Nat → Nat → Byte
/-- Ticks a report takes to sign (R441). Assumption 6. -/
opaque signDelay : Nat → Nat
/-- A byte of memory after a reset that left the contents unspecified (R435, R442), by reset number
and address. Assumption 20. -/
opaque lostByte : Nat → Nat → Byte
/-- Does the spine's peer route table, which comes from the booted copy, hold a route to a peer (R373, R439)? Assumption 11. -/
opaque peerRouted : List (Nat × W32) → Bool → Nat → Bool
/-- Does a walk cache still hold an entry that it has read before (R353)? Free. Assumption 14. -/
opaque walkHeld : Nat → Bool
/-- The translation that leaves a full TLB (R354): free. Assumption 14. -/
opaque tlbVictim : Nat → Nat
/-- Ticks until a walk is made, after a miss (R353): free. Assumption 6. -/
opaque walkDelay : Nat → Nat
/-- Propagation delay of kettle line l in ticks (R164): free below the bound of R21. Assumption 6. -/
opaque kettleDelay : Nat → Nat
/-- When a core learns that a line has risen (R164): free within the propagation delay. Assumption 6. -/
opaque kettleLearn : Nat → Nat → Nat
/-- A word of a register or port of a cluster that the reading strand does not own (R30, R36, R147): free. Assumption 105. -/
opaque heldWord : Nat → W32
/-- The outstanding page requests that the host allows the device (R366): free, at most its capacity of 512. Assumption 114. -/
opaque pageRequests : Nat
/-- The line of a folio image whose read meets an error of the host or of the links (R371, R374): free. Assumption 79. -/
opaque lostLine : Nat → Nat
/-- Which of two requests' bytes the engine moves next (R214): free. Assumption 12. -/
opaque copyPick : Nat → Nat
/-- The word that bits of a result hold where the spec states the effect and not the value.
Assumption 21. -/
opaque freeWord : Nat → W32
/-- Is a capture unit attached to the headband at the link training of the n-th reset (R453)? Assumption 42. -/
opaque captureAttached : Nat → Bool
/-- The helper data, the SRAM pattern and the flash let the ROM advance the leaf counter in the n-th power-on
(R440). Assumption 11. -/
opaque leafAdvances : Nat → Bool

end Sys2Proof.Config
end

