-- ==== Sys2Proof/Machine/Cost.lean ====
section
/-! DEFINITION. The exposed latency, the timing class and the energy weight of every instruction (R54,
R392), from its fields. -/

namespace Sys2Proof.Machine

/-- What an operation costs: latency in cycles (0: variable or none), class (0 A to 3 D), weight per
cluster, charged in every processing cycle or only at issue, and weight of a lane slot. A unit without
clusters charges at issue once. -/
structure Cost where
  lat : Nat
  cls : Nat
  weight : Nat
  each : Bool
  lane : Nat
  clustered : Bool
deriving DecidableEq, Repr

/-- IU operations by latency (R54, R392). -/
def iuCost (lat : Nat) : Cost :=
  if lat = 20 then ⟨20, 2, 6, true, 1, true⟩
  else if lat = 2 then ⟨2, 0, 1, true, 1, true⟩ else ⟨lat, 0, 2, true, 1, true⟩

/-- FU operations: class A formats, or with a 64-bit operand or result (R54, R392); an FP64 FFMA or FNMA holds its
lanes' units for 4 cycles (R10; assumption 115). -/
def fuCost (wide : Bool) : Cost :=
  if wide then ⟨8, 1, 6, true, 1, true⟩ else ⟨4, 0, 2, true, 1, true⟩

/-- SF operations (R54, R392). -/
def sfCost (lat cls w : Nat) : Cost := ⟨lat, cls, w, false, w, true⟩

/-- LS operations by space (R54, R392). -/
def lsCost (lat : Nat) (space : BitVec 2) : Cost :=
  let w := if space == 0 then 5 else 3
  ⟨if space == 0 then 0 else lat, 0, w, false, w, true⟩

/-- SQ, MX, AE and SY operations (R54, R392). -/
def oneCost (lat cls : Nat) : Cost := ⟨lat, cls, 1, false, 1, false⟩

/-- The cost of an instruction; an event costs nothing. -/
def costOf (i : Instr) : Cost :=
  match i with
  | .mov f => if f.scl == 0 then ⟨1, 0, 1, false, 1, true⟩ else ⟨2, 0, 2, false, 2, true⟩
  | .bundle _ _ => ⟨0, 0, 0, false, 0, false⟩
  | .iadd _ => iuCost 2
  | .iaddI _ => iuCost 2
  | .isub _ => iuCost 2
  | .isubI _ => iuCost 2
  | .imul _ => iuCost 4
  | .imulI _ => iuCost 4
  | .imulh f => iuCost (if f.mod.toNat ≥ 6 then 20 else 4)
  | .imulhI f => iuCost (if f.mod.toNat ≥ 6 then 20 else 4)
  | .imad _ => iuCost 4
  | .idiv _ => iuCost 20
  | .idivI _ => iuCost 20
  | .irem _ => iuCost 20
  | .iremI _ => iuCost 20
  | .imin _ => iuCost 2
  | .iminI _ => iuCost 2
  | .imax _ => iuCost 2
  | .imaxI _ => iuCost 2
  | .iabs _ => iuCost 2
  | .ineg _ => iuCost 2
  | .iadds _ => iuCost 2
  | .iaddsI _ => iuCost 2
  | .isad _ => iuCost 4
  | .idot4 _ => iuCost 4
  | .and _ => iuCost 2
  | .andI _ => iuCost 2
  | .or _ => iuCost 2
  | .orI _ => iuCost 2
  | .xor _ => iuCost 2
  | .xorI _ => iuCost 2
  | .andn _ => iuCost 2
  | .andnI _ => iuCost 2
  | .not _ => iuCost 2
  | .shl _ => iuCost 2
  | .shlI _ => iuCost 2
  | .shr _ => iuCost 2
  | .shrI _ => iuCost 2
  | .sar _ => iuCost 2
  | .sarI _ => iuCost 2
  | .rotl _ => iuCost 2
  | .rotlI _ => iuCost 2
  | .funnel _ => iuCost 2
  | .bfx _ => iuCost 2
  | .bfi _ => iuCost 2
  | .popc _ => iuCost 2
  | .clz _ => iuCost 2
  | .ctz _ => iuCost 2
  | .brev _ => iuCost 2
  | .bshuf _ => iuCost 2
  | .lea _ => iuCost 2
  | .leaI _ => iuCost 2
  | .icmp _ => iuCost 2
  | .icmpI _ => iuCost 2
  | .isel _ => iuCost 2
  | .plop _ => iuCost 2
  | .movh _ => iuCost 2
  | .movhI _ => iuCost 2
  | .movi _ => iuCost 2
  | .vote _ => iuCost 4
  | .rdlane _ => iuCost 4
  | .rdlaneI _ => iuCost 4
  | .find1 _ => iuCost 4
  | .cvti _ => iuCost 2
  | .iredw _ => iuCost 8
  | .clamp _ => iuCost 2
  | .fadd f => fuCost (f.mod == 3)
  | .faddI f => fuCost (f.mod == 3)
  | .fsub f => fuCost (f.mod == 3)
  | .fsubI f => fuCost (f.mod == 3)
  | .fmul f => fuCost (f.mod == 3)
  | .fmulI f => fuCost (f.mod == 3)
  | .ffma f => fuCost (f.mod == 3)
  | .fnma f => fuCost (f.mod == 3)
  | .fmin f => fuCost (f.mod == 3)
  | .fminI f => fuCost (f.mod == 3)
  | .fmax f => fuCost (f.mod == 3)
  | .fmaxI f => fuCost (f.mod == 3)
  | .fabs f => fuCost (f.mod == 3)
  | .fneg f => fuCost (f.mod == 3)
  | .fcmp f => fuCost (f.mod == 3)
  | .fcmpI f => fuCost (f.mod == 3)
  | .fclass f => fuCost (f.mod == 3)
  | .frint f => fuCost (f.mod == 3)
  | .fcvt f => fuCost (f.mod == 3 || f.b == 3)
  | .f2i f => fuCost (f.mod == 3 || 6 ≤ f.b.toNat)
  | .i2f f => fuCost (f.mod == 3 || 6 ≤ f.b.toNat)
  | .fdot2 f => fuCost (f.mod == 3)
  | .fredw f => if f.mod == 3 then ⟨40, 1, 6, true, 1, true⟩ else ⟨20, 0, 2, true, 1, true⟩
  | .fsetmode _ => ⟨2, 0, 2, true, 1, true⟩
  | .fgetmode _ => ⟨2, 0, 2, true, 1, true⟩
  | .fflags _ => ⟨2, 0, 2, true, 1, true⟩
  | .fflagsClr _ => ⟨2, 0, 2, true, 1, true⟩
  | .fscale f => fuCost (f.mod == 3)
  | .fscaleI f => fuCost (f.mod == 3)
  | .rcp _ => sfCost 12 2 4
  | .rsq _ => sfCost 12 2 4
  | .sqrt _ => sfCost 12 2 4
  | .ex2 _ => sfCost 12 2 4
  | .lg2 _ => sfCost 12 2 4
  | .sinpi _ => sfCost 16 2 4
  | .cospi _ => sfCost 16 2 4
  | .tanh _ => sfCost 16 2 4
  | .sigm _ => sfCost 16 2 4
  | .fdiv _ => sfCost 24 3 8
  | .ld f => lsCost 12 f.space
  | .ldI f => lsCost 12 f.space
  | .st f => lsCost 12 f.space
  | .stI f => lsCost 12 f.space
  | .ldw f => lsCost 0 f.space
  | .ldwI f => lsCost 0 f.space
  | .ldAcq f => lsCost 0 f.space
  | .ldAcqI f => lsCost 0 f.space
  | .stRel f => lsCost 12 f.space
  | .stRelI f => lsCost 12 f.space
  | .atom f => lsCost 0 f.space
  | .cas f => lsCost 0 f.space
  | .red f => lsCost 0 f.space
  | .atomX f => lsCost 0 f.space
  | .casX f => lsCost 0 f.space
  | .fenceFull f => ⟨2, 0, (lsCost 2 f.space).weight, false, (lsCost 2 f.space).weight, true⟩
  | .fenceAcq f => ⟨2, 0, (lsCost 2 f.space).weight, false, (lsCost 2 f.space).weight, true⟩
  | .fenceRel f => ⟨2, 0, (lsCost 2 f.space).weight, false, (lsCost 2 f.space).weight, true⟩
  | .fenceEng f => ⟨2, 0, (lsCost 2 f.space).weight, false, (lsCost 2 f.space).weight, true⟩
  | .ldRacq f => lsCost 0 f.space
  | .arrive f => ⟨2, 0, (lsCost 2 f.space).weight, false, (lsCost 2 f.space).weight, true⟩
  | .waitph _ => ⟨12, 0, 3, false, 3, true⟩
  | .tryph _ => ⟨12, 0, 3, false, 3, true⟩
  | .barinit f => ⟨2, 0, (lsCost 2 f.space).weight, false, (lsCost 2 f.space).weight, true⟩
  | .pres f => ⟨2, 0, (lsCost 2 f.space).weight, false, (lsCost 2 f.space).weight, true⟩
  | .cctlInvl f => ⟨2, 0, (lsCost 2 f.space).weight, false, (lsCost 2 f.space).weight, true⟩
  | .cctlInvall f => ⟨2, 0, (lsCost 2 f.space).weight, false, (lsCost 2 f.space).weight, true⟩
  | .cctlPref f => ⟨2, 0, (lsCost 2 f.space).weight, false, (lsCost 2 f.space).weight, true⟩
  | .cctlEvf f => ⟨2, 0, (lsCost 2 f.space).weight, false, (lsCost 2 f.space).weight, true⟩
  | .bra _ => oneCost 0 0
  | .braU _ => oneCost 0 0
  | .brx _ => oneCost 0 0
  | .call _ => oneCost 0 0
  | .callx _ => oneCost 0 0
  | .ret _ => oneCost 0 0
  | .brk _ => oneCost 0 0
  | .loop _ => oneCost 0 0
  | .loopPipe _ => oneCost 0 0
  | .rotset _ => oneCost 0 0
  | .modeCollapse _ => oneCost 0 0
  | .modeExpand _ => oneCost 0 0
  | .sync _ => oneCost 0 0
  | .exit _ => oneCost 0 0
  | .trap _ => oneCost 0 0
  | .eret _ => oneCost 0 0
  | .nop _ => oneCost 0 0
  | .yield _ => oneCost 0 0
  | .elect _ => oneCost 0 0
  | .folld _ => oneCost 0 0
  | .folfree _ => oneCost 0 0
  | .domset _ => oneCost 0 0
  | .mms _ => oneCost 0 0
  | .mmsz _ => oneCost 0 0
  | .mmsg _ => oneCost 0 1
  | .accalloc _ => oneCost 0 0
  | .accallocI _ => oneCost 0 0
  | .accfree _ => oneCost 4 0
  | .accfreeI _ => oneCost 4 0
  | .accrd _ => oneCost 0 0
  | .accwr _ => oneCost 0 0
  | .accclr _ => oneCost 0 0
  | .fmtset _ => oneCost 0 0
  | .fmtsetI _ => oneCost 0 0
  | .accadd _ => oneCost 0 0
  | .copy _ => oneCost 2 0
  | .kick _ => oneCost 2 0
  | .gather _ => oneCost 2 0
  | .scatter _ => oneCost 2 0
  | .scatterAdd _ => oneCost 2 0
  | .pfl2 _ => oneCost 2 0
  | .pfl2Tok _ => oneCost 2 0
  | .cstat _ => oneCost 2 0
  | .seedtry _ => oneCost 2 0
  | .seedscan _ => oneCost 2 0
  | .fit _ => oneCost 2 0
  | .proj _ => oneCost 2 0
  | .mgen _ => oneCost 2 0
  | .mstat _ => oneCost 2 0
  | .xlate _ => oneCost 0 0
  | .xprobe _ => oneCost 2 0
  | .xinvPage _ => oneCost 0 0
  | .xinvRange _ => oneCost 0 0
  | .xinvPasid _ => oneCost 0 0
  | .xinvAll _ => oneCost 0 0
  | .xflush _ => oneCost 0 0
  | .pclass _ => oneCost 2 0
  | .pclassI _ => oneCost 2 0
  | .opsel _ => oneCost 2 0
  | .opselI _ => oneCost 2 0
  | .grant _ => oneCost 0 0
  | .tmark _ => oneCost 2 0
  | .tmarkI _ => oneCost 2 0
  | .bkpt _ => oneCost 2 0
  | .bkptI _ => oneCost 2 0
  | .shash _ => oneCost 0 0
  | .confrd _ => oneCost 2 0
  | .rpctlOff _ => oneCost 0 0
  | .rpctlRec _ => oneCost 0 0
  | .rpctlReplay _ => oneCost 0 0
  | .rpctlQuery _ => oneCost 0 0
  | .qsub _ => oneCost 2 0
  | .getsp _ => oneCost 2 0
  | .setsp _ => oneCost 2 0
  | .resultLands _ => ⟨0, 0, 0, false, 0, false⟩
  | .interlockedResultReturn _ => ⟨0, 0, 0, false, 0, false⟩
  | .linePresent _ => ⟨0, 0, 0, false, 0, false⟩
  | .requestEntryFree _ => ⟨0, 0, 0, false, 0, false⟩
  | .writeBufferDrain _ => ⟨0, 0, 0, false, 0, false⟩
  | .promotionRequest _ => ⟨0, 0, 0, false, 0, false⟩
  | .sliceAtomic _ => ⟨0, 0, 0, false, 0, false⟩
  | .remoteScratchAccess _ => ⟨0, 0, 0, false, 0, false⟩
  | .warpReady _ => ⟨0, 0, 0, false, 0, false⟩
  | .loopBackEdge _ => ⟨0, 0, 0, false, 0, false⟩
  | .reconvergeMerge _ => ⟨0, 0, 0, false, 0, false⟩
  | .folldComplete _ => ⟨0, 0, 0, false, 0, false⟩
  | .collapseComplete _ => ⟨0, 0, 0, false, 0, false⟩
  | .expandComplete _ => ⟨0, 0, 0, false, 0, false⟩
  | .strandFaultFreeze _ => ⟨0, 0, 0, false, 0, false⟩
  | .strandSnapshotResume _ => ⟨0, 0, 0, false, 0, false⟩
  | .trapEntry _ => ⟨0, 0, 0, false, 0, false⟩
  | .asyncTrapDelivery _ => ⟨0, 0, 0, false, 0, false⟩
  | .kettleLineRise _ => ⟨0, 0, 0, false, 0, false⟩
  | .kettleRelease _ => ⟨0, 0, 0, false, 0, false⟩
  | .copyAccept _ => ⟨0, 0, 0, false, 0, false⟩
  | .kickEntryAccept _ => ⟨0, 0, 0, false, 0, false⟩
  | .copyLineMove _ => ⟨0, 0, 0, false, 0, false⟩
  | .copyGlobalReturn _ => ⟨0, 0, 0, false, 0, false⟩
  | .copyBytesLand _ => ⟨0, 0, 0, false, 0, false⟩
  | .requestError _ => ⟨0, 0, 0, false, 0, false⟩
  | .pfl2LineDone _ => ⟨0, 0, 0, false, 0, false⟩
  | .pageWaitResume _ => ⟨0, 0, 0, false, 0, false⟩
  | .mxStart _ => ⟨0, 0, 0, false, 0, false⟩
  | .mxOccupancyEnd _ => ⟨0, 0, 0, false, 0, false⟩
  | .mmsgRecordRead _ => ⟨0, 0, 0, false, 0, false⟩
  | .accallocGrant _ => ⟨0, 0, 0, false, 0, false⟩
  | .accfreeRelease _ => ⟨0, 0, 0, false, 0, false⟩
  | .accDeadlock _ => ⟨0, 0, 0, false, 0, false⟩
  | .mxResetEnd _ => ⟨0, 0, 0, false, 0, false⟩
  | .bankTransfer _ => ⟨0, 0, 0, false, 0, false⟩
  | .marbleAccept _ => ⟨0, 0, 0, false, 0, false⟩
  | .marbleStart _ => ⟨0, 0, 0, false, 0, false⟩
  | .marbleComplete _ => ⟨0, 0, 0, false, 0, false⟩
  | .candidateComplete _ => ⟨0, 0, 0, false, 0, false⟩
  | .scanDeadline _ => ⟨0, 0, 0, false, 0, false⟩
  | .qwpWrite _ _ => ⟨0, 0, 0, false, 0, false⟩
  | .qctlWrite _ _ => ⟨0, 0, 0, false, 0, false⟩
  | .qstatClear _ _ => ⟨0, 0, 0, false, 0, false⟩
  | .recordAdmit => ⟨0, 0, 0, false, 0, false⟩
  | .blockPlace _ => ⟨0, 0, 0, false, 0, false⟩
  | .blockEnd _ => ⟨0, 0, 0, false, 0, false⟩
  | .gridComplete => ⟨0, 0, 0, false, 0, false⟩
  | .preempt _ => ⟨0, 0, 0, false, 0, false⟩
  | .preemptHaltDone _ => ⟨0, 0, 0, false, 0, false⟩
  | .mxResetCmd _ => ⟨0, 0, 0, false, 0, false⟩
  | .coreResetCmd _ => ⟨0, 0, 0, false, 0, false⟩
  | .walk _ => ⟨0, 0, 0, false, 0, false⟩
  | .atsCompletion _ _ => ⟨0, 0, 0, false, 0, false⟩
  | .atsTimeout _ => ⟨0, 0, 0, false, 0, false⟩
  | .prgResponse _ _ => ⟨0, 0, 0, false, 0, false⟩
  | .pageRequestTimeout _ => ⟨0, 0, 0, false, 0, false⟩
  | .hostAtsInvalidate _ _ _ => ⟨0, 0, 0, false, 0, false⟩
  | .invalidationComplete => ⟨0, 0, 0, false, 0, false⟩
  | .hostInvPage _ => ⟨0, 0, 0, false, 0, false⟩
  | .hostInvRange _ => ⟨0, 0, 0, false, 0, false⟩
  | .hostInvPasid _ => ⟨0, 0, 0, false, 0, false⟩
  | .hostInvAll => ⟨0, 0, 0, false, 0, false⟩
  | .hostHostAccess _ _ _ => ⟨0, 0, 0, false, 0, false⟩
  | .hostCompletionError _ => ⟨0, 0, 0, false, 0, false⟩
  | .peerLoss _ => ⟨0, 0, 0, false, 0, false⟩
  | .cgrantWrite _ _ => ⟨0, 0, 0, false, 0, false⟩
  | .settleComplete _ => ⟨0, 0, 0, false, 0, false⟩
  | .governedStall _ => ⟨0, 0, 0, false, 0, false⟩
  | .slewStep => ⟨0, 0, 0, false, 0, false⟩
  | .slewGrant _ => ⟨0, 0, 0, false, 0, false⟩
  | .fillerEnd _ => ⟨0, 0, 0, false, 0, false⟩
  | .slewWrite _ _ _ _ => ⟨0, 0, 0, false, 0, false⟩
  | .hangTimeout _ => ⟨0, 0, 0, false, 0, false⟩
  | .mxhangTimeout _ => ⟨0, 0, 0, false, 0, false⟩
  | .wstatClear _ _ => ⟨0, 0, 0, false, 0, false⟩
  | .stopArmCycle _ _ => ⟨0, 0, 0, false, 0, false⟩
  | .stopArmCount _ _ => ⟨0, 0, 0, false, 0, false⟩
  | .stopDisarm _ _ => ⟨0, 0, 0, false, 0, false⟩
  | .stopResume _ => ⟨0, 0, 0, false, 0, false⟩
  | .preciseStop _ => ⟨0, 0, 0, false, 0, false⟩
  | .sample _ => ⟨0, 0, 0, false, 0, false⟩
  | .bcmClear _ => ⟨0, 0, 0, false, 0, false⟩
  | .divergedClear _ => ⟨0, 0, 0, false, 0, false⟩
  | .obsctlWrite _ _ => ⟨0, 0, 0, false, 0, false⟩
  | .headbandFlush => ⟨0, 0, 0, false, 0, false⟩
  | .headbandEnable _ => ⟨0, 0, 0, false, 0, false⟩
  | .dropCountEmit => ⟨0, 0, 0, false, 0, false⟩
  | .losslessRoom => ⟨0, 0, 0, false, 0, false⟩
  | .timeSync => ⟨0, 0, 0, false, 0, false⟩
  | .rpmodeOff _ => ⟨0, 0, 0, false, 0, false⟩
  | .rpmodeRecord _ => ⟨0, 0, 0, false, 0, false⟩
  | .rpmodeReplay _ => ⟨0, 0, 0, false, 0, false⟩
  | .rlogPartialFlush _ => ⟨0, 0, 0, false, 0, false⟩
  | .gateTimeout _ => ⟨0, 0, 0, false, 0, false⟩
  | .shashRetire _ => ⟨0, 0, 0, false, 0, false⟩
  | .pressPinAssert => ⟨0, 0, 0, false, 0, false⟩
  | .pressPinDeassert => ⟨0, 0, 0, false, 0, false⟩
  | .pressCmd => ⟨0, 0, 0, false, 0, false⟩
  | .pressReleaseCmd => ⟨0, 0, 0, false, 0, false⟩
  | .pressEdge => ⟨0, 0, 0, false, 0, false⟩
  | .pressReleaseEdge => ⟨0, 0, 0, false, 0, false⟩
  | .dramRefresh _ => ⟨0, 0, 0, false, 0, false⟩
  | .eccScrubForced _ => ⟨0, 0, 0, false, 0, false⟩
  | .powerOn _ => ⟨0, 0, 0, false, 0, false⟩
  | .warmReset _ _ => ⟨0, 0, 0, false, 0, false⟩
  | .attestGo => ⟨0, 0, 0, false, 0, false⟩
  | .attestDone => ⟨0, 0, 0, false, 0, false⟩
  | .controlRegisterWrite _ _ => ⟨0, 0, 0, false, 0, false⟩
  | .qsubRecordWritten _ => ⟨0, 0, 0, false, 0, false⟩
  | .configurationSpaceWrite _ _ _ => ⟨0, 0, 0, false, 0, false⟩
  | .powerLoss => ⟨0, 0, 0, false, 0, false⟩

end Sys2Proof.Machine
end

