-- ==== Sys2Proof/Machine/Maps.lean ====
section
/-! DEFINITION. Sparse maps as plain data: a list of key and value pairs with strictly rising keys in which
no entry equals what an unlisted key reads as. Memory, registers and control registers are held so. -/

namespace Sys2Proof.Machine

/-- A sparse map from numbers to α. -/
abbrev SMap (α : Type) := List (Nat × α)

/-- The entry of key k, or d when none is listed. -/
def SMap.get {α : Type} (d : α) : SMap α → Nat → α
  | [], _ => d
  | (j, x) :: m, k => if j = k then x else SMap.get d m k

/-- Write x at key k, keeping the canonical form: rising keys, and no entry equal to d. -/
def SMap.set {α : Type} [DecidableEq α] (d : α) : SMap α → Nat → α → SMap α
  | [], k, x => if x = d then [] else [(k, x)]
  | (j, y) :: m, k, x =>
    if k < j then (if x = d then (j, y) :: m else (k, x) :: (j, y) :: m)
    else if k = j then (if x = d then m else (k, x) :: m)
    else (j, y) :: SMap.set d m k x

/-- The keys rise strictly from above lo. -/
def SMap.rising {α : Type} : Nat → SMap α → Bool
  | _, [] => true
  | lo, (j, _) :: m => decide (lo ≤ j) && SMap.rising (j + 1) m

/-- The canonical form: keys rise strictly and no entry equals the default. -/
def SMap.wf {α : Type} [DecidableEq α] (d : α) (m : SMap α) : Bool :=
  SMap.rising 0 m && m.all (fun p => decide (p.2 ≠ d))

/-- Write a list of values at consecutive keys from k. -/
def SMap.setMany {α : Type} [DecidableEq α] (d : α) (m : SMap α) (k : Nat) : List α → SMap α
  | [] => m
  | x :: xs => SMap.setMany d (SMap.set d m k x) (k + 1) xs

/-- The n values at consecutive keys from k. -/
def SMap.getMany {α : Type} (d : α) (m : SMap α) (k n : Nat) : List α :=
  (List.range n).map (fun i => SMap.get d m (k + i))

/-- Remove every entry whose key lies in [k, k + n). -/
def SMap.clear {α : Type} (m : SMap α) (k n : Nat) : SMap α :=
  m.filter (fun p => p.1 < k || k + n ≤ p.1)

/-- The entries whose keys lie in [k, k + n), with their keys lowered by k. -/
def SMap.slice {α : Type} (m : SMap α) (k n : Nat) : SMap α :=
  (m.filter (fun p => k ≤ p.1 && p.1 < k + n)).map (fun p => (p.1 - k, p.2))

/-- A keyed collection of records, kept in rising key order; an unlisted key has no record. -/
abbrev KMap (α : Type) := List (Nat × α)

/-- The record of key k. -/
def KMap.find? {α : Type} : KMap α → Nat → Option α
  | [], _ => none
  | (j, x) :: m, k => if j = k then some x else KMap.find? m k

/-- Insert or replace the record of key k. -/
def KMap.put {α : Type} : KMap α → Nat → α → KMap α
  | [], k, x => [(k, x)]
  | (j, y) :: m, k, x =>
    if k < j then (k, x) :: (j, y) :: m
    else if k = j then (k, x) :: m
    else (j, y) :: KMap.put m k x

/-- Remove the record of key k. -/
def KMap.del {α : Type} (m : KMap α) (k : Nat) : KMap α := m.filter (fun p => p.1 ≠ k)

/-- The smallest number below n (counting up from k) for which p holds. -/
def firstBelow (p : Nat → Bool) : Nat → Nat → Option Nat
  | 0, _ => none
  | n + 1, k => if p k then some k else firstBelow p n (k + 1)

/-- The bytes of a number, lowest first (R1). -/
def natBytes : Nat → Nat → List Byte
  | 0, _ => []
  | n + 1, v => BitVec.ofNat 8 v :: natBytes n (v / 256)

/-- The number of little-endian bytes (R1). -/
def bytesNat : List Byte → Nat
  | [] => 0
  | b :: l => b.toNat + 256 * bytesNat l


/-- The lanes of a mask, in ascending order. -/
def lanesOf (m : W32) : List Nat := (List.range 32).filter (fun i => m.getLsbD i)

/-- The lowest lane of a mask. -/
def lowest (m : W32) : Option Nat := firstBelow (fun i => m.getLsbD i) 32 0

/-- The mask of one lane. -/
def bit (i : Nat) : W32 := BitVec.ofNat 32 (2 ^ i)

/-- The mask of the lanes for which p holds. -/
def maskOf (p : Nat → Bool) : W32 :=
  (List.range 32).foldl (fun acc i => if p i then acc ||| bit i else acc) 0

end Sys2Proof.Machine
end

