-- ==== Sys2Proof/Machine/State.lean ====
section
/-! DEFINITION. The state of the module as plain data: everything the spec gives the machine, held by core,
by block, by warp, by engine and for the module as a whole, and the state after reset. -/

namespace Sys2Proof.Machine

/-! ## Reasons to stop -/

/-- Why a step stops with a fault. -/
inductive Fault where
  /-- Raised by the meaning of an instruction in a state that selects no live path of any core: there is
  no warp, strand or bundle slot for it to act for. step never meets it, since it selects a path before it
  runs an instruction. Safe. -/
  | noIssuer
  /-- Raised by BUNDLE in a state whose selected core holds no running strand. step never meets it. Safe. -/
  | noStrand
deriving DecidableEq, Repr

/-- Why a step is refused. -/
inductive Refusal where
  /-- Raised by the dispatcher for an instruction without a meaning, by its mnemonic. Safe. -/
  | notModelled (mnemonic : String)
deriving DecidableEq, Repr

/-! ## Warps and strands -/

/-- Why a path is parked (R126, R57): it does not issue until the reason clears. -/
inductive Park where
  /-- a SYNC waits, as at a switch marker, for every outstanding result to land (R163) -/
  | switch
  /-- FFLAGS or SETSP of the flags waits for the warp's FU and SF results (R97) -/
  | flags
  /-- a TLB miss is being walked (R355) -/
  | translate
  /-- an absent scratchpad line (R169) -/
  | presence
  /-- this many free outstanding-request entries (R180) -/
  | requests (need : Nat)
  /-- WAITPH: object of block rix at offset off, waiting for a phase other than tok (R191) -/
  | phase (core rix off : Nat) (tok : Bool)
  /-- an MX instruction waits for the engine (R269) -/
  | mx
  /-- ACCALLOC waits for its grant (R261) -/
  | banks
  /-- ACCFREE waits for earlier users of the banks (R262) -/
  | accfree
  /-- an engine request waits for acceptance (R226, R297) -/
  | engine
  /-- KICK waits for the pending list (R230) -/
  | kick
  /-- PFL2.TOK waits for a free token (R232) -/
  | token
  /-- FOLLD is loading (R120) -/
  | folld
  /-- SYNC of a level is pending (R163) -/
  | sync (level : Nat)
  /-- MODE.COLLAPSE waits for its clusters (R146): their number, the strand's entry -/
  | collapse (clusters : Nat) (entry : W32)
  /-- the 4 cycles of a MODE transition, or a strand that is expanding (R146, R148) -/
  | mode (cycles : Nat)
  /-- NOP n: cycles left (R125) -/
  | nop (cycles : Nat)
  /-- a fence, a release or an access that must follow others waits until the warp's accesses numbered
  below seq are performed, with drain also until the core's write buffer has delivered them (R186, R205) -/
  | fence (seq : Nat) (drain : Bool)
  /-- an access to an SC page waits for its own completion (R203) -/
  | sc (seq : Nat)
  /-- an access waits until the accesses of its core, numbered before it, that touch its bytes and are still to be performed at
  their homes have been performed (R199 to R201) -/
  | home
  /-- FENCE.ENG waits for the path's engine requests (R211) -/
  | engines
  /-- LD.RACQ waits for the promoted core (R183) -/
  | racq
  /-- XINV or XFLUSH waits for its sweep (R362) -/
  | inval
  /-- SHASH waits for its writes and its record (R429) -/
  | shash
  /-- DOMSET waits until no SYNC of the core is waiting (R125) -/
  | domset
  /-- a fetch from a folio slot that is being loaded (R120) -/
  | fetch
  /-- a trap waits for the warp's results (R159): cause, %trappc offset, lanes -/
  | trap (cause : BitVec 8) (pc : W32) (lanes : W32)
  /-- ERET waits for the handler's results (R161) -/
  | eret
  /-- a strand slot reads an interlocked destination (R151) -/
  | interlock
  /-- MMSG waits for its record (R293) -/
  | record
  /-- EXIT of a warp whose accesses are still to be performed (R139) -/
  | exit
  /-- a bundle waits for room in the strand's snapshot (R421) -/
  | capacity
  /-- a strand's FP64 FMA waits for its lanes' float units (R10) -/
  | fma
deriving DecidableEq, Repr

/-- What an in-flight result writes (R421, KIND). -/
inductive Dest where
  | v
  | w
  | pred
  | port
  | flags
  /-- the flags of its lanes are cleared (R97) -/
  | flagsClear
  /-- the copy STATUS of its block is cleared, or the marbling STATUS (R233, R314) -/
  | copyClear
  | marbleClear
  /-- the banks of an ACCFREE, regs, become free in its block (R262) -/
  | accFree
deriving DecidableEq, Repr

/-- An in-flight result (R128, R421): it lands when rem is 0 and no lane value is outstanding. -/
structure Result where
  /-- issue cycles left -/
  rem : Nat
  /-- result of a variable-latency operation (R151) -/
  lock : Bool
  /-- unit whose bypass port it sets: 0 IU, 1 FU, 2 SF, 3 LS, 4 the translation port b4, 7 others (R36) -/
  unit : Nat
  dest : Dest
  /-- registers written, after rotation; a predicate or port number; the logical banks of an ACCFREE; none for flags -/
  regs : List Nat
  lanes : W32
  /-- a word for each register in each lane of lanes, lanes ascending; one word for each w register; one
  mask for a predicate -/
  vals : List W32
  /-- lane values not yet returned by a slice or a remote core -/
  due : Nat
  /-- outstanding-request entries held (R180) -/
  lines : Nat
  /-- identity, for values that arrive later -/
  id : Nat
  /-- lanes whose value came from host memory, and from a peer, with their addresses and bytes (R371, R374) -/
  host : List (Nat × Nat × Nat)
  peer : List (Nat × Nat × Nat)
deriving DecidableEq, Repr

/-- What an instruction that waits has read at its issue (R41, R57, R128): registers, predicates, the rotation, the results
in flight then, and the count behind free values; of a bundle whose slots have issued in part, the strand's ports and the
translation port too, and how many of its slots have issued. -/
structure Seen where
  v : SMap W32
  w : SMap W32
  q : SMap W32
  rotbase : W32
  results : List Result
  nonce : Nat
  ports : SMap W32
  bypass : SMap W32
  xport : W32
  done : Nat
deriving DecidableEq, Repr

/-- A path of a warp: a PC slot and the threads it carries (R126). -/
structure Path where
  live : Bool
  /-- code offset of the next instruction (R116) -/
  pc : W32
  mask : W32
  /-- the logical folio slot that holds the instruction before, when fetch follows it in sequence (R122) -/
  home : Option Nat
  park : Option Park
  /-- TAIL of the parked instruction, applied when it completes (R45) -/
  ptail : BitVec 2
  /-- YIELD: last in the selection order for the next issue (R125) -/
  yielded : Bool
  /-- waits of the instruction at pc that have been satisfied -/
  granted : List Park
  /-- cycles since the instruction at pc became the path's next one (R416) -/
  age : Nat
  /-- walks for this instruction that ended in a fault: 4 KiB page and reason (R352, R354) -/
  faults : List (Nat × Nat)
  /-- what the instruction at pc has read, when it waits after its issue -/
  held : Option Seen
deriving DecidableEq, Repr

/-- A dead path slot. -/
def Path.none : Path := ⟨false, 0, 0, .none, .none, 0, false, [], 0, [], .none⟩

/-- A divergence record (R130, R140); DMASK 0 = no deferred path. -/
structure DivRec where
  r : W32
  m : W32
  dpc : W32
  dmask : W32
deriving DecidableEq, Repr

/-- A loop entry (R142), with the body length B in words, which the end test needs. -/
structure LoopEntry where
  q : W32
  e : Nat
  /-- executions still to start, N - K -/
  k : Nat
  pipe : Bool
  len : Nat
deriving DecidableEq, Repr

/-- Asynchronous causes (R56, rank 4). -/
inductive Async where
  | mxReset
  | accDeadlock
  | replayDiverge
deriving DecidableEq, Repr

/-- What a warp keeps aside while it runs its trap handler (R159, R161). -/
structure Handler where
  /-- the program's paths -/
  pri : Path
  alt : Path
  /-- the primary slot trapped -/
  onPri : Bool
  recs : List DivRec
  loops : List LoopEntry
  mask : W32
  priv : Bool
  /-- the strand trapped: its in-flight results, captured by snapshot (R156) -/
  strand : Bool
  snap : List Result
  cause : BitVec 8
  /-- %trappc as set at entry -/
  pc : W32
  /-- %rotbase of a strand, captured by snapshot (R156) -/
  rotbase : W32
  /-- threads that had exited at entry -/
  gone : W32
deriving DecidableEq, Repr

/-- Kinds of LS access (R176). -/
inductive AccKind where
  | load
  | store
  | atom (op : Nat)
  | red (op : Nat)
  | cas
deriving DecidableEq, Repr

/-- One lane's part of an LS access, with its sources as read at issue (R41, R179). -/
structure LaneAcc where
  lane : Nat
  ea : Nat
  data : List W32
  cmp : List W32
deriving DecidableEq, Repr

/-- One LS instruction's access (R179). -/
structure Access where
  kind : AccKind
  space : Nat
  scope : Nat
  n : Nat
  acq : Bool
  rel : Bool
  hint : Nat
  /-- identity of the access and of its result -/
  id : Nat
  lanes : List LaneAcc
deriving DecidableEq, Repr

/-- A write that waits to enter a thread's running CRC in program order (R428): lane, the identity of the
atomic that has still to be performed, and the bytes once they are known. -/
structure HashEntry where
  lane : Nat
  id : Nat
  bytes : Option (List Byte)
deriving DecidableEq, Repr

/-- A warp (R17, R327). -/
structure Warp where
  /-- resident index of its block -/
  rix : Nat
  role : Nat
  /-- index within the block (R327) -/
  idx : Nat
  /-- v registers, key 32 * register + lane -/
  v : SMap W32
  /-- w registers -/
  w : SMap W32
  /-- predicates q0-q14, one lane mask each -/
  q : SMap W32
  flags : SMap W32
  seed : SMap W32
  fmode : W32
  rotbase : W32
  loops : List LoopEntry
  pri : Path
  alt : Path
  /-- issue cycles waited since it became ready or since its last issue (R126) -/
  wait : Nat
  /-- it is parked at a switch marker until every outstanding result has landed (R45, R128) -/
  sw : Bool
  recs : List DivRec
  exited : W32
  hand : Option Handler
  /-- the set of v360-v383 (key 32 * register + lane) and w56-w63 that is switched out: the handler's
  bank while the program runs, the program's registers while its handler runs (R159) -/
  bankV : SMap W32
  bankW : SMap W32
  trapcause : W32
  trappc : W64
  traplanes : W32
  pend : List Async
  results : List Result
  priv : Bool
  /-- collapsed into the core's strand (R146) -/
  strand : Bool
  crc : SMap W64
  hcnt : Nat
  /-- the last body instruction of a loop has issued (R142) -/
  edge : Option Bool
  /-- number of the accesses that later writes wait behind (R186) -/
  relSeq : Nat
  /-- writes that have not yet entered the CRCs (R428) -/
  hq : List HashEntry
deriving DecidableEq, Repr

/-- What the core's strand is doing (R146, R148, R156). -/
inductive StrandState where
  /-- issuing bundles -/
  | run
  /-- expanding: waits for its results (R148); soon when nothing was in flight as MODE.EXPAND issued -/
  | expand (soon : Bool)
  /-- stopped by snapshot while its handler runs (R160) -/
  | handler
  /-- stopped by snapshot while its handler runs, to expand after it (R148, R158) -/
  | handlerExpand
  /-- stopped by snapshot and to be resumed (R156) -/
  | resume
  /-- stopped by snapshot and to go on expanding (R148, R156) -/
  | resumeExpand
deriving DecidableEq, Repr

/-- An access of a strand that waits for its translation under its interlock (R158, R355): the access, its block, the
offset of its bundle; it has met a fault and is performed again when the strand resumes. -/
structure Deferred where
  acc : Access
  rix : Nat
  pc : W32
  redo : Bool
deriving DecidableEq, Repr

/-- The strand of a core (R14, R146, R147). -/
structure Strand where
  warp : Nat
  /-- clusters owned: 1, 2 or 4 (R12) -/
  clusters : Nat
  st : StrandState
  /-- loop stack, innermost first -/
  loops : List LoopEntry
  /-- latched ports, key 32 * port + lane (R31) -/
  ports : SMap W32
  /-- bypass ports b0-b3, key 32 * unit + lane (R36, R152) -/
  bypass : SMap W32
  /-- accesses that wait for a translation, in the order of issue -/
  deferred : List Deferred
  /-- walks for the deferred access whose turn it is that ended in a fault: 4 KiB page and reason -/
  faults : List (Nat × Nat)
  /-- MODE.EXPAND continuation (R148) -/
  cont : W32
  /-- the SYNC bit of the current bundle has been released (R164) -/
  synced : Bool
  /-- %cycle and %time of the first frozen cycle of its snapshot (R420) -/
  frozen : Nat × Nat
deriving DecidableEq, Repr

/-! ## Blocks -/

/-- A resident folio (R117, R118). -/
structure Folio where
  start : Nat
  len : Nat
  words : List W64
  recs : List (W32 × W32)
  lands : List W32
  /-- image address, kept for a reload (R339) -/
  image : W64
deriving DecidableEq, Repr

/-- A role descriptor (R321). -/
structure Role where
  entry : W32
  handler : W32
  warps : Nat
  regs : Nat
deriving DecidableEq, Repr

/-- The fields of a launch record (R320). -/
structure LRec where
  code : W64
  folio : Nat
  compl : Nat
  ctx : Nat
  nblk : Nat
  bstat : Bool
  seq : Bool
  preempt : Bool
  fuse : Bool
  priv : Bool
  domain : Nat
  qmask : Nat
  scratch : Nat
  accb : Nat
  nfol : Nat
  novl : Nat
  ctxstr : Nat
  arg : W64
  roles : List Role
deriving DecidableEq, Repr

/-- Copy STATUS of a block (R233). -/
structure CStat where
  err : Bool
  cnt : Nat
  tag : Nat
  cause : Nat
  va : W64
  tokens : W32
deriving DecidableEq, Repr

/-- Marbling STATUS of a block (R314). -/
structure MStat where
  err : Bool
  cnt : Nat
  tag : Nat
  cause : Nat
deriving DecidableEq, Repr

/-- A block resident on a core (R17, R326). -/
structure Block where
  grid : Nat
  bno : Nat
  pasid : Nat
  prio : Nat
  lr : LRec
  /-- order of placement on the core -/
  order : Nat
  folios : KMap Folio
  /-- logical slots being loaded (R120) -/
  loading : List Nat
  /-- scratchpad window by offset (R167) -/
  scratch : SMap Byte
  /-- absent lines of the window, with the number of accepted requests still to land there (R169, R235) -/
  absent : KMap Nat
  /-- format table entries 0-6 (R254) -/
  ft : SMap W64
  cur : SMap Nat
  map : W64
  /-- held banks: logical to physical (R260) -/
  banks : KMap Nat
  /-- logical banks claimed by a waiting ACCALLOC (R261) -/
  claims : List Nat
  cs : CStat
  ms : MStat
  /-- the latest operating-point request (R381) -/
  opreq : Option Nat
  /-- the block is ended by a cause (R159, R162): first and second cause, %trappc -/
  dead : Option (Nat × Nat × W64)
  pre : Bool
  evict : Bool
  mxr : Bool
  kill : Bool
  /-- halted for pre-emption: 1, eviction: 2 (R336, R278) -/
  halt : Nat
  /-- the block's launch-time fused gathering (R325) -/
  fused : Bool
deriving DecidableEq, Repr

/-! ## Engines -/

/-- A clasp table entry (R206), with the resident index of the block whose offsets it holds. -/
structure Clasp where
  base : Nat
  len : Nat
  marb : Bool
  space : Nat
  dst : Bool
  tag : Nat
  rix : Nat
  warp : Nat
deriving DecidableEq, Repr

/-- A tensor shape record (R215). -/
structure Shape where
  base : Nat
  atype : Bool
  esz : Nat
  rank : Nat
  layout : Nat
  swz : Nat
  pad : Bool
  dir : Nat
  loc : Nat
  dim : List Nat
  stride : List Nat
  box : List Nat
  pitch : Nat
deriving DecidableEq, Repr

/-- What a copy request does (R213). -/
inductive CopyOp where
  | copy
  | gather
  | scatter
  | scatterAdd
  | pfl2
deriving DecidableEq, Repr

/-- One element of a request: local bit offset from L, global bit address, bits, in bounds, value. -/
structure Elem where
  lbit : Nat
  gbit : Nat
  bits : Nat
  inb : Bool
  val : Nat
deriving DecidableEq, Repr

/-- Where a part of a request stands. -/
inductive CStage where
  /-- its global data has been asked for, back at this time -/
  | fetch (due : Nat)
  /-- its data is there, to be written at the local end -/
  | ready
  /-- being moved into its local line -/
  | moving
  /-- read from its local line, to be performed in global memory at this time -/
  | store (due : Nat)
  /-- its adds are on their way to their slices, this many still to be performed -/
  | adds (left : Nat)
deriving DecidableEq, Repr

/-- A part of a request under way (R214), with its identity: the elements it moves and the tagged physical
addresses of each element's first and last global byte. -/
structure CPart where
  id : Nat
  elems : List Elem
  pas : List (Nat × Nat)
  stage : CStage
deriving DecidableEq, Repr

/-- A copy engine request (R213). -/
structure CReq where
  op : CopyOp
  rix : Nat
  warp : Nat
  alt : Bool
  /-- the threads of the path that issued it (R211) -/
  by_ : W32
  /-- place in the order of acceptance -/
  seq : Nat
  shape : Shape
  /-- local address L -/
  loc : Nat
  /-- barrier address, none = counts on no object -/
  bar : Option Nat
  coord : List Int
  /-- index list offset and number of units -/
  list : Nat
  n : Nat
  /-- record address, kept for a save (R243) -/
  raddr : Nat
  /-- PFL2: range address and length; token -/
  addr : Nat
  len : Nat
  token : Option Nat
  /-- the w register that receives the token -/
  dreg : Nat
  /-- elements, or lines of a PFL2 -/
  total : Nat
  /-- intervals of elements still to be taken -/
  todo : List (Nat × Nat)
  parts : List CPart
  /-- local bytes touched, from L: first and one past the last -/
  span : Nat × Nat
  /-- destination lines made absent and not yet landed: core, resident index, line (R235) -/
  held : List (Nat × Nat × Nat)
  /-- local source lines still to be read (R237) -/
  reads : List (Nat × Nat × Nat)
  /-- the indices read so far -/
  idx : List Nat
  /-- bytes still to be subtracted from the barrier object -/
  left : Nat
  /-- bytes have moved -/
  begun : Bool
  /-- it waits for pages that are being walked (R242, R355) -/
  paged : Bool
  /-- the request met an error: cause and address -/
  err : Option (Nat × Nat)
deriving DecidableEq, Repr

/-- A marbling request (R294 to R299): 0 SEEDTRY, 1 SEEDSCAN, 2 FIT, 3 PROJ. -/
structure MReq where
  op : Nat
  rix : Nat
  warp : Nat
  alt : Bool
  /-- the threads of the path that issued it (R211) -/
  by_ : W32
  seq : Nat
  /-- destination offset, and the offset of the scratchpad source -/
  dst : Nat
  src : Nat
  /-- SEEDTRY: the seed -/
  seed : W32
  /-- number of bases, and logical bank of the target -/
  c : Nat
  bank : Nat
  /-- FIT: coefficients in FP16 -/
  cfmt : Bool
  bar : Option Nat
  /-- it reads a bank and holds the target buffer -/
  target : Bool
  /-- its bank transfer is done (R298) -/
  filled : Bool
deriving DecidableEq, Repr

/-- What the running marbling request does: it reads its sources, runs, or writes its destination (R300). -/
inductive MStage where
  | read
  | run
  | write
deriving DecidableEq, Repr

/-- The running marbling request: its slot, the sources read at its start, run-time cycles run and to run
(R300). Of a SEEDSCAN: the best candidate (seed, index, exact gain m * 2^e), the lowest index not yet passed,
candidates completed, the run time at which the candidate in progress began, and the cause of its end (R308
to R310). -/
structure MRun where
  slot : Nat
  stage : MStage
  /-- words of the window still to be written, in the last stage -/
  left : List Nat
  src : List Byte
  ran : Nat
  total : Nat
  best : Option (Nat × Nat × Int × Int)
  next : Nat
  doneN : Nat
  since : Nat
  ended : Option Nat
deriving DecidableEq, Repr

/-- The marbling engine of a core (R294). -/
structure Marble where
  /-- queue slots 0-15 -/
  slots : KMap MReq
  /-- slots in acceptance order -/
  order : List Nat
  /-- requests parked for acceptance -/
  accepting : List MReq
  run : Option MRun
  /-- target buffer, element 64 k + n (R298) -/
  target : SMap W32
deriving DecidableEq, Repr

/-- An MX instruction that waits for its place in engine order, with its issuer, or a bank transfer (R268,
R269, R298). -/
structure MxEntry where
  /-- its place in the order of issue -/
  seq : Nat
  /-- the instruction; none for a bank transfer -/
  instr : Option Instr
  /-- the marbling request of a bank transfer -/
  slot : Nat
  rix : Nat
  warp : Nat
  alt : Bool
  strand : Bool
  /-- it needs a grant of the slew limiter (R395) -/
  heavy : Bool
  /-- the logical banks it names (R262) -/
  banks : List Nat
deriving DecidableEq, Repr

/-- What is in its occupancy, with what it read at its start (R268). -/
inductive MxJob where
  /-- a matrix step: physical bank, the entry's number and value, operand images A and B as numbers (R252), scale bytes of A
  and B -/
  | step (zero : Bool) (bank ent : Nat) (fmt : W64) (a b : Nat) (sa sb : List Byte)
  /-- ACCRD, with the identity of its result -/
  | accrd (id : Nat)
  /-- ACCWR: physical bank, row group, the FP32 words of its 256 elements -/
  | accwr (bank group : Nat) (vals : List W32)
  | accclr (bank : Nat)
  | accadd (dst src : Nat)
  /-- FMTSET: entry, or 7 for the loop map -/
  | fmtset (entry : Nat) (val : W64)
  /-- a bank transfer into the target buffer for a marbling slot -/
  | transfer (slot bank : Nat)
deriving DecidableEq, Repr

/-- The operation in its occupancy: cycles left, charge of every cycle (R392), timing class (R378). -/
structure MxRun where
  job : MxJob
  entry : MxEntry
  left : Nat
  charge : Nat
  cls : Nat
deriving DecidableEq, Repr

/-- An MMSG whose record is being read (R293): bank, format entry index, image A, record offset and quarter;
held after a FORMAT in a strand, until the strand resumes (R158); the read begins once the record's lines are present. -/
structure MxRead where
  entry : MxEntry
  bank : Nat
  ent : Nat
  a : Nat
  off : Nat
  quarter : Nat
  cls : Nat
  /-- cycles since the start of the read -/
  age : Nat
  held : Bool
  /-- the banks have been asked -/
  asked : Bool
deriving DecidableEq, Repr

/-- A waiting ACCALLOC (R261). -/
structure AccWait where
  rix : Nat
  warp : Nat
  alt : Bool
  n : Nat
  base : Nat
  /-- w register -/
  dest : Nat
  /-- identity of its result, in the order of issue -/
  id : Nat
deriving DecidableEq, Repr

/-- An ACCFREE that waits for its banks (R262): its place in the order of issue, its issuer, its logical banks. -/
structure AccFree where
  seq : Nat
  rix : Nat
  warp : Nat
  alt : Bool
  banks : List Nat
deriving DecidableEq, Repr

/-- The matrix engine of a core (R247, R268). -/
structure Mx where
  /-- accumulator memory, key 4096 * physical bank + 64 m + n (R260) -/
  acc : SMap W32
  /-- scale memory, key 2048 * physical part + offset (R258) -/
  scale : SMap Byte
  queue : List MxEntry
  cur : Option MxRun
  reading : Option MxRead
  allocq : List AccWait
  freeq : List AccFree
  /-- cycles left of a reset, and the one in which it ends (R280) -/
  reset : Nat
  /-- filler cycles left (R398) -/
  filler : Nat
  lit : Bool
  /-- consecutive cycles of accumulator deadlock (R277) -/
  dead : Nat
deriving DecidableEq, Repr

/-- What an entry of the write buffer does when it is delivered. -/
inductive WbKind where
  /-- a store of bytes at its home (R170) -/
  | store (bytes : List Byte)
  /-- an atomic on its way to its home slice (R174): kind, width, lane, identity,
  effective address, operand, compare value -/
  | atom (kind : AccKind) (n lane id ea : Nat) (data cmp : List W32)
  /-- the arrival of an ARRIVE (R190) on object off of the window at core, rix, with its count -/
  | arrive (core rix off count : Nat)
deriving DecidableEq, Repr

/-- An entry of the write buffer (R170). -/
structure WbEntry where
  seq : Nat
  warp : Nat
  addr : Nat
  kind : WbKind
  /-- a release: earlier atomics of the warp are performed first (R197) -/
  rel : Bool
  /-- %time from which it is delivered -/
  due : Nat
deriving DecidableEq, Repr

/-- An atomic waiting at its home slice or at the order gate (R174, R427). -/
structure SliceReq where
  core : Nat
  warp : Nat
  eng : Bool
  addr : Nat
  kind : AccKind
  n : Nat
  lane : Nat
  id : Nat
  data : List W32
  cmp : List W32
  /-- %time of its arrival -/
  age : Nat
  /-- effective address, for the store hash -/
  ea : Nat
deriving DecidableEq, Repr

/-- The requester tag of a chunk and its count (R426). -/
structure Chunk where
  core : Nat
  warp : Nat
  eng : Bool
  count : Nat
deriving DecidableEq, Repr

/-- An L2 slice's replay state and waiting atomics (R425, R426). -/
structure Slice where
  reqs : List SliceReq
  chunk : Option Chunk
  /-- closed chunks not yet sent, and the %time at which the first of them closed -/
  closed : List Chunk
  age : Nat
  /-- %time of the next slice cycle in which an atomic may be performed (R174) -/
  next : Nat
  pass : Bool
  ended : Bool
  div : Bool
  /-- chunks logged -/
  used : Nat
  idx : Nat
  /-- atomics already performed of the head chunk -/
  headUsed : Nat
  /-- %time from which no atomic of the head's requester has arrived (R427) -/
  quiet : Nat
deriving DecidableEq, Repr

/-- A remote scratchpad access on its way to a core of the gathering (R167). -/
structure RemoteReq where
  src : Nat
  warp : Nat
  rix : Nat
  off : Nat
  kind : AccKind
  n : Nat
  lane : Nat
  id : Nat
  ea : Nat
  data : List W32
  cmp : List W32
deriving DecidableEq, Repr

/-- A cached translation (R353): page base and size in bits, target base (tagged physical address),
attributes. -/
structure Tlb where
  pasid : Nat
  page : Nat
  bits : Nat
  target : Nat
  tgt : Nat
  ro : Bool
  sc : Bool
  fa : Bool
  nc : Bool
  /-- the access is sent untranslated (R368) -/
  u : Bool
  /-- host pages: the host granted read, and write (R368) -/
  rd : Bool
  wr : Bool
deriving DecidableEq, Repr

/-- An access that has been translated and may be in flight (R364): its identity, the numbers that its entries of the write
buffer fall between, and the translations it was made with. -/
structure Flight where
  id : Nat
  lo : Nat
  hi : Nat
  tlbs : List Tlb
deriving DecidableEq, Repr

/-- Who waits for a walk. -/
inductive Asker where
  | path (warp : Nat) (alt : Bool)
  /-- the strand's deferred access whose turn it is -/
  | strand
  /-- an XLATE by its identity -/
  | xlate (id : Nat)
  /-- a request in a copy engine slot; 64 stands for the entry of the KICK list (R230) -/
  | copy (slot : Nat)
  /-- FOLLD of a path -/
  | folio (warp : Nat) (alt : Bool)
  /-- the launch scheduler -/
  | sched
deriving DecidableEq, Repr

/-- What an invalidation names. -/
structure Cover where
  mode : Nat
  pasid : Option Nat
  va : Nat
  len : Nat
deriving DecidableEq, Repr

/-- A translation in progress (R355): page request and ATS state (R367-R369). -/
structure Walk where
  pasid : Nat
  va : Nat
  write : Bool
  /-- for XLATE: never raises a page request (R360) -/
  probe : Bool
  who : List Asker
  /-- 0 to walk, 1 waits on ATS, 2 waits on a page request, 3 waits to send one (R366) -/
  stage : Nat
  /-- %time at which the walk is made, or at which the wait times out -/
  due : Nat
  /-- attributes of the leaf, and PRIEN of the directory entry -/
  ro : Bool
  sc : Bool
  fa : Bool
  nc : Bool
  prien : Bool
  /-- a sweep covered it: its result is not cached (R364) -/
  nocache : Bool
  /-- a page request has succeeded (R368) -/
  retried : Bool
  /-- sweeps since the walk was asked for, whose pages are compared with its leaf once that is read (R364) -/
  covers : List Cover
deriving DecidableEq, Repr

/-- A directory or pointer entry held in a quire's walk cache (R353): level 9 for the directory, the index
path to the entry as a number, and the entry. -/
structure WalkEntry where
  quire : Nat
  pasid : Nat
  level : Nat
  prefix_ : Nat
  val : W64
deriving DecidableEq, Repr

/-- An XLATE that waits for walks (R360): the lanes still without a status, with their addresses. -/
structure XReq where
  id : Nat
  warp : Nat
  pasid : Nat
  lanes : List (Nat × Nat)
deriving DecidableEq, Repr

/-- A remote-acquire promotion request (R183): issuing core, warp and path, and the number that entries of
the write buffer must precede. -/
structure Promo where
  src : Nat
  warp : Nat
  alt : Bool
  seq : Nat
deriving DecidableEq, Repr

/-- A folio load in progress (R120): its path, slot, image address, a fault met, and the FOLLD's offset, which
in a strand is its bundle's (R160). -/
structure FLoad where
  warp : Nat
  alt : Bool
  slot : Nat
  addr : Nat
  due : Nat
  fault : Option Nat
  pc : W32
  /-- the 128-byte line of the image whose read was lost, from a peer or from the host (R371, R374) -/
  lost : Option (Bool × Nat)
deriving DecidableEq, Repr

/-- A line of the L1 (R170): line number, the bytes, placement class. -/
structure L1Line where
  line : Nat
  data : List Byte
  hint : Nat
deriving DecidableEq, Repr

/-! ## The core -/

/-- A word that a requester asks a scratchpad bank for (R16, R168): requester 0-3 LS ports, 4 remote, 5 copy
engine, 6 marbling engine, 7 observation unit; the word (its bank is the word modulo 32); cycles waited; the window in which
it lost to the copy engine; processing cycles until it asks; the issuing core; and what it is for: 0 an access, 1 the record
of an MMSG, 2 a marbling run, 3 any other act of an engine, 4 the second line of a copy engine's move (R214), from 16 one atomic, which
a bank serves alone (R174). -/
structure BankReq where
  port : Nat
  word : Nat
  wait : Nat
  lost : Option Nat
  delay : Nat
  src : Nat
  tag : Nat
deriving DecidableEq, Repr

/-- Where a core stands in its current cycle. -/
inductive Stage where
  /-- the cycle has begun; the strand may issue -/
  | start
  /-- the strand has issued or had nothing to issue; a warp may issue -/
  | simt
  /-- both decoders are done: the cycle ends -/
  | done
deriving DecidableEq, Repr

/-- Clock, energy and execute-class state of a core (R376, R378, R392). -/
structure Clock where
  cycle : Nat
  gstall : Nat
  /-- tick edge at which the current cycle began -/
  edge : Nat
  stage : Stage
  /-- charges of the processing cycles that a warp instruction's span still takes (R127, R392) -/
  span : List Nat
  /-- clusters, from the lowest, that the instruction in its span is processed on (R12) -/
  spanOn : Nat
  /-- what the decoders have issued in the cycle: strand, warp, alternate path, offset (R416) -/
  named : List (Bool × Nat × Bool × W32)
  /-- scratchpad words asked for and not yet served (R168) -/
  words : List BankReq
  /-- operations in execute: issued by the strand, class, cycles left (R378) -/
  exec : List (Bool × Nat × Nat)
  /-- lanes whose float units work at an FP64 FMA, with the cycles until they take another (R10) -/
  fma : List (W32 × Nat)
  /-- the last 63 cycles' charges, core part and engine part, newest first (R393) -/
  window : List (Nat × Nat)
  /-- charges of the current cycle -/
  coreCharge : Nat
  /-- the copy engine's line is on the move: it is charged in the cycle in which the banks serve the last of it (R392) -/
  moving : Bool
  /-- the second line of the element on the move follows, in a cycle of its own (R214) -/
  second : Bool
  eacc : W64
  /-- the current cycle is a governed stall -/
  stalled : Bool
  /-- the current cycle is the alignment cycle of a kettle release (R164) -/
  aligning : Bool
  /-- the current cycle is a later one of a warp instruction's processing span (R127) -/
  busy : Bool
  /-- the copy engine has moved its line in this cycle (R214) -/
  moved : Bool
  /-- a kettle line has risen (R164): when the core learns of it, and its release edge -/
  align : Option (Nat × Nat)
  /-- some event of R403 happened in the cycle -/
  progress : Bool
  mxProgress : Bool
deriving DecidableEq, Repr

/-- Governor state of a core (R384, R389, R402). -/
structure Gov where
  run : Nat
  eff : Nat
  set : Bool
  srem : Nat
  clim : Nat
  blim : Nat
  hang : Nat
  mxhang : Nat
  /-- a rise deferred until after a kettle release (R390) -/
  deferred : Bool
  /-- the settling count is zero at a cycle edge -/
  pending : Bool
  /-- CGRANT as it is in force (R383) -/
  grant : W64
  /-- CLIM and BLIM of a GRANT that takes effect at the next cycle edge (R387) -/
  slim : Option (Nat × Nat)
deriving DecidableEq, Repr

/-- Observation state of a core beside its control registers (R417, R423, R428). -/
structure Obs where
  bcm : SMap W32
  snap : SMap W32
  /-- XOR of the hashes of ended warps, or the loaded value (R428) -/
  ended : W64
  /-- issues counted for a MODE 2 stop -/
  count : Nat
  armed : Bool
  stopped : Bool
  /-- the stop froze the whole core -/
  whole : Bool
  /-- RESUME has been written and waits for the dump -/
  resuming : Bool
  /-- the stop's dump is still to be placed (R418) -/
  dumping : Bool
  /-- cause and tag of the stop (R420) -/
  cause : Nat
  tag : Nat
  /-- BKPT has asked for a stop, with its tag -/
  bkpt : Option Nat
  /-- the current cycle has been sampled -/
  sampled : Bool
  /-- %cycle and %time of the first frozen cycle of the stop (R420) -/
  first : Nat × Nat
  /-- scratchpad lines that the observation unit has asked for, for part 4 of the dump (R423) -/
  lines : Nat
deriving DecidableEq, Repr

/-- One core (R7, R11). -/
structure Core where
  ck : Clock
  gov : Gov
  blocks : KMap Block
  warps : KMap Warp
  strand : Option Strand
  /-- placements made, for the order of blocks -/
  placed : Nat
  clasp : List Clasp
  /-- copy engine queue slots 0-63 (R213) -/
  copy : KMap CReq
  corder : List Nat
  caccept : List CReq
  /-- walks for an entry of the KICK list that ended in a fault: 4 KiB page and reason -/
  kfaults : List (Nat × Nat)
  /-- %kick, and the resident index, the warp and the threads of the path that issued its list (R211, R231) -/
  kick : W32
  kickBy : Option (Nat × Nat × W32)
  mar : Marble
  mx : Mx
  l1 : List L1Line
  wb : List WbEntry
  /-- promotion requests from cores (R183) -/
  promo : List Promo
  remote : List RemoteReq
  /-- last-page registers by lane (R353) -/
  lpr : KMap Tlb
  tlb : List Tlb
  walks : List Walk
  /-- accesses translated, until they are no longer in flight (R364) -/
  flights : List Flight
  /-- XLATEs in progress -/
  xlates : List XReq
  /-- walks for the launch scheduler that ended in a fault: PASID, 4 KiB page, reason -/
  faults : List (Nat × Nat × Nat)
  /-- port b4: the last translation status (R359) -/
  xport : W32
  domain : W32
  /-- the member block that %domain named as it was written: grid and block number (R163, R333) -/
  member : Option (Nat × Nat)
  obs : Obs
  /-- folio loads in progress (R120) -/
  floads : List FLoad
  /-- SHASHs waiting: warp, path, destination code, id (R429) -/
  hashes : List (Nat × Bool × Nat × W32 × W32)
deriving DecidableEq, Repr

/-! ## The module -/

/-- A grid under way (R323, R331). -/
structure Grid where
  queue : Nat
  index : Nat
  lr : LRec
  pasid : Nat
  prio : Nat
  /-- place of block 0 in the allowed list (R324) -/
  start : Nat
  /-- image addresses of the folio list -/
  images : List W64
  held : Bool
  rejected : Bool
  nok : Nat
  nerr : Nat
  /-- the failing block of lowest index and its cause -/
  first : Option (Nat × Nat)
  /-- blocks that have not ended -/
  left : Nat
  /-- cores whose %domain the scheduler set for this grid, with the value (R331) -/
  doms : List (Nat × W32)
deriving DecidableEq, Repr

/-- A block saved by pre-emption or eviction (R337). -/
structure Saved where
  /-- resident index at the save -/
  rix : Nat
  block : Block
  warps : List (Nat × Warp)
  strand : Option Strand
  /-- logical banks held -/
  held : List Nat
  copies : List CReq
  marbles : List MReq
  clasp : List Clasp
  /-- warp and threads that issued its pending KICK list -/
  kickWarp : Option (Nat × W32)
  /-- %domain as it named the block (R344) -/
  domain : Option W32
deriving DecidableEq, Repr

/-- An entry of a core's waiting list (R325). -/
structure Waiting where
  grid : Nat
  bno : Nat
  prio : Nat
  saved : Option Saved
deriving DecidableEq, Repr

/-- An endpaper event (R430). -/
structure Event where
  time : Nat
  code : Nat
  src : Nat
  a1 : Nat
  a2 : Nat
  a3 : Nat
deriving DecidableEq, Repr

/-- The headband port and its record buffer (R408, R410). -/
structure Headband where
  /-- records in the buffer, oldest first -/
  queue : List (List W64)
  /-- records that have left on the port -/
  out : List (List W64)
  /-- port capacity gathered, in quarter bytes -/
  credit : Nat
  /-- dropped SAMPLE and MARK records by source -/
  drops : KMap (Nat × Nat)
  /-- the fill has been at or above 512 KiB since the counts were last placed -/
  full : Bool
  /-- lossless records that wait for room, with their source -/
  waiting : List (Nat × List W64)
  /-- the %time of the last time sync -/
  synced : Option Nat
deriving DecidableEq, Repr

/-- An invalidation in progress (R364): what it names, the parked path or host origin. -/
structure Inval where
  /-- 0 page, 1 range, 2 PASID, 3 all, 4 the issuing core only, 5 host pages -/
  mode : Nat
  pasid : Option Nat
  va : Nat
  len : Nat
  core : Nat
  /-- warp and path parked for it; none = the host -/
  who : Option (Nat × Bool)
  /-- accesses numbered below this were translated before it -/
  since : Nat
deriving DecidableEq, Repr

/-- Kettle line state (R164): the release edge once the line has risen. -/
structure Kettle where
  release : Option Nat
deriving DecidableEq, Repr

/-- A QSUB record write in progress (R329). -/
structure QsubReq where
  queue : Nat
  ticket : Nat
  bytes : List Byte
  /-- the issuing warp, whose accesses numbered below seq are performed first -/
  core : Nat
  warp : Nat
  seq : Nat
deriving DecidableEq, Repr

/-- The press (R432). -/
structure Press where
  /-- tick edge of a requested press -/
  at_ : Option Nat
  /-- requested by the pin -/
  byPin : Bool
  pin : Bool
  pressed : Bool
  /-- release requested -/
  releasing : Bool
deriving DecidableEq, Repr

/-- A boot sequence under way (R436): the step that comes next, the error with which it will end (0: none), and whether memory
is kept. -/
structure Booting where
  next : Nat
  err : Nat
  kept : Bool
deriving DecidableEq, Repr

/-- Boot, identity and attestation (R435 to R442). -/
structure Boot where
  powered : Bool
  /-- power-ons so far -/
  count : Nat
  /-- the leaf counter could not advance in this power-on -/
  noLeaf : Bool
  reports : Nat
  /-- tick at which the report in progress is done -/
  signing : Option Nat
  out : SMap Byte
  resets : Nat
  /-- leaf counter in the flash: top leaves taken so far (R440) -/
  leaf : Nat
  /-- the booted copy, B or A, with what the flash window held as it was selected; none before step 3 and without a valid copy
  (R437, R439) -/
  image : Option (Bool × SMap W32)
  /-- the boot sequence is under way (R436) -/
  booting : Option Booting
deriving DecidableEq, Repr

/-- The path, bundle slot or engine that the current step acts for. -/
inductive Who where
  | none
  /-- a warp's path: primary or alternate -/
  | path (alt : Bool)
  /-- a lane slot of the strand's bundle -/
  | lane (l : Nat)
  /-- a vector slot over n clusters from cluster k -/
  | vector (k n : Nat)
  | core
  | control
deriving DecidableEq, Repr

/-- The selected issuer (R126, R47). -/
structure Sel where
  core : Nat
  warp : Nat
  who : Who
deriving DecidableEq, Repr

/-! ## Memory -/

/-- Memory: bytes by address; an unlisted byte reads 0 (assumption 1). -/
abbrev Memory := SMap Byte

/-- The canonical form of memory: addresses rise strictly and no listed byte is what an unlisted one
reads as. -/
def Memory.wf (m : Memory) : Bool := SMap.wf 0 m

/-- The state of the module. -/
structure State where
  /-- %time in ticks (R376) -/
  time : Nat
  /-- module memory (from 0), host memory (from hostBase) and peer memory (from peerBase), by byte -/
  mem : Memory
  /-- control-space registers by 4-byte word offset, where they differ from their reset value -/
  ctl : SMap W32
  cores : KMap Core
  sel : Sel
  /-- steps of the outside that have arrived and not yet been taken -/
  inbox : List Instr
  /-- counter behind free values and identities -/
  nonce : Nat
  slices : KMap Slice
  /-- quire TLBs: quire and translation (R353) -/
  qtlb : List (Nat × Tlb)
  /-- walk caches of the quires (R353) -/
  wcache : List WalkEntry
  invals : List Inval
  kettles : KMap Kettle
  grids : KMap Grid
  nextGrid : Nat
  /-- QWP advances of queues not yet taken by the scheduler: queue and record number (R323) -/
  admits : List (Nat × Nat)
  /-- queues stopped by an excessive QWP until they are enabled anew (R318) -/
  stuck : List Nat
  waiting : KMap (List Waiting)
  /-- QSUB tickets reserved by queue (R329) -/
  tickets : KMap Nat
  /-- QSUB record writes in progress (R329) -/
  qsubs : List QsubReq
  /-- MSI-X vectors raised (R331, R404) -/
  irqs : List Nat
  hb : Headband
  /-- endpaper rings by quire: events written so far, and the last 8,192 of them, newest first (R430) -/
  rings : KMap (Nat × List Event)
  /-- levels of the slew limiters by gathering (R396) -/
  slew : SMap Nat
  /-- the step boundary last taken -/
  slewTick : Nat
  /-- SLEWRAMP and SLEWCTL.EN in force by gathering, where they differ from reset (R399) -/
  slewEff : KMap (W64 × Bool)
  press : Press
  boot : Boot
  /-- PASID, ATS, PRI enabled in configuration space (R366) -/
  cfg : Bool × Bool × Bool
  /-- ERESET commands under way: core and command (R342) -/
  commanded : List (Nat × Nat)
  /-- a page request has met a Response Failure since PRI was last enabled (R369) -/
  priFailed : Bool
  /-- host or peer answers: values read by the last outside access (R372) -/
  answer : Nat
  /-- L2 lines fetched ahead or marked: line and placement class (R172, R194, R232) -/
  l2 : KMap Nat
deriving DecidableEq, Repr

/-! ## After reset -/

/-- A core after module reset: nothing resident, %cycle 0, RUN and EFF at OP0 (R376, R381, R384, R389). -/
def Core.reset : Core :=
  { ck := ⟨0, 0, 0, .start, [], 0, [], [], [], [], [], 0, false, false, 0, false, false, false, false, .none, false, false⟩
    gov := ⟨0, 0, false, 0, 7, 0, 0, 0, false, false, 0x0000FAC688000007, none⟩
    blocks := [], warps := [], strand := none, placed := 0, clasp := [], copy := [], corder := [],
    caccept := [], kfaults := [], kick := 0, kickBy := none, mar := ⟨[], [], [], none, []⟩,
    mx := ⟨[], [], [], none, none, [], [], 0, 0, false, 0⟩,
    l1 := [], wb := [], promo := [], remote := [], lpr := [], tlb := [], walks := [], flights := [],
    xlates := [], faults := [], xport := 0, domain := 0, member := none,
    obs := ⟨[], [], 0, 0, false, false, false, false, false, 0, 0, none, false, (0, 0), 0⟩, floads := [], hashes := [] }

/-- The machine right after a power-on reset whose boot sequence has completed (R376, R435, R436). -/
def State.reset : State :=
  { time := 0, mem := [], ctl := [], cores := [], sel := ⟨0, 0, .none⟩, inbox := [], nonce := 0,
    slices := [], qtlb := [], wcache := [], invals := [], kettles := [], grids := [], nextGrid := 0, admits := [],
    stuck := [], waiting := [], tickets := [], qsubs := [], irqs := [], hb := ⟨[], [], 0, [], false, [], none⟩, rings := [],
    slew := [], slewTick := 0, slewEff := [], press := ⟨none, false, false, false, false⟩,
    boot := ⟨true, 1, false, 0, none, [], 0, 1, some (false, []), none⟩, cfg := (false, false, false), commanded := [], priFailed := false, answer := 0, l2 := [] }

end Sys2Proof.Machine
end

