-- ==== Sys2Proof/Machine/Ops.lean ====
section
/-! DEFINITION. The named operations over memory, control registers, registers, results in flight and
paths that every meaning is written with: what an instruction sees as it issues, how it ends, taking a
trap and returning from one. -/

namespace Sys2Proof.Machine

/-! ## Cores, blocks and warps -/

/-- A core nothing has run on yet: it counts cycles of 30 ticks at OP0 (R376, R379, R381). -/
def Core.idle (time : Nat) : Core :=
  { Core.reset with ck := { Core.reset.ck with cycle := (time + 29) / 30, edge := (time + 29) / 30 * 30 } }

/-- Core c. -/
def State.core (s : State) (c : Nat) : Core := (s.cores.find? c).getD (Core.idle s.time)

/-- Replace core c. -/
def State.putCore (s : State) (c : Nat) (k : Core) : State := { s with cores := s.cores.put c k }

/-- Change core c. -/
def State.modCore (s : State) (c : Nat) (f : Core → Core) : State := s.putCore c (f (s.core c))

/-- Change the clock state of core c. -/
def State.modClock (s : State) (c : Nat) (f : Clock → Clock) : State :=
  s.modCore c (fun k => { k with ck := f k.ck })

/-- Change warp w of a core, when it exists. -/
def Core.modWarp (k : Core) (w : Nat) (f : Warp → Warp) : Core :=
  match k.warps.find? w with
  | some x => { k with warps := k.warps.put w (f x) }
  | none => k

/-- Change warp w of core c, when it exists. -/
def State.modWarp (s : State) (c w : Nat) (f : Warp → Warp) : State := s.modCore c (fun k => k.modWarp w f)

/-- Change block r of a core, when it is resident. -/
def Core.modBlock (k : Core) (r : Nat) (f : Block → Block) : Core :=
  match k.blocks.find? r with
  | some x => { k with blocks := k.blocks.put r (f x) }
  | none => k

/-- Change block r of core c, when it is resident. -/
def State.modBlock (s : State) (c r : Nat) (f : Block → Block) : State := s.modCore c (fun k => k.modBlock r f)

/-- Change the strand of core c, when there is one. -/
def State.modStrand (s : State) (c : Nat) (f : Strand → Strand) : State :=
  s.modCore c (fun k => { k with strand := k.strand.map f })

/-- A path of a warp. -/
def Warp.path (w : Warp) (alt : Bool) : Path := if alt then w.alt else w.pri

/-- Replace a path of a warp. -/
def Warp.setPath (w : Warp) (alt : Bool) (p : Path) : Warp :=
  if alt then { w with alt := p } else { w with pri := p }

/-- Change a path of a warp. -/
def Warp.modPath (w : Warp) (alt : Bool) (f : Path → Path) : Warp := w.setPath alt (f (w.path alt))

/-- Change a path of warp w of core c. -/
def State.modPath (s : State) (c w : Nat) (alt : Bool) (f : Path → Path) : State :=
  s.modWarp c w (fun x => x.modPath alt f)

/-- A fresh number for free values and identities. -/
def State.tickNonce (s : State) : State := { s with nonce := s.nonce + 1 }

/-- Core c notes progress for the watchdog (R403). -/
def State.progress (s : State) (c : Nat) : State := s.modClock c (fun k => { k with progress := true })

/-- Set the stage of core c's cycle. -/
def State.setStage (s : State) (c : Nat) (x : Stage) : State := s.modClock c (fun k => { k with stage := x })

/-! ## Numbers of cores, gatherings and quires (R8) -/

/-- The gathering of core c. -/
def gatheringOf (c : Nat) : Nat := c / 8

/-- The quire of core c. -/
def quireOf (c : Nat) : Nat := c / 144

/-! ## Memory -/

/-- Byte address from which host memory stands in the model's memory (assumption 5). -/
def hostBase : Nat := 2 ^ 64

/-- Byte address from which the memory of peer modules stands: 2^64 bytes for each (assumption 5). -/
def peerBase : Nat := 2 ^ 65

/-- n bytes at tagged physical address a. -/
def State.read (s : State) (a n : Nat) : List Byte := SMap.getMany 0 s.mem a n

/-- The little-endian number of n bytes at a (R1). -/
def State.readNat (s : State) (a n : Nat) : Nat := bytesNat (s.read a n)

/-- Write bytes at tagged physical address a. -/
def State.write (s : State) (a : Nat) (b : List Byte) : State := { s with mem := SMap.setMany 0 s.mem a b }

/-- Is a an address of module memory (R173)? -/
def isModule (a : Nat) : Bool := a < 2 ^ 40

/-- The slice number 128 q + s that is home to a module address (R173). -/
def homeSlice (pa : Nat) : Nat :=
  128 * (pa / 2 ^ 38 % 4) + ((pa / 2 ^ 7 % 128) ^^^ (pa / 2 ^ 14 % 128))

/-- The memory stack that holds a module address (R173). -/
def homeStack (pa : Nat) : Nat := 2 * (pa / 2 ^ 38 % 4) + ((pa / 2 ^ 12 % 2) ^^^ (pa / 2 ^ 24 % 2))

/-! ## Control registers -/

/-- Offset of CGRANT of core c (R383). -/
def offCgrant (c : Nat) : Nat := 0x20000 + 8 * c
/-- Offset of SLEWRAMP of gathering g (R395). -/
def offSlew (g : Nat) : Nat := 0x22000 + 16 * g
/-- Offset of the watchdog registers of core c (R401). -/
def offWatch (c : Nat) : Nat := 0x23000 + 16 * c
/-- Offset of the observation registers of core c (R407). -/
def offObs (c : Nat) : Nat := 0x28000 + 64 * c
/-- Offset of the flash write window (R438; assumption 99). -/
def offFlash : Nat := 0x40000
/-- Offset of HBCTL (R453). -/
def offHbctl : Nat := 0x31000
/-- Offset of the replay registers of slice sl (R425). -/
def offReplay (sl : Nat) : Nat := 0x32000 + 64 * sl

/-- What a control register reads as after module reset, by byte offset (R383, R395, R401, R436); 0 where the
spec states no other value (assumption 9); a capture unit is attached (assumption 42). -/
def ctlReset (off : Nat) : W32 :=
  if 0x20000 ≤ off ∧ off < 0x21200 then (if off % 8 = 0 then 0x88000007 else 0xFAC6)
  else if 0x22000 ≤ off ∧ off < 0x22480 then
    (if off % 16 = 0 then 0x87654321 else if off % 16 = 4 then 0x88888888
      else if off % 16 = 8 then 1 else 0)
  else if 0x23000 ≤ off ∧ off < 0x25400 then
    (if off % 16 = 0 then 0x80000000 else if off % 16 = 4 then 0x01000000 else 0)
  else if off = 0x31000 then 2
  else if off = 0x3A000 then 7
  else 0

/-- The stored value of the control register at a 4-byte aligned offset. Registers are listed where they
differ from their reset value, as the exclusive or of both. -/
def State.ctlAt (s : State) (off : Nat) : W32 := SMap.get 0 s.ctl off ^^^ ctlReset off

/-- Store a control register. -/
def State.setCtl (s : State) (off : Nat) (v : W32) : State :=
  { s with ctl := SMap.set 0 s.ctl off (v ^^^ ctlReset off) }

/-- A 64-bit control register. -/
def State.ctl64 (s : State) (off : Nat) : W64 := s.ctlAt (off + 4) ++ s.ctlAt off

/-- Store a 64-bit control register. -/
def State.setCtl64 (s : State) (off : Nat) (v : W64) : State :=
  (s.setCtl off (v.extractLsb' 0 32)).setCtl (off + 4) (v.extractLsb' 32 32)

/-- OBSCTL of core c (R407). -/
def State.obsctl (s : State) (c : Nat) : W32 := s.ctlAt (offObs c)

/-! ## Endpaper events and trace records -/

/-- Write an endpaper event of quire q (R430). -/
def State.endpaper (s : State) (q code src a1 a2 a3 : Nat) : State :=
  let r := (s.rings.find? q).getD (0, [])
  { s with rings := s.rings.put q (r.1 + 1, ⟨s.time, code, src, a1, a2, a3⟩ :: r.2.take 8191) }

/-- A trace record: header and payload (R408). -/
def traceRecord (cls sub src time : Nat) (payload : List W64) : List W64 :=
  BitVec.ofNat 64 (cls * 2 ^ 60 + sub * 2 ^ 56 + src * 2 ^ 45 + payload.length * 2 ^ 33 + time % 2 ^ 33)
    :: payload

/-- Bytes the record buffer holds (R410). -/
def Headband.fill (h : Headband) : Nat := (h.queue.map (fun r => 8 * r.length)).foldl (· + ·) 0

/-- The port takes records: EN and UP are 1 (R410). -/
def State.portUp (s : State) : Bool := (s.ctlAt offHbctl).getLsbD 0 && (s.ctlAt offHbctl).getLsbD 1

/-- Place a lossy record, or drop and count it against its source (R410). -/
def State.traceLossy (s : State) (cls sub src : Nat) (payload : List W64) : State :=
  if s.portUp && decide (s.hb.fill ≤ 768 * 1024) then
    { s with hb := { s.hb with queue := s.hb.queue ++ [traceRecord cls sub src s.time payload] } }
  else
    let d := (s.hb.drops.find? src).getD (0, 0)
    let d := if cls = 0 then (min (d.1 + 1) (2 ^ 32 - 1), d.2) else (d.1, min (d.2 + 1) (2 ^ 32 - 1))
    { s with hb := { s.hb with drops := s.hb.drops.put src d } }

/-- A lossless record fits the 1 MiB buffer (R410). -/
def State.roomFor (s : State) (r : List W64) : Bool :=
  s.portUp && decide (s.hb.fill + 8 * r.length ≤ 1024 * 1024)

/-- Place a lossless record behind the waiting ones of its source (R410). -/
def State.traceLossless (s : State) (cls sub src : Nat) (payload : List W64) : State :=
  let r := traceRecord cls sub src s.time payload
  if s.roomFor r && !(s.hb.waiting.any (fun p => p.1 = src)) then
    { s with hb := { s.hb with queue := s.hb.queue ++ [r] } }
  else { s with hb := { s.hb with waiting := s.hb.waiting ++ [(src, r)] } }

/-- Bit i of OBSCTL of core c: 0 TEN, 1 SEN, 2 MEN, 3 BCMSNAP, 4 BCMTR, 5 HAZ, 6 BKSTOP. -/
def State.obsBit (s : State) (c i : Nat) : Bool := (s.obsctl c).getLsbD i

/-- OSTAT of core c: SNAPCNT, DIVERGED, HAZCNT. -/
def State.ostat (s : State) (c : Nat) : W32 := s.ctlAt (offObs c + 0x28)

/-- Count a snapshot in OSTAT, modulo 2^16. -/
def State.countSnap (s : State) (c : Nat) : State :=
  let o := s.ostat c
  s.setCtl (offObs c + 0x28) ((o &&& 0xFFFF0000) ||| ((o + 1) &&& 0xFFFF))

/-- Two cells to a word. -/
def pairWords : List W32 → List W64
  | [] => []
  | [a] => [(0 : W32) ++ a]
  | a :: b :: l => (b ++ a) :: pairWords l

/-- A hardware loop has closed (R424). -/
def State.loopClosed (s : State) (c : Nat) : State :=
  if s.obsBit c 3 then
    let s := (s.modCore c (fun k => { k with obs := { k.obs with snap := k.obs.bcm } })).countSnap c
    if s.obsBit c 4 && s.obsBit c 0 then
      s.traceLossy 0 1 c (pairWords (SMap.getMany 0 (s.core c).obs.snap 0 256))
    else s
  else s

/-! ## Trap causes (R55) -/

def cIllegalEncoding : BitVec 8 := 0x01
def cIllegalOperand : BitVec 8 := 0x02
def cPrivilege : BitVec 8 := 0x04
def cFolioMiss : BitVec 8 := 0x08
def cFolioEnd : BitVec 8 := 0x09
def cLanding : BitVec 8 := 0x0A
def cTargetAlign : BitVec 8 := 0x0B
def cDataAlign : BitVec 8 := 0x10
def cAccess : BitVec 8 := 0x11
def cPageFault : BitVec 8 := 0x12
def cClasp : BitVec 8 := 0x13
def cAccDeadlock : BitVec 8 := 0x18
def cAccFreeUnowned : BitVec 8 := 0x19
def cMxReset : BitVec 8 := 0x1A
def cFormat : BitVec 8 := 0x1B
def cDivergeOverflow : BitVec 8 := 0x28
def cLoopStack : BitVec 8 := 0x29
def cBkpt : BitVec 8 := 0x30
def cBundleClass : BitVec 8 := 0x40
def cBundleResource : BitVec 8 := 0x41
def cReplayDiverge : BitVec 8 := 0x48

/-! ## What an instruction sees as it issues -/

/-- The issuer of an instruction and the state it reads at issue (R41). -/
structure Env where
  c : Nat
  w : Nat
  who : Who
  core : Core
  warp : Warp
  blk : Block
  /-- the issuing path; of a strand, its one path -/
  path : Path
  alt : Bool
  /-- issued in a slot of a bundle -/
  strand : Bool
  /-- first lane of the lane space and its size (R41) -/
  base : Nat
  size : Nat
  /-- ActiveLanes() (R57) -/
  act : W32
  /-- the mask of a decode cause (R56, R160) -/
  dec : W32
  /-- offset of the instruction, or of its bundle -/
  pc : W32
  /-- offset of what follows in sequence -/
  next : W32
  /-- counter behind free values -/
  nonce : Nat
  /-- hazard check: would the instruction read this register: a w register when true (R422)? -/
  probe : Option (Bool × Nat)

/-- The lanes in which the guard of an instruction is true (R44). -/
def Warp.guard (w : Warp) (g : Guard) : W32 :=
  let q := if g.pred == 15 then 0xFFFFFFFF else SMap.get 0 w.q g.pred.toNat
  if g.pn then ~~~q else q

/-- The lowest cluster a strand of n clusters owns (R12). -/
def lowCluster (n : Nat) : Nat := 4 - n

/-- The lanes of a strand's clusters. -/
def ownedLanes (n : Nat) : W32 := 0xFFFFFFFF <<< (8 * lowCluster n)

/-- The lanes [b, b + n). -/
def laneRange (b n : Nat) : W32 := (BitVec.ofNat 32 (2 ^ n - 1)) <<< b

/-- The warp as the instruction of a path reads it: as it stands, or as it stood when an instruction that waits issued
(R41, R57, R128). -/
def Warp.seen (w : Warp) (alt : Bool) : Warp :=
  match (w.path alt).held with
  | some h => { w with v := h.v, w := h.w, q := h.q, rotbase := h.rotbase }
  | none => w

/-- The slots of the bundle at a strand's path that have issued while a later one waits (R57). -/
def Path.done (p : Path) : Nat := match p.held with | some h => h.done | .none => 0

/-- The core as the slots of a bundle read it: with the ports as they stood when the bundle issued (R31, R36, R41). -/
def Core.seen (k : Core) (p : Path) : Core :=
  match p.held with
  | some h =>
    if h.done = 0 then k
    else { k with strand := k.strand.map (fun t => { t with ports := h.ports, bypass := h.bypass }), xport := h.xport }
  | .none => k

/-- The count behind free values at the issue of a path's instruction. -/
def Path.nonce (p : Path) (now : Nat) : Nat := match p.held with | some h => h.nonce | .none => now

/-- The issuer that the state has selected, with the guard of its instruction; none when there is no such
path, slot or block. -/
def State.env (s : State) (g : Guard) : Option Env :=
  let k := s.core s.sel.core
  match k.warps.find? s.sel.warp with
  | none => none
  | some w =>
    match k.blocks.find? w.rix with
    | none => none
    | some b =>
      let n := match k.strand with | some t => t.clusters | none => 0
      let mk (alt strand : Bool) (base size : Nat) (lanes act dec : W32) : Env :=
        ⟨s.sel.core, s.sel.warp, s.sel.who, k.seen (w.path alt), w.seen alt, b, w.path alt, alt, strand, base, size,
          lanes &&& act, dec, (w.path alt).pc, (w.path alt).pc + 8, (w.path alt).nonce s.nonce, Option.none⟩
      match s.sel.who with
      | .none => none
      | .path alt =>
        if (w.path alt).live then some (mk alt false 0 32 (w.path alt).mask ((w.seen alt).guard g) 0xFFFFFFFF) else none
      | .lane l => if k.strand.isSome then some (mk false true l 1 (bit l) ((w.seen false).guard g) (ownedLanes n)) else none
      | .vector j m =>
        if k.strand.isSome then
          some (mk false true (8 * j) (8 * m) (laneRange (8 * j) (8 * m)) ((w.seen false).guard g) (ownedLanes n))
        else none
      | .core =>
        if k.strand.isSome then
          some (mk false true (8 * lowCluster n) (8 * n) (ownedLanes n) ((w.seen false).guard g) (ownedLanes n))
        else none
      | .control =>
        if k.strand.isSome then
          some (mk false true (8 * lowCluster n) (8 * n) (ownedLanes n)
            (if ((w.seen false).guard g).getLsbD (8 * lowCluster n) then 0xFFFFFFFF else 0) (ownedLanes n))
        else none

/-- The results in flight as the instruction issued (R128). -/
def Env.inFlight (e : Env) : List Result := match e.path.held with | some h => h.results | none => e.warp.results

/-- What the instruction has read at its issue, for the time that it waits. -/
def Env.hold (e : Env) : Option Seen :=
  match e.who with
  | .path _ => some ⟨e.warp.v, e.warp.w, e.warp.q, e.warp.rotbase, e.inFlight, e.nonce, [], [], 0, 0⟩
  | _ => none

/-- The elected lane of an instruction that acts once: the lowest lane of ActiveLanes(), or in a core slot
lane 0 of the lowest owned cluster (R53). -/
def Env.elected (e : Env) : Option Nat :=
  if e.who == .core then (if e.act.getLsbD e.base then some e.base else none) else lowest e.act

/-- The role descriptor of the issuing warp. -/
def Env.role (e : Env) : Role := e.blk.lr.roles.getD e.warp.role ⟨0, 0xFFFFFFFF, 0, 0⟩

/-! ## How an instruction ends -/

/-- Why an instruction ends without its effect: a trap (R57), with what the machine notes of it, or a wait that repeats it once the reason has
cleared, after ask has told the machine what it waits for. -/
inductive Stop where
  | trap (cause : BitVec 8) (lanes : W32)
  | trapWith (cause : BitVec 8) (lanes : W32) (note : State → State)
  | wait (why : Park) (ask : State → State)

/-- The effect of an instruction for an issuer on the state. -/
abbrev Body := Env → State → Except Stop State

/-- Trap unless b holds. -/
def need (b : Bool) (cause : BitVec 8) (lanes : W32) : Except Stop Unit :=
  if b then .ok () else .error (.trap cause lanes)

/-- An operand or value found illegal from the fields traps with all lanes (R56). -/
def Env.field (e : Env) (b : Bool) : Except Stop Unit := need b cIllegalOperand e.dec

/-- An encoding that is illegal for this issuer traps with all lanes (R4, R56). -/
def Env.enc (e : Env) (b : Bool) : Except Stop Unit := need b cIllegalEncoding e.dec

/-- Wait for a reason, unless it has already been satisfied for this instruction. -/
def Env.await (e : Env) (why : Park) (ask : State → State) : Except Stop Unit :=
  if e.path.granted.contains why then .ok () else .error (.wait why ask)

/-! ## Results in flight -/

/-- The cycles by which an instruction's last processing cycle follows its issue, as its latency counts (R12, R114). -/
def Env.lag (e : Env) : Nat :=
  if e.strand then 0
  else match e.core.strand with | some t => (if e.warp.strand then 0 else if t.clusters = 0 then 0 else 1) | none => 0

/-- Put an in-flight result of the issuing warp (R128, R150). A result of fixed latency lands lat cycles
after issue, counted from the last cycle of the processing span (R114); an interlocked one at a free time
later (assumption 6). -/
def Env.put (e : Env) (unit lat : Nat) (lock : Bool) (dest : Dest) (regs : List Nat) (lanes : W32)
    (vals : List W32) (s : State) : State :=
  let rem := if lock then 1 + lat + Config.latency s.nonce else lat + e.lag
  (s.modWarp e.c e.w (fun w =>
    { w with results := w.results ++ [⟨rem, lock, unit, dest, regs, lanes, vals, 0, 0, s.nonce, [], []⟩] })).tickNonce

/-- The words of a v result in program order: each lane of lanes, its registers in order. -/
def laneVals (lanes : W32) (f : Nat → List W32) : List W32 := (lanesOf lanes).flatMap f

/-- Write the words of one lane to its registers. -/
def Warp.setLane (w : Warp) (lane : Nat) : List Nat → List W32 → Warp
  | r :: rs, x :: xs => Warp.setLane { w with v := SMap.set 0 w.v (32 * r + lane) x } lane rs xs
  | _, _ => w

/-- Write a v result in its lanes. -/
def Warp.setLanes (w : Warp) (regs : List Nat) : List Nat → List W32 → Warp
  | [], _ => w
  | l :: ls, vals => (w.setLane l regs (vals.take regs.length)).setLanes regs ls (vals.drop regs.length)

/-- Write w registers. -/
def Warp.setW (w : Warp) : List Nat → List W32 → Warp
  | r :: rs, x :: xs => Warp.setW { w with w := SMap.set 0 w.w r x } rs xs
  | _, _ => w

/-- Write a predicate in the lanes of a mask (R44). -/
def Warp.setQ (w : Warp) (k : Nat) (lanes m : W32) : Warp :=
  { w with q := SMap.set 0 w.q k ((SMap.get 0 w.q k &&& ~~~lanes) ||| (m &&& lanes)) }

/-- OR flags into each lane's sticky flags (R96). -/
def Warp.orFlags (w : Warp) : List Nat → List W32 → Warp
  | l :: ls, x :: xs => Warp.orFlags { w with flags := SMap.set 0 w.flags l (SMap.get 0 w.flags l ||| x) } ls xs
  | _, _ => w

/-- Write a result where it goes; a port value goes to the strand, not to the warp (R6, R128). -/
def Warp.land (w : Warp) (r : Result) : Warp :=
  match r.dest with
  | .v => w.setLanes r.regs (lanesOf r.lanes) r.vals
  | .w => w.setW r.regs r.vals
  | .pred => match r.regs with | k :: _ => w.setQ k r.lanes (r.vals.getD 0 0) | [] => w
  | .port => w
  | .flags => w.orFlags (lanesOf r.lanes) r.vals
  | .flagsClear => { w with flags := (lanesOf r.lanes).foldl (fun m l => SMap.set 0 m l 0) w.flags }
  | .copyClear => w
  | .marbleClear => w
  | .accFree => w

/-- Write n words at the lanes of one port. -/
def setPort (m : SMap W32) (p : Nat) : List Nat → List W32 → SMap W32
  | l :: ls, x :: xs => setPort (SMap.set 0 m (32 * p + l) x) p ls xs
  | _, _ => m

/-- The low word of each lane of a result, which its bypass port takes, 1 or 0 of a predicate and the one value of a w result
(R36, R152; assumption 22). -/
def Result.lowWords (r : Result) : List W32 :=
  match r.dest with
  | .v => (List.range (lanesOf r.lanes).length).map (fun i => r.vals.getD (i * r.regs.length) 0)
  | .w => (lanesOf r.lanes).map (fun _ => r.vals.getD 0 0)
  | .pred => (lanesOf r.lanes).map (fun l => if (r.vals.getD 0 0).getLsbD l then 1 else 0)
  | .port => r.vals
  | _ => []

/-- A unit's bypass port takes a result in its lanes (R36, R152). -/
def Strand.deliver (t : Strand) (r : Result) : Strand :=
  if r.unit < 4 then { t with bypass := setPort t.bypass r.unit (lanesOf r.lanes) r.lowWords } else t

/-- A landing result sets the bypass port of its unit in its lanes, and a move to a port its port (R31, R152). -/
def Strand.land (t : Strand) (r : Result) : Strand :=
  match r.dest with
  | .port => { t with ports := setPort t.ports (r.regs.getD 0 0) (lanesOf r.lanes) r.vals }
  | .v => t.deliver r
  | .w => t.deliver r
  | .pred => t.deliver r
  | _ => t

/-- Port b4 after a translation status has landed: the lowest lane's, with ALL (R359). -/
def Result.port4 (r : Result) : W32 :=
  r.vals.headD 0 ||| (if r.vals.all (fun x => x.getLsbD 0) then 0x80000000 else 0)

/-- The error fields of a block's STATUS are cleared (R233, R314). -/
def CStat.clear (x : CStat) : CStat := { x with err := false, cnt := 0, tag := 0, cause := 0, va := 0 }

/-- What a landing result does to its warp's block (R233, R262, R314). -/
def Block.land (b : Block) (r : Result) : Block :=
  match r.dest with
  | .copyClear => { b with cs := b.cs.clear }
  | .marbleClear => { b with ms := ⟨false, 0, 0, 0⟩ }
  | .accFree => { b with banks := b.banks.filter (fun p => !r.regs.contains p.1) }
  | _ => b

/-- What a landing result does to the block of warp w of a core. -/
def Core.landBlock (k : Core) (w : Nat) (r : Result) : Core :=
  match k.warps.find? w with
  | some x => k.modBlock x.rix (fun b => b.land r)
  | none => k

/-- Land a result of warp w of core c. -/
def State.land (s : State) (c w : Nat) (r : Result) : State :=
  let s := (s.modWarp c w (fun x => x.land r)).modCore c (fun k => k.landBlock w r)
  let s := if r.unit = 4 then s.modCore c (fun k => { k with xport := r.port4 }) else s
  match (s.core c).strand, (s.core c).warps.find? w with
  | some t, some x => if t.warp = w ∧ x.hand = none then s.modStrand c (fun t => t.land r) else s
  | _, _ => s

/-- Latencies after a cycle: interlocked results go on, the others unless they are held. -/
def countResults (held : Bool) (l : List Result) : List Result :=
  l.map (fun r => if r.lock || !held then { r with rem := r.rem - 1 } else r)

/-- Nothing of a result is outstanding, and its latency has passed. -/
def Result.ready (r : Result) : Bool := r.rem == 0 && r.due == 0

/-! ## Paths -/

/-- The logical folio slot that holds offset pc (R122); a range that passes 2^32 does not wrap (R116; assumption 131). -/
def Block.slotOf (b : Block) (pc : W32) : Option Nat :=
  (List.find? (fun p : Nat × Folio => decide (p.2.start ≤ pc.toNat ∧ pc.toNat < p.2.start + p.2.len)) b.folios).map (·.1)

/-- The folio of a slot number. -/
def Block.folio (b : Block) (sl : Nat) : Option Folio := KMap.find? b.folios sl

/-- The path goes on in sequence: the next fetch follows the folio that held this one (R122). -/
def Path.advance (p : Path) (b : Block) (next : W32) : Path :=
  { p with pc := next, home := b.slotOf p.pc, yielded := false, granted := [], age := 0, faults := [], held := .none }

/-- The path goes on elsewhere after a transfer of control, a merge or a return (R122). -/
def Path.jump (p : Path) (pc : W32) : Path :=
  { p with pc := pc, home := .none, yielded := false, granted := [], age := 0, faults := [], held := .none }

/-- Remove threads from a path; without threads it is dead (R138, R139). -/
def Path.without (p : Path) (m : W32) : Path :=
  { p with mask := p.mask &&& ~~~m, live := p.live && (p.mask &&& ~~~m != 0) }

/-! ## Taking a trap -/

/-- A trap handler's registers v360-v383 are those of the switched-out bank, and the program's go into it
(R159, R161). -/
def Warp.swapBanks (w : Warp) : Warp :=
  let hi := w.v.filter (fun p => 360 * 32 ≤ p.1)
  let lo := w.v.filter (fun p => p.1 < 360 * 32)
  let whi := w.w.filter (fun p => 56 ≤ p.1)
  let wlo := w.w.filter (fun p => p.1 < 56)
  { w with v := lo ++ w.bankV, w := wlo ++ w.bankW, bankV := hi, bankW := whi }

/-- A block whose warps issue: it has neither ended nor been halted. -/
def Block.runs (b : Block) : Bool := b.dead.isNone && b.halt == 0

/-- Is the block of a resident index running? -/
def Core.rixRuns (k : Core) (rix : Nat) : Bool := match k.blocks.find? rix with | some b => b.runs | none => false

/-- A strand that is stopped by snapshot (R156). -/
def Strand.snapped (t : Strand) : Bool :=
  match t.st with
  | .run => false
  | .expand _ => false
  | _ => true

/-- Do two accesses share a byte of one space? -/
def Access.meets (a b : Access) : Bool :=
  a.space == b.space && a.lanes.any (fun x => b.lanes.any (fun y => decide (x.ea < y.ea + b.n ∧ y.ea < x.ea + a.n)))

/-- A later access that cannot be performed before one that is to be performed again: behind an acquire, as a release, or on the
bytes of it (R182, R190, R199). -/
def Strand.behind (t : Strand) (d : Deferred) : Bool :=
  t.deferred.any (fun x => x.redo && decide (x.acc.id < d.acc.id) && (x.acc.acq || d.acc.rel || x.acc.meets d.acc))

/-- The access stays until the strand resumes: it met a fault, or stands behind one that did (R156, R158; assumption 127). -/
def Strand.stays (t : Strand) (d : Deferred) : Bool := d.redo || t.behind d

/-- The strand freezes by snapshot: the state in which it stands still, and its first frozen cycle unless it was frozen
already (R156). -/
def Strand.freeze (t : Strand) (now : Nat × Nat) (st : StrandState) : Strand :=
  { t with st, frozen := if t.snapped then t.frozen else now }

/-- The strand issues nothing further and waits for what is in flight (R148). -/
def Strand.expands (t : Strand) : Bool := match t.st with | .expand _ => true | _ => false

/-- The park of a path whose instruction has had its effect, or is beyond recall. -/
def Park.kept : Park → Bool
  | .nop _ => true
  | .mode _ => true
  | .sc _ => true
  | .exit => true
  | .eret => true
  | _ => false

/-- The instruction of a path parked for this reason is abandoned at a halt and issues again on resumption
(assumption 40). -/
def Park.abandons : Park → Bool
  | .presence => true
  | .requests _ => true
  | .phase .. => true
  | .mx => true
  | .banks => true
  | .accfree => true
  | .engine => true
  | .kick => true
  | .token => true
  | .folld => true
  | .sync _ => true
  | .collapse .. => true
  | .engines => true
  | .domset => true
  | .fetch => true
  | .interlock => true
  | .fma => true
  | .capacity => true
  | _ => false

/-- The warp stands in the core's strand and runs no handler: bundles issue for it. -/
def Warp.bundled (w : Warp) : Bool := w.strand && w.hand.isNone

/-- A path that a trap of its warp suspends: the instruction that it waits at is withdrawn and issues again after
the handler (assumption 44). -/
def Path.suspend (p : Path) : Path :=
  match p.park with
  | some k => if k.kept then p else { p with park := .none, ptail := 0, held := if p.done = 0 then .none else p.held }
  | .none => p

/-- Take what a path's waiting instruction has asked of a core out of its queues. -/
def Core.withdraw (k : Core) (w : Nat) (alt : Bool) (rix : Nat) : Core :=
  let claimed := (k.mx.allocq.filter (fun x => x.warp = w ∧ x.alt = alt)).flatMap (fun x => (List.range x.n).map (x.base + ·))
  let slots := (k.floads.filter (fun f => f.warp = w ∧ f.alt = alt)).map (·.slot)
  let toks := (k.caccept.filter (fun q => q.warp = w ∧ q.alt = alt)).foldl
    (fun m q => match q.token with | some t => m ||| bit t | none => m) (0 : W32)
  { (k.modBlock rix (fun b => { b with
      claims := b.claims.filter (fun a => !claimed.contains a), loading := b.loading.filter (fun a => !slots.contains a)
      cs := { b.cs with tokens := b.cs.tokens &&& ~~~toks } })) with
    caccept := k.caccept.filter (fun q => !(q.warp == w && q.alt == alt))
    mar := { k.mar with accepting := k.mar.accepting.filter (fun q => !(q.warp == w && q.alt == alt)) }
    mx := { k.mx with
      queue := k.mx.queue.filter (fun x => x.instr.isNone || !(x.warp == w && x.alt == alt))
      allocq := k.mx.allocq.filter (fun x => !(x.warp == w && x.alt == alt))
      freeq := k.mx.freeq.filter (fun x => !(x.warp == w && x.alt == alt)) }
    floads := k.floads.filter (fun f => !(f.warp == w && f.alt == alt))
    hashes := k.hashes.filter (fun h => !(h.1 == w && h.2.1 == alt))
    walks := k.walks.map (fun x => { x with who := x.who.filter (fun a =>
      match a with
      | .path y b => !(y == w && b == alt)
      | .folio y b => !(y == w && b == alt)
      | _ => true) }) }

/-- Take what a path's waiting instruction has asked of the machine back. -/
def State.withdraw (s : State) (c w : Nat) (alt : Bool) (rix : Nat) : State :=
  let s := s.modCore c (fun k => k.withdraw w alt rix)
  { s with
    cores := s.cores.map (fun p => (p.1, { p.2 with
      promo := p.2.promo.filter (fun x => !(x.src == c && x.warp == w && x.alt == alt)) }))
    invals := s.invals.filter (fun v => !(v.core == c && v.who == some (w, alt))) }

/-- A block ends by a cause (R159, R162): it issues nothing more, and an endpaper event is written (R430). -/
def State.killBlock (s : State) (c r : Nat) (cause second : Nat) (pc : W64) : State :=
  match (s.core c).blocks.find? r with
  | none => s
  | some b =>
    if b.dead.isSome then s
    else
      (s.modBlock c r (fun b => { b with dead := some (cause, second, pc) })).endpaper (quireOf c) 3 c
        (cause + 256 * second) pc.toNat b.bno

/-- The warp enters the handler of its role with the trapping path's mask (R159), or its block ends: when
the role has no handler (R159) or the warp runs its handler already (R162). A strand's results in flight
are kept by snapshot and its handler runs on the threads of its clusters (R156, R160). -/
def State.enterTrap (s : State) (c w : Nat) (alt : Bool) (cause : BitVec 8) (pc : W32) (lanes : W32) : State :=
  match (s.core c).warps.find? w with
  | none => s
  | some x =>
    match (s.core c).blocks.find? x.rix with
    | none => s
    | some b =>
      let full : W64 := b.lr.code + pc.setWidth 64
      let entry := (b.lr.roles.getD x.role ⟨0, 0xFFFFFFFF, 0, 0⟩).handler
      match x.hand with
      | some h => s.killBlock c x.rix h.cause.toNat cause.toNat full
      | none =>
        if entry = 0xFFFFFFFF then s.killBlock c x.rix cause.toNat 0 full
        else
          let mask := if x.strand then ownedLanes (match (s.core c).strand with | some t => t.clusters | none => 4)
            else (x.path alt).mask
          let h : Handler := ⟨x.pri.suspend, x.alt.suspend, !alt, x.recs, x.loops, mask, x.priv, x.strand,
            if x.strand then x.results else [], cause, pc, x.rotbase, x.exited⟩
          let y := { x.swapBanks with
            hand := some h, trapcause := cause.setWidth 32, trappc := full, traplanes := lanes, priv := true
            recs := [], loops := [], results := [], wait := 0, sw := false
            pri := { (Path.none.jump entry) with live := true, mask := mask }, alt := Path.none }
          let s := ((s.withdraw c w false x.rix).withdraw c w true x.rix).modWarp c w (fun _ => y)
          if x.strand then
            s.modStrand c (fun t => t.freeze ((s.core c).ck.cycle, (s.core c).ck.edge)
              (match t.st with | .expand _ => .handlerExpand | _ => .handler))
          else s

/-- Take a trap of the instruction at pc on a path (R159): at once for a strand or when the warp has no
result in flight, otherwise after they have landed. -/
def State.takeTrap (s : State) (c w : Nat) (alt : Bool) (cause : BitVec 8) (pc : W32) (lanes : W32) : State :=
  match (s.core c).warps.find? w with
  | none => s
  | some x =>
    if (x.strand && x.hand.isNone) || x.results.isEmpty then s.enterTrap c w alt cause pc lanes
    else s.modPath c w alt (fun p => { p with park := some (.trap cause pc lanes) })

/-- The causes of TRAP and BKPT, whose trap follows their instruction: %trappc names what comes next (R153, R160). -/
def trapsAfter (cause : BitVec 8) : Bool := cause == cBkpt || decide (0x80 ≤ cause.toNat)

/-! ## Returning from a trap -/

/-- The results that a strand's snapshot holds, without those of accesses that stay until it resumes (R158). -/
def Handler.landed (h : Handler) (t : Strand) : List Result :=
  h.snap.filter (fun r => !t.deferred.any (fun d => t.stays d && d.acc.id == r.id))

/-- The result is of a strand's access that stays until the strand resumes (R158). -/
def Core.again (k : Core) (r : Result) : Bool :=
  match k.strand with | some t => t.deferred.any (fun d => t.stays d && d.acc.id == r.id) | none => false

/-- The accesses of a strand that met a fault are to be performed again (R158). -/
def Strand.again (t : Strand) : Strand := { t with deferred := t.deferred.map (fun d => { d with redo := false }), faults := [] }

/-- The handler of a strand leaves %trappc as it was set at its entry. -/
def Warp.keepsPc (x : Warp) (k : Core) : Bool :=
  match x.hand, k.blocks.find? x.rix with
  | some h, some b => !h.strand || (x.trappc - b.lr.code).setWidth 32 == h.pc
  | _, _ => true

/-- What a strand's snapshot waits for has completed into it (R156), but for accesses to be performed again. -/
def Warp.snapLanded (x : Warp) (k : Core) : Bool :=
  match x.hand, k.strand with
  | some h, some t => t.deferred.all t.stays && (h.landed t).all (fun r => r.due == 0)
  | _, _ => true

/-- Return from a handler (R161): the program's bank, paths, records and loops come back, the handler's
privilege is dropped, and fetch resumes at %trappc. A strand whose %trappc still names what trapped resumes by
R156 in its next cycle; when the handler has changed it, the snapshot is discarded and the strand resumes with its results
landed. -/
def State.leaveTrap (s : State) (c w : Nat) : State :=
  match (s.core c).warps.find? w with
  | none => s
  | some x =>
    match (s.core c).blocks.find? x.rix, x.hand with
    | some b, some h =>
      let pc : W32 := (x.trappc - b.lr.code).setWidth 32
      let fix (p : Path) : Path := { (p.jump pc) with park := none }
      let y := { x.swapBanks with
        hand := none, priv := h.priv, recs := h.recs, loops := h.loops, wait := 0, sw := false
        pri := (if h.onPri then fix h.pri else h.pri).without x.exited
        alt := (if h.onPri then h.alt else fix h.alt).without x.exited }
      match h.strand, (s.core c).strand with
      | true, some t =>
        if pc = h.pc then
          (s.modWarp c w (fun _ => { y with
            results := h.snap, rotbase := h.rotbase, pri := { h.pri with granted := [], faults := [], age := 0 } })).modStrand c
            (fun t => { t with st := if t.st == .handlerExpand then .resumeExpand else .resume })
        else
          ((h.landed t).foldl (fun s r => s.land c w r) (s.modWarp c w (fun _ => { y with
            results := h.snap.filter (fun r => t.deferred.any (fun d => !d.redo && d.acc.id == r.id)) }))).modStrand c
            (fun t => { t with
              st := .run
              deferred := t.deferred.filter (fun d => !d.redo), faults := [] })
      | _, _ => s.modWarp c w (fun _ => y)
    | _, _ => s

/-! ## Issue -/

/-- The number of clusters the SIMT decoder owns (R12). -/
def Core.simtClusters (k : Core) : Nat :=
  match k.strand with
  | some t => 4 - t.clusters
  | none => 4

/-- Charges of the cycles that a warp instruction takes, its first cycle first (R12, R392): 4 clusters in
⌈4 / n⌉ cycles; a handler of a strand runs on the strand's clusters in one cycle (R160). -/
def Core.spanCharges (k : Core) (hand : Bool) (x : Cost) : List Nat :=
  let n := k.simtClusters
  if !x.clustered then
    x.weight :: (if hand || n = 4 then [] else [0])
  else if hand then [x.weight * (4 - n)]
  else if n = 4 then [4 * x.weight]
  else if x.each then [n * x.weight, (4 - n) * x.weight] else [4 * x.weight, 0]

/-- Book an issue of the SIMT decoder: what it names, its charges and its class in execute (R378, R392). -/
def Core.bookIssue (k : Core) (w : Nat) (alt : Bool) (pc : W32) (tcr hand : Bool) (x : Cost) : Core :=
  let ch := k.spanCharges hand x
  let cls := if tcr then min 3 (x.cls + 1) else x.cls
  { k with ck := { k.ck with
      named := k.ck.named ++ [(false, w, alt, pc)]
      exec := k.ck.exec ++ [(false, cls, if x.lat = 0 then 1 else x.lat + (ch.length - 1))]
      coreCharge := k.ck.coreCharge + ch.headD 0
      span := ch.drop 1
      spanOn := k.simtClusters
      progress := true
      stage := .done } }

/-- The instruction at Q + 8B - 8 of the innermost loop has issued (R142). -/
def Warp.atLoopEnd (w : Warp) (pc : W32) : Bool :=
  match w.loops with
  | l :: _ => pc == l.q + BitVec.ofNat 32 (8 * l.len) - 8
  | [] => false

/-- Where the loops that end at an offset go back to: the innermost that has executions left (R142). -/
def backTo (stop : W32) : List LoopEntry → Option W32
  | l :: rest => if l.q + BitVec.ofNat 32 (8 * l.len) ≠ stop then none else if 1 < l.e then some l.q else backTo stop rest
  | [] => none

/-- Would the back-edge after the instruction at pc go to an offset in no resident folio (R122)? -/
def Warp.edgeMiss (w : Warp) (b : Block) (pc : W32) : Bool :=
  match backTo (pc + 8) w.loops with
  | some q => (b.slotOf q).isNone
  | none => false

/-- A park that stands after the effect of its instruction. -/
def Park.after (r : Park) : Bool :=
  match r with
  | .mode _ => true
  | .nop _ => true
  | .sc _ => true
  | _ => false

/-- What follows the effect of an instruction that a path issued: the warp's wait for results when SW is set (R45, R128),
and the end of a loop body (R142). A path that waits at its instruction for it to complete takes these when it goes on. -/
def Warp.retire (w : Warp) (alt : Bool) (pc : W32) (tail : BitVec 2) (atEnd : Bool) : Warp :=
  let p := w.path alt
  let waits := match p.park with | some r => !r.after | none => false
  let w := if p.park.isSome then w.setPath alt { p with ptail := tail } else w
  let w := if tail.getLsbD 1 && !waits && !(w.strand && w.hand.isNone) then { w with sw := true } else w
  if atEnd && !(p.park.isSome && p.pc == pc) then { w with edge := some alt } else w

/-- The state in which an instruction has its effect: a warp's path has advanced past it. A slot of a bundle has its
effect only, its bundle does the rest. -/
def Env.enter (e : Env) (s : State) : State :=
  match e.who with
  | .path alt => s.modPath e.c e.w alt (fun p => p.advance e.blk e.next)
  | _ => s

/-- The state after the effect: a warp's instruction is booked, and its SW bit and the end of a loop body count. -/
def Env.complete (e : Env) (x : Cost) (g : Guard) (t : State) : State :=
  match e.who with
  | .path alt =>
    (t.modWarp e.c e.w (fun w => w.retire alt e.pc g.tail (e.warp.atLoopEnd e.pc))).modCore e.c
      (fun k => k.bookIssue e.w alt e.pc (g.tail.getLsbD 0) (e.warp.strand && e.warp.hand.isSome) x)
  | _ => t

/-- The SIMT decoder has made its choice of the cycle, whether or not an effect followed. -/
def Env.chosen (e : Env) (s : State) : State :=
  match e.who with
  | .path _ => s.modClock e.c (fun k => { k with stage := .done })
  | _ => s

/-- The trap of TRAP or BKPT, which follows the instruction: the path has gone past it, and past the end of a loop body
that it closes, before the handler is entered (R142, R160). -/
def Env.trapNext (e : Env) (s : State) (cause : BitVec 8) (lanes : W32) : State :=
  match e.who with
  | .path alt =>
    (e.enter s).modWarp e.c e.w (fun w =>
      { (w.modPath alt (fun p => { p with park := some (.trap cause e.next lanes) })) with
        edge := if e.warp.atLoopEnd e.pc then some alt else w.edge })
  | _ => s.takeTrap e.c e.w e.alt cause e.next lanes

/-- The state after a trap of an instruction: at the instruction, or after it for TRAP and BKPT. -/
def Env.trapped (e : Env) (s : State) (cause : BitVec 8) (lanes : W32) : State :=
  if trapsAfter cause then e.trapNext s cause lanes else s.takeTrap e.c e.w e.alt cause e.pc lanes

/-- A path waits at its instruction; what it has read at its issue stays, but for an MX instruction, which issues as it
starts, and one that waits for the flags, which issues after the results before it (R41, R57, R97, R269). -/
def Env.waiting (e : Env) (s : State) (why : Park) : State :=
  s.modWarp e.c e.w (fun w => { (w.modPath e.alt (fun p => { p with
    park := some why, held := if why == .mx || why == .flags || why == .fma then none else e.hold })) with wait := 0 })

/-- The state after an instruction that ends without its effect: its trap is taken, or its path waits at it. -/
def Env.stopped (e : Env) (s : State) : Stop → State
  | .trap cause lanes => e.chosen (e.trapped s cause lanes)
  | .trapWith cause lanes note => e.chosen (e.trapped (note s) cause lanes)
  | .wait why ask => e.chosen (e.waiting (ask s) why)

/-- The back-edge after a warp's instruction would go to an offset in no resident folio (R122). -/
def Env.edgeMissed (e : Env) : Bool :=
  match e.who with
  | .path _ => e.warp.edgeMiss e.blk e.pc
  | _ => false

/-- Issue an instruction for the selected issuer. A warp's path advances past it before its effect, which
may move the path elsewhere; a trap or a wait leaves the path at it. -/
def issue (x : Cost) (g : Guard) (body : Body) (s : State) : Host.Outcome State Fault Refusal :=
  match s.env g with
  | none => .fault .noIssuer
  | some e =>
    match (if e.edgeMissed then .error (.trap cFolioMiss e.path.mask) else body e (e.enter s)) with
    | .ok t => .next (e.complete x g t)
    | .error x => .next (e.stopped s x)

/-- The parked path goes on: the wait is over and counts as satisfied for the instruction it repeats. -/
def State.wake (s : State) (c w : Nat) (alt : Bool) : State :=
  s.modPath c w alt (fun p =>
    match p.park with
    | some why => { p with park := none, granted := p.granted ++ [why] }
    | none => p)

/-- A path whose instruction had its effect and then waited goes on. -/
def State.resume (s : State) (c w : Nat) (alt : Bool) : State :=
  s.modPath c w alt (fun p => { p with park := none, ptail := 0 })

/-- The instruction that a path waits at has completed: the path goes on in sequence, with its SW bit and
the end of a loop body in force; a strand goes on with its next bundle. -/
def State.finish (s : State) (c w : Nat) (alt : Bool) : State :=
  match (s.core c).warps.find? w with
  | none => s
  | some x =>
    if x.strand && x.hand.isNone then s.modPath c w alt (fun p => { p with park := none, ptail := 0 })
    else
      match (s.core c).blocks.find? x.rix with
      | none => s
      | some b =>
        let p := x.path alt
        let y := { (x.setPath alt { (p.advance b (p.pc + 8)) with park := none, ptail := 0 }) with
          sw := x.sw || p.ptail.getLsbD 1 }
        s.modWarp c w (fun _ => if x.atLoopEnd p.pc then { y with edge := some alt } else y)

/-- Change every path of a core's warps. -/
def Core.mapPaths (k : Core) (f : Warp → Path → Path) : Core :=
  { k with warps := k.warps.map (fun p => (p.1, { p.2 with pri := f p.2 p.2.pri, alt := f p.2 p.2.alt })) }

end Sys2Proof.Machine
end

