-- ==== Sys2Proof/Machine/Operands.lean ====
section
/-! DEFINITION. Operand forms: register codes, pairs and groups, constants, bypass and latched ports, the
source modifier and register rotation (R29 to R41, R144). -/

namespace Sys2Proof.Machine

/-! ## Constants (R35) -/

/-- The 32-bit value of constant source 480 + k in a lane. -/
def const32 (k lane warp : Nat) : W32 :=
  match k with
  | 0 => 0
  | 1 => 1
  | 2 => BitVec.ofNat 32 lane
  | 3 => BitVec.ofNat 32 (lane / 8)
  | 4 => 0xFFFFFFFF
  | 5 => 0x3F000000
  | 6 => 0x3F800000
  | 7 => 0x40000000
  | 8 => 0xBF800000
  | 9 => 0x7F800000
  | 10 => 0x7FC00000
  | 11 => BitVec.ofNat 32 (lane % 8)
  | 12 => BitVec.ofNat 32 warp
  | 13 => 0x80000000
  | 14 => 0x7FFFFFFF
  | 15 => 0x3FB8AA3B
  | _ => 0

/-- A constant as a 64-bit integer operand: $ones is all ones, every other zero-extended. -/
def const64 (k lane warp : Nat) : W64 :=
  if k = 4 then 0xFFFFFFFFFFFFFFFF else (const32 k lane warp).setWidth 64

/-- A constant as an FP64 operand; none where it is illegal. -/
def constF64 (k : Nat) : Option W64 :=
  match k with
  | 5 => some 0x3FE0000000000000
  | 6 => some 0x3FF0000000000000
  | 7 => some 0x4000000000000000
  | 8 => some 0xBFF0000000000000
  | 9 => some 0x7FF0000000000000
  | 10 => some 0x7FF8000000000000
  | 15 => some 0x3FF71547652B82FE
  | _ => none

/-! ## Lanes of the source modifier (R40, R41) -/

/-- The source lane of lane i under a modifier, in the lane space that begins at base. -/
def amodLane (m : BitVec 12) (base i : Nat) : Nat :=
  let sz := 2 ^ (m.extractLsb' 7 3).toNat
  let d := (m.extractLsb' 0 7).toNat
  let i' := i - base
  let b := i' - i' % sz
  let j := i' % sz
  match (m.extractLsb' 10 2).toNat with
  | 0 => i
  | 1 => base + (b + (j + d) % sz)
  | 2 => base + (b + (j ^^^ (d % sz)))
  | _ => base + (b + d % sz)

/-! ## Register names -/

/-- The register that a v code names after rotation (R144). -/
def rotate (rb : W32) (code : Nat) : Nat :=
  let base := (rb.extractLsb' 23 9).toNat
  let size := (rb.extractLsb' 14 9).toNat
  let rrb := (rb.extractLsb' 0 9).toNat
  if base ≤ code ∧ code < base + size then base + (code - base + rrb) % size else code

/-- The registers that n consecutive v codes name (R144). -/
def Env.phys (e : Env) (code n : Nat) : List Nat :=
  (List.range n).map (fun i => rotate e.warp.rotbase (code + i))

/-- A v register the issuer may name (R17, R34). -/
def Env.regOk (e : Env) (r : Nat) : Bool :=
  decide (r < 384) && (decide (r < 8 * e.role.regs) || (e.warp.hand.isSome && decide (360 ≤ r)))

/-- n registers from code, all legal, lying wholly inside or outside the rotating region (R144). -/
def Env.rangeOk (e : Env) (code n : Nat) : Bool :=
  let base := (e.warp.rotbase.extractLsb' 23 9).toNat
  let size := (e.warp.rotbase.extractLsb' 14 9).toNat
  (List.range n).all (fun i => e.regOk (code + i)) &&
    (size == 0 || decide (code + n ≤ base) || decide (base + size ≤ code)
      || (decide (base ≤ code) && decide (code + n ≤ base + size)))

/-- The in-flight variable-latency result that will write register r in a lane. -/
def pendingV (l : List Result) (r lane : Nat) : Option Result :=
  (l.filter (fun x => x.lock && x.dest == .v && x.regs.contains r && x.lanes.getLsbD lane)).getLast?

/-- The word of a result for register r in a lane. -/
def Result.word (x : Result) (r lane : Nat) : W32 :=
  let i := ((lanesOf x.lanes).filter (· < lane)).length
  x.vals.getD (i * x.regs.length + (x.regs.findIdx? (· == r)).getD 0) 0

/-- A v register of a lane as read at issue: a warp's read of a destination that still waits for a
variable-latency result returns the old or the new value, unspecified (R128; assumption 7). -/
def Env.vread (e : Env) (r lane : Nat) : W32 :=
  let old := SMap.get 0 e.warp.v (32 * r + lane)
  match (if e.strand then none else pendingV e.inFlight r lane) with
  | some x => if x.due = 0 && Config.raceBit (e.nonce + 32 * r + lane) then x.word r lane else old
  | none => old

/-- A w register as read at issue, under the same rule. -/
def Env.wread (e : Env) (r : Nat) : W32 :=
  let old := SMap.get 0 e.warp.w r
  match (if e.strand then none
    else (e.inFlight.filter (fun x => x.lock && x.dest == .w && x.regs.contains r)).getLast?) with
  | some x =>
    if x.due = 0 && Config.raceBit (e.nonce + 12288 + r) then
      x.vals.getD ((x.regs.findIdx? (· == r)).getD 0) 0
    else old
  | none => old

/-! ## Ports (R31, R32, R36) -/

/-- The latched port of an operand position of a unit. -/
def portOf (unit pos : Nat) : Option Nat :=
  if unit = 0 ∧ pos < 3 then some (1 + pos)
  else if unit = 1 ∧ pos < 3 then some (4 + pos)
  else if unit = 2 ∧ pos < 2 then some (7 + pos)
  else if unit = 3 ∧ pos < 3 then some (9 + pos)
  else none

/-- The physical banks that blocks hold (R260). -/
def Core.heldBanks (k : Core) : List Nat := k.blocks.flatMap (fun b => b.2.banks.map (fun p => p.2))

/-- Free physical accumulator banks (R260). -/
def Core.freeBanks (k : Core) : List Nat := (List.range 16).filter (fun i => !(k.heldBanks.contains i))

/-- b5, the MX status (R282). -/
def Core.mxStatus (k : Core) : W32 :=
  BitVec.ofNat 32 (min 15 k.mx.allocq.length * 2 ^ 16 + k.freeBanks.length * 2 ^ 8
    + (if k.blocks.any (fun b => b.2.halt == 2) then 4 else 0)
    + (if k.mx.reset ≠ 0 then 2 else 0)
    + (if k.mx.cur.isSome || (match k.mx.reading with | some r => r.asked && !r.held | none => false) then 1 else 0))

/-- Copy STATUS of the block at resident index r, which b6 reads too (R233). -/
def Core.copyStatus (k : Core) (r : Nat) : W32 :=
  match k.blocks.find? r with
  | none => 0
  | some b =>
    BitVec.ofNat 32 ((if b.cs.err then 2 ^ 31 else 0) + min 127 b.cs.cnt * 2 ^ 24
      + (k.copy.filter (fun q => q.2.rix = r)).length * 2 ^ 17
      + (if k.kick ≠ 0 && (match k.kickBy with | some q => q.1 == r | none => false) then 2 ^ 16 else 0)
      + b.cs.tag % 256 * 2 ^ 8 + b.cs.cause % 256)

/-- The issuer can reach the state of a lane: a strand only that of the clusters it owns (R147). -/
def Env.reaches (e : Env) (lane : Nat) : Bool := !e.strand || e.dec.getLsbD lane

/-- A bypass port of a lane (R36); what a port of a cluster that the strand does not own reads as is free (R147;
assumption 105). -/
def Env.bypass (e : Env) (b lane : Nat) : W32 :=
  let src := (lane / 8 + b / 8) % 4 * 8 + lane % 8
  match b % 8 with
  | 4 => e.core.xport
  | 5 => e.core.mxStatus
  | 6 => e.core.copyStatus e.warp.rix
  | u => match e.core.strand with
    | some t => if e.reaches src then SMap.get 0 t.bypass (32 * u + src) else Config.heldWord (e.nonce + 32 * u + src)
    | none => 0

/-- A latched port of a lane (R32). -/
def Env.latched (e : Env) (p lane : Nat) : W32 :=
  match e.core.strand with
  | some t => SMap.get 0 t.ports (32 * p + lane)
  | none => 0

/-! ## Source operands -/

/-- A source operand: the unit and position that read it, its modifier and code, and its kind: 32 bits,
64 bits, or FP64. -/
structure Opnd where
  unit : Nat
  pos : Nat
  amod : BitVec 12
  code : Code
  wide : Bool
  fp : Bool
deriving DecidableEq, Repr

/-- The v or w registers a source reads. -/
def Opnd.vregs (o : Opnd) (e : Env) : List Nat :=
  if o.code.toNat < 384 then e.phys o.code.toNat (if o.wide then 2 else 1) else []

/-- The w registers a source reads. -/
def Opnd.wregs (o : Opnd) : List Nat :=
  if 384 ≤ o.code.toNat ∧ o.code.toNat < 448 then
    (List.range (if o.wide then 2 else 1)).map (fun i => o.code.toNat - 384 + i)
  else []

/-- May the issuer name this source (R32 to R36, R41)? -/
def Opnd.ok (o : Opnd) (e : Env) : Bool :=
  let c := o.code.toNat
  (o.amod == 0 || decide (c < 384)) &&
  (if c < 384 then
    (if o.wide then c % 2 == 0 && e.regOk c && e.regOk (c + 1) else e.regOk c)
  else if c < 448 then !o.wide || c % 2 == 0
  else if c < 480 then e.strand && !o.wide && (c - 448) % 8 != 7
  else if c < 496 then !o.fp || (constF64 (c - 480)).isSome
  else c == 511 && e.strand && !o.wide && (portOf o.unit o.pos).isSome)

/-- The instruction stands in a lane slot of a bundle. -/
def Env.inLane (e : Env) : Bool := match e.who with | .lane _ => true | _ => false

/-- The instruction stands in a vector slot of a bundle. -/
def Env.inVector (e : Env) : Bool := match e.who with | .vector .. => true | _ => false

/-- Is the modifier legal for this issuer (R41)? -/
def Opnd.amodFits (o : Opnd) (e : Env) : Bool :=
  o.amod == 0 || (decide (2 ^ (o.amod.extractLsb' 7 3).toNat ≤ e.size) && !e.inLane)

/-- A strand's read of an interlocked destination that has not landed (R151). In a hazard check: does the
instruction read the register asked about (R422)? -/
def Env.blocked (e : Env) (vr wr : List Nat) : Bool :=
  match e.probe with
  | some (w, r) => if w then wr.contains r else vr.contains r
  | none =>
    e.strand && e.inFlight.any (fun x => x.lock &&
      ((x.dest == .v && x.regs.any vr.contains && x.lanes &&& laneRange e.base e.size != 0)
        || (x.dest == .w && x.regs.any wr.contains)))

/-- Trap unless every source is legal (R4, R41). -/
def Env.sources (e : Env) (l : List Opnd) : Except Stop Unit := do
  e.enc (l.all (fun o => o.amodFits e))
  e.field (l.all (fun o => o.ok e))

/-- Every source is legal for the issuer. -/
def Env.legal (e : Env) (l : List Opnd) : Bool := l.all (fun o => o.amodFits e) && l.all (fun o => o.ok e)

/-- The operand is bypass port b4 (R36). -/
def Opnd.readsB4 (o : Opnd) : Bool := decide (448 ≤ o.code.toNat ∧ o.code.toNat < 480) && o.code.toNat % 8 == 4

/-- An XLATE of the strand has still to land (R360). -/
def Env.xlating (e : Env) : Bool := e.strand && e.inFlight.any (fun x => x.lock && x.unit == 4)

/-- No source waits for an interlocked result (R151). -/
def Env.quiet (e : Env) (l : List Opnd) : Bool :=
  !l.any (fun o => e.blocked (o.vregs e) o.wregs || (o.readsB4 && e.xlating))

/-- A strand waits until the interlocked sources have landed (R151). -/
def Env.landed (e : Env) (l : List Opnd) : Except Stop Unit :=
  if e.quiet l then .ok () else .error (.wait .interlock id)

/-- A strand waits for the w registers it is about to read (R151). -/
def Env.wLanded (e : Env) (regs : List Nat) : Except Stop Unit :=
  if e.blocked [] regs then .error (.wait .interlock id) else .ok ()

/-- The value of a source in a lane, zero-extended to 64 bits (R35, R40, R41, R57). -/
def Opnd.val (o : Opnd) (e : Env) (lane : Nat) : W64 :=
  let c := o.code.toNat
  if c < 384 then
    let src := amodLane o.amod e.base lane
    let lo := e.vread (rotate e.warp.rotbase c) src
    if o.wide then e.vread (rotate e.warp.rotbase (c + 1)) src ++ lo else lo.setWidth 64
  else if c < 448 then
    let lo := e.wread (c - 384)
    if o.wide then e.wread (c - 383) ++ lo else lo.setWidth 64
  else if c < 480 then (e.bypass (c - 448) lane).setWidth 64
  else if c < 496 then
    if o.fp then (constF64 (c - 480)).getD 0
    else if o.wide then const64 (c - 480) lane e.w else (const32 (c - 480) lane e.w).setWidth 64
  else match portOf o.unit o.pos with
    | some p => (e.latched p lane).setWidth 64
    | none => 0

/-- The 32-bit value of a source. -/
def Opnd.val32 (o : Opnd) (e : Env) (lane : Nat) : W32 := (o.val e lane).setWidth 32

/-! ## Destinations -/

/-- D names a v register of the issuer, or an even pair (R33, R34). -/
def Env.vOk (e : Env) (d : Code) (wide : Bool) : Bool :=
  if wide then d.toNat % 2 == 0 && e.regOk d.toNat && e.regOk (d.toNat + 1) else e.regOk d.toNat

/-- Trap unless D names a v register, or an even pair. -/
def Env.dstV (e : Env) (d : Code) (wide : Bool) : Except Stop Unit := e.field (e.vOk d wide)

/-- D names a w register, or an even pair (R33). -/
def wOk (d : Code) (wide : Bool) : Bool := decide (384 ≤ d.toNat ∧ d.toNat < 448) && (!wide || d.toNat % 2 == 0)

/-- Trap unless D names a w register, or an even pair. -/
def Env.dstW (e : Env) (d : Code) (wide : Bool) : Except Stop Unit := e.field (wOk d wide)

/-- Is the code a w register? -/
def isW (d : Code) : Bool := decide (384 ≤ d.toNat ∧ d.toNat < 448)

/-- D names a v or a w register (R33). -/
def Env.vwOk (e : Env) (d : Code) (wide : Bool) : Bool := if isW d then wOk d wide else e.vOk d wide

/-- Trap unless D names a v or a w register. -/
def Env.dstVW (e : Env) (d : Code) (wide : Bool) : Except Stop Unit := e.field (e.vwOk d wide)

/-- D names a predicate q0 to q14 (R37). -/
def qOk (d : Code) : Bool := d.extractLsb' 0 4 != 15

/-- Trap unless D names a predicate q0 to q14. -/
def Env.dstQ (e : Env) (d : Code) : Except Stop Unit := e.field (qOk d)

/-- A predicate as a source: q15 reads as all ones (R37, R65). -/
def Env.pred (e : Env) (c : Code) : W32 :=
  if c.extractLsb' 0 4 == 15 then 0xFFFFFFFF else SMap.get 0 e.warp.q (c.extractLsb' 0 4).toNat

/-- A v register, a w register or a constant, read in one lane. -/
def plainOpnd (unit : Nat) (code : Code) : Opnd := ⟨unit, 9, 0, code, false, false⟩

/-- The issuer may name it. -/
def Env.plainOk (e : Env) (unit : Nat) (code : Code) : Bool :=
  (code.toNat < 448 || (480 ≤ code.toNat && code.toNat < 496)) && (plainOpnd unit code).ok e

/-- Trap unless the issuer may name it. -/
def Env.plainSrc (e : Env) (unit : Nat) (code : Code) : Except Stop Opnd := do
  e.field (e.plainOk unit code)
  .ok (plainOpnd unit code)

/-- An even v or w code, read as a pair. -/
def pairOpnd (unit : Nat) (code : Code) : Opnd := ⟨unit, 9, 0, code, true, false⟩

/-- The issuer may name it. -/
def Env.pairOk (e : Env) (unit : Nat) (code : Code) : Bool := decide (code.toNat < 448) && (pairOpnd unit code).ok e

/-- Trap unless the issuer may name it. -/
def Env.pairSrc (e : Env) (unit : Nat) (code : Code) : Except Stop Opnd := do
  e.field (e.pairOk unit code)
  .ok (pairOpnd unit code)

/-- The words of a 64-bit value, or of a 32-bit one (R1). -/
def words (wide : Bool) (x : W64) : List W32 :=
  if wide then [x.extractLsb' 0 32, x.extractLsb' 32 32] else [x.setWidth 32]

/-- The bytes of a number of 32-bit words. -/
def wordsOfBytes : List Byte → List W32
  | b0 :: b1 :: b2 :: b3 :: l => (b3 ++ b2 ++ b1 ++ b0) :: wordsOfBytes l
  | _ => []

/-- The little-endian bytes of words. -/
def bytesOfWords (l : List W32) : List Byte := l.flatMap (fun x => natBytes 4 x.toNat)

/-- Write the same value to D in every active lane, or once to a w register (R52, R295). -/
def Env.putVW (e : Env) (unit lat : Nat) (lock : Bool) (d : Code) (wide : Bool) (x : W64) (s : State) : State :=
  if isW d then
    e.put unit lat lock .w ((List.range (if wide then 2 else 1)).map (fun i => d.toNat - 384 + i)) e.act (words wide x) s
  else
    e.put unit lat lock .v (e.phys d.toNat (if wide then 2 else 1)) e.act (laneVals e.act (fun _ => words wide x)) s

/-! ## Immediates (R29) -/

/-- IMM24 as the second source of an IU instruction: sign-extended, or each packed element its low bits. -/
def immIU (mod : BitVec 3) (imm : BitVec 24) : W64 :=
  let x := imm.signExtend 64
  if mod.toNat ≥ 6 then x
  else if mod.toNat ≥ 4 then
    let b := x.extractLsb' 0 8
    (b ++ b ++ b ++ b : W32).setWidth 64
  else if mod.toNat ≥ 2 then
    let h := x.extractLsb' 0 16
    (h ++ h : W32).setWidth 64
  else (x.setWidth 32).setWidth 64

/-- IMM24 as the second source of an FU instruction: FP32 IMM24 × 2^8, or both halves BF16 bits [23:8]. -/
def immFU (mod : BitVec 3) (imm : BitVec 24) : W64 :=
  if mod == 2 then
    let h := imm.extractLsb' 8 16
    (h ++ h : W32).setWidth 64
  else ((imm ++ (0 : BitVec 8) : W32)).setWidth 64

/-! ## The common frame of lane instructions -/

/-- A lane instruction: check its sources, let its destination be checked, then put the words that f gives
each active lane into D (R6, R28, R41). -/
def laneOp (unit lat : Nat) (src : List Opnd) (d : Code) (wideD : Bool) (f : Env → Nat → W64) : Body := fun e s => do
  e.sources src
  e.dstV d wideD
  e.landed src
  .ok (e.put unit lat false .v (e.phys d.toNat (if wideD then 2 else 1)) e.act
    (laneVals e.act (fun l => words wideD (f e l))) s)

/-- A lane instruction that writes predicate D (R37). -/
def predOp (unit lat : Nat) (src : List Opnd) (d : Code) (f : Env → Nat → Bool) : Body := fun e s => do
  e.sources src
  e.dstQ d
  e.landed src
  .ok (e.put unit lat false .pred [(d.extractLsb' 0 4).toNat] e.act [maskOf (fun l => e.act.getLsbD l && f e l)] s)

/-- A uniform instruction that writes w register D once, when some lane is active. -/
def uniformOp (unit lat : Nat) (src : List Opnd) (d : Code) (wideD : Bool) (f : Env → W64) : Body := fun e s => do
  e.sources src
  e.dstW d wideD
  e.landed src
  .ok (if e.act = 0 then s
    else e.put unit lat false .w ((List.range (if wideD then 2 else 1)).map (fun i => d.toNat - 384 + i)) e.act
      (words wideD (f e)) s)

end Sys2Proof.Machine

namespace Sys2Proof

/-! ## Operands of the forms (R27) -/

/-- Source A of a two-source form. -/
def F2.srcA (f : F2) (unit : Nat) (wide fp : Bool) : Machine.Opnd := ⟨unit, 0, f.amod, f.a, wide, fp⟩
/-- Source B of a two-source form. -/
def F2.srcB (f : F2) (unit : Nat) (wide fp : Bool) : Machine.Opnd := ⟨unit, 1, 0, f.b, wide, fp⟩
/-- Source A of an immediate form. -/
def FI.srcA (f : FI) (unit : Nat) (wide fp : Bool) : Machine.Opnd := ⟨unit, 0, 0, f.a, wide, fp⟩
/-- Source A of a three-source form. -/
def F3.srcA (f : F3) (unit : Nat) (wide fp : Bool) : Machine.Opnd := ⟨unit, 0, 0, f.a, wide, fp⟩
/-- Source B of a three-source form. -/
def F3.srcB (f : F3) (unit : Nat) (wide fp : Bool) : Machine.Opnd := ⟨unit, 1, 0, f.b, wide, fp⟩
/-- Source C of a three-source form. -/
def F3.srcC (f : F3) (unit : Nat) (wide fp : Bool) : Machine.Opnd := ⟨unit, 2, 0, f.c, wide, fp⟩

end Sys2Proof
end

