-- ==== Sys2Proof/Machine/Flags.lean ====
section
/-! DEFINITION. Conditions of compares (R42, R77, R104), the sticky flags of the float unit (R95, R96) and
what the mode register selects (R90, R92). -/

namespace Sys2Proof.Machine

/-- The integer conditions EQ, NE, LT, LE, GT, GE (R42, R77). -/
def intCond (cond : Nat) (x y : Int) : Bool :=
  match cond with
  | 0 => x == y
  | 1 => x != y
  | 2 => decide (x < y)
  | 3 => decide (x ≤ y)
  | 4 => decide (x > y)
  | _ => decide (x ≥ y)

/-- Inexact (R95). -/
def flIX : Nat := 1
/-- Underflow (R95). -/
def flUF : Nat := 2
/-- Overflow (R95). -/
def flOF : Nat := 4
/-- Division by zero (R95). -/
def flDZ : Nat := 8
/-- Invalid operation (R95). -/
def flIV : Nat := 16

/-- The value that a write of x to the mode register stores (R90). -/
def fmodeStore (x : W32) : W32 :=
  let y := x &&& 0xFF
  if y.extractLsb' 0 3 == 0 || y.extractLsb' 0 3 == 7 then (y &&& 0xF8) ||| 1 else y

/-- The value that a write of x to a lane's generator stores (R94). -/
def srseedStore (x : W32) : W32 := if x = 0 then 1 else x

/-- A relation of two float values: less, equal, greater, or unordered with a NaN (R104). -/
inductive FRel where
  | lt | eq | gt | un
deriving DecidableEq, Repr

/-- The float conditions EQ, NE, LT, LE, GT, GE, NUM, NAN (R42, R104). -/
def floatCond (cond : Nat) (r : FRel) : Bool :=
  match cond with
  | 0 => r == .eq
  | 1 => r != .eq
  | 2 => r == .lt
  | 3 => r == .lt || r == .eq
  | 4 => r == .gt
  | 5 => r == .gt || r == .eq
  | 6 => r != .un
  | _ => r == .un

/-- The conditions that raise IV for any NaN: LT, LE, GT, GE (R104). -/
def condOrdered (cond : Nat) : Bool := decide (2 ≤ cond ∧ cond ≤ 5)

end Sys2Proof.Machine
end

