-- ==== Sys2Proof/Machine/Float.lean ====
section
/-! DEFINITION. Float formats, exact values and rounding (R87 to R95). A finite value is an exact dyadic
number; a result that is no dyadic number is known by its leading bits and that something follows them. -/

namespace Sys2Proof.Machine

/-! ## Formats (R87, R88) -/

/-- A float format: exponent and significand bits, and whether the top exponent is finite (E4M3). -/
structure Fmt where
  ebits : Nat
  mbits : Nat
  e4m3 : Bool
deriving DecidableEq, Repr

def fmtF32 : Fmt := ⟨8, 23, false⟩
def fmtF16 : Fmt := ⟨5, 10, false⟩
def fmtBF16 : Fmt := ⟨8, 7, false⟩
def fmtF64 : Fmt := ⟨11, 52, false⟩
def fmtE4M3 : Fmt := ⟨4, 3, true⟩
def fmtE5M2 : Fmt := ⟨5, 2, false⟩

/-- The format a MOD or B[2:0] code names (R51). -/
def fmtOf (code : Nat) : Fmt :=
  match code with
  | 0 => fmtF32
  | 1 => fmtF16
  | 2 => fmtBF16
  | 3 => fmtF64
  | 4 => fmtE4M3
  | _ => fmtE5M2

/-- Bits of an element. -/
def Fmt.width (f : Fmt) : Nat := 1 + f.ebits + f.mbits
/-- Elements in a register, or in the pair of FP64. -/
def Fmt.count (f : Fmt) : Nat := if f.width = 64 then 1 else 32 / f.width
/-- Exponent bias. -/
def Fmt.bias (f : Fmt) : Nat := 2 ^ (f.ebits - 1) - 1
/-- The exponent of the smallest step: min subnormal is 2 to this power. -/
def Fmt.qmin (f : Fmt) : Int := 1 - (f.bias : Int) - f.mbits
/-- The exponent of the smallest normal. -/
def Fmt.emin (f : Fmt) : Int := 1 - (f.bias : Int)
/-- The largest finite value as significand and exponent. -/
def Fmt.maxM (f : Fmt) : Nat := if f.e4m3 then 14 else 2 ^ (f.mbits + 1) - 1
def Fmt.maxE (f : Fmt) : Int := if f.e4m3 then 5 else (f.bias : Int) - f.mbits
/-- The flush bit of the mode register that governs a format (R90, R91). -/
def Fmt.flushBit (f : Fmt) : Option Nat :=
  if f = fmtF32 then some 3 else if f = fmtF64 then some 4 else if f = fmtF16 then some 5
  else if f = fmtBF16 then some 6 else none

/-- Patterns of an element (R87, R89). -/
def Fmt.signBit (f : Fmt) (neg : Bool) : Nat := if neg then 2 ^ (f.width - 1) else 0
def Fmt.infBits (f : Fmt) (neg : Bool) : Nat := f.signBit neg + (2 ^ f.ebits - 1) * 2 ^ f.mbits
def Fmt.nanBits (f : Fmt) : Nat :=
  if f.e4m3 then 0x7F else (2 ^ f.ebits - 1) * 2 ^ f.mbits + 2 ^ (f.mbits - 1)
def Fmt.maxBits (f : Fmt) (neg : Bool) : Nat :=
  f.signBit neg + (if f.e4m3 then 0x7E else (2 ^ f.ebits - 1) * 2 ^ f.mbits - 1)

/-- What an element holds. -/
inductive FV where
  | nan (signalling : Bool)
  | inf (neg : Bool)
  | fin (neg : Bool) (m : Nat) (e : Int)
deriving DecidableEq, Repr

/-- Read an element (R87, R89). -/
def Fmt.read (f : Fmt) (x : Nat) : FV :=
  let neg := x / 2 ^ (f.width - 1) % 2 == 1
  let ex := x / 2 ^ f.mbits % 2 ^ f.ebits
  let fr := x % 2 ^ f.mbits
  if f.e4m3 then
    if ex = 15 ∧ fr = 7 then .nan false
    else if ex = 0 then .fin neg fr f.qmin else .fin neg (8 + fr) (f.qmin + (ex - 1 : Nat))
  else if ex = 2 ^ f.ebits - 1 then
    if fr = 0 then .inf neg else .nan (fr / 2 ^ (f.mbits - 1) == 0)
  else if ex = 0 then .fin neg fr f.qmin
  else .fin neg (2 ^ f.mbits + fr) (f.qmin + (ex - 1 : Nat))

/-- Is the pattern subnormal? -/
def Fmt.subnormal (f : Fmt) (x : Nat) : Bool :=
  x / 2 ^ f.mbits % 2 ^ f.ebits == 0 && x % 2 ^ f.mbits != 0

/-- Element e of a register value (R88). -/
def Fmt.elem (f : Fmt) (x : W64) (e : Nat) : Nat := x.toNat / 2 ^ (f.width * e) % 2 ^ f.width

/-- Elements placed in order (R88). -/
def packNats (w : Nat) : List Nat → Nat
  | [] => 0
  | x :: l => x % 2 ^ w + 2 ^ w * packNats w l

/-- The input flush: a subnormal reads as a zero of its sign when the format's bit is 1 (R91). -/
def Fmt.flush (f : Fmt) (fmode : W32) (x : Nat) : Nat :=
  match f.flushBit with
  | some b => if fmode.getLsbD b && f.subnormal x then x / 2 ^ (f.width - 1) % 2 * 2 ^ (f.width - 1) else x
  | none => x

/-! ## Exact results -/

/-- A result before rounding: a pattern with its flags, or an exact number m · 2^e, above it by less than
one step when more is set. -/
inductive Res where
  | bits (b fl : Nat)
  | num (neg : Bool) (m : Nat) (e : Int) (more : Bool) (fl : Nat)
deriving DecidableEq, Repr

/-- A signed exact number. -/
def numOf (neg : Bool) (m : Nat) : Int := if neg then -(m : Int) else m

/-- 2^n for a natural shift, 1 otherwise. -/
def shl (m : Nat) (n : Int) : Nat := m * 2 ^ n.toNat

/-- The exact sum of finite values; a zero sum of opposite signs is +0, and -0 under RDN (R93). -/
def exactAdd (mode : Nat) (n1 : Bool) (m1 : Nat) (e1 : Int) (n2 : Bool) (m2 : Nat) (e2 : Int) : Res :=
  if m1 = 0 ∧ m2 = 0 then .num (if n1 == n2 then n1 else mode == 3) 0 0 false 0
  else
    let e := if m1 = 0 then e2 else if m2 = 0 then e1 else min e1 e2
    let x := numOf n1 (shl m1 (e1 - e)) + numOf n2 (shl m2 (e2 - e))
    let x := if m1 = 0 then numOf n2 m2 else if m2 = 0 then numOf n1 m1 else x
    if x = 0 then .num (mode == 3) 0 0 false 0 else .num (decide (x < 0)) x.natAbs e false 0

/-! ## Rounding (R93, R94) -/

/-- Round m · 2^e (and more) to a multiple of 2^q: the multiple, and whether it differs from the exact
value. r holds the 16 drawn bits of mode 6. -/
def roundTo (mode r : Nat) (neg : Bool) (m : Nat) (e : Int) (more : Bool) (q : Int) : Nat × Bool :=
  if q ≤ e then
    let t := shl m (e - q)
    (if more && ((mode == 3 && neg) || (mode == 4 && !neg)) then t + 1 else t, more)
  else
    let d := 2 ^ (q - e).toNat
    let t := m / d
    let rem := m % d
    let inex := rem != 0 || more
    let up := match mode with
      | 1 => decide (d < 2 * rem) || (2 * rem == d && (more || t % 2 == 1))
      | 2 => false
      | 3 => neg && inex
      | 4 => !neg && inex
      | 5 => decide (d ≤ 2 * rem)
      | _ => inex && decide (2 ^ 16 ≤ rem * 2 ^ 16 / d + r)
    (if up then t + 1 else t, inex)

/-- Compare m1 · 2^e1 with m2 · 2^e2. -/
def magLt (m1 : Nat) (e1 : Int) (m2 : Nat) (e2 : Int) : Bool :=
  let e := min e1 e2
  decide (shl m1 (e1 - e) < shl m2 (e2 - e))

/-- The value and flags of an overflow (R93). -/
def overflowBits (f : Fmt) (mode : Nat) (sat neg : Bool) : Nat :=
  let toMax := mode == 2 || (mode == 3 && !neg) || (mode == 4 && neg)
  if sat then f.maxBits neg
  else if toMax then f.maxBits neg
  else if f.e4m3 then f.nanBits else f.infBits neg

/-- Round a non-zero exact number to a format under a mode 1 to 6: bits and flags (R91, R93, R94). sat: a
conversion to FP8 saturates. -/
def roundNum (f : Fmt) (fmode : W32) (mode r : Nat) (sat : Bool) (neg : Bool) (m : Nat) (e : Int) (more : Bool) :
    Nat × Nat :=
  let qU : Int := e + (Nat.log2 m : Int) - f.mbits
  let ru := roundTo mode r neg m e more qU
  if magLt f.maxM f.maxE ru.1 qU then (overflowBits f mode sat neg, flOF + flIX)
  else
    let tiny := magLt ru.1 qU 1 f.emin
    let flushed := tiny && (match f.flushBit with | some b => fmode.getLsbD b | none => false)
    if flushed then (f.signBit neg, flUF + flIX)
    else
      let q := max qU f.qmin
      let v := roundTo mode r neg m e more q
      (f.signBit neg + ((q - f.qmin).toNat * 2 ^ f.mbits + v.1),
        (if v.2 then flIX else 0) + (if tiny && v.2 then flUF else 0))

/-- One step of a lane's generator (R94). -/
def srStep (s : W32) : Bool × W32 :=
  let o := s.getLsbD 0
  (o, if o then (s >>> 1) ^^^ 0x80200003 else s >>> 1)

/-- n steps: the bits drawn, first lowest, and the state after. -/
def srDraw : Nat → W32 → Nat × W32
  | 0, s => (0, s)
  | n + 1, s =>
    let d := srStep s
    let t := srDraw n d.2
    ((if d.1 then 1 else 0) + 2 * t.1, t.2)

/-- Round a result: bits, flags and the lane's generator after it. Every number rounded in mode 6 draws 16
bits, zero and exact ones too (R94). -/
def Res.round (f : Fmt) (fmode : W32) (mode : Nat) (sat : Bool) (x : Res) (seed : W32) : Nat × Nat × W32 :=
  match x with
  | .bits b fl => (b, fl, seed)
  | .num neg m e more fl =>
    let d := if mode = 6 then srDraw 16 seed else (0, seed)
    if m = 0 && !more then (f.signBit neg, fl, d.2)
    else
      let v := roundNum f fmode mode d.1 sat neg (if m = 0 then 1 else m) (if m = 0 then e - 64 else e) more
      (v.1, v.2 ||| fl, d.2)

/-- The canonical NaN with IV when some operand is signalling (R89, R95). -/
def nanRes (f : Fmt) (l : List FV) : Res :=
  .bits f.nanBits (if l.any (fun v => match v with | .nan true => true | _ => false) then flIV else 0)

/-- Is some operand a NaN? -/
def anyNan (l : List FV) : Bool := l.any (fun v => match v with | .nan _ => true | _ => false)

/-- The exact product of two values: none where it is invalid, an infinity, or a finite number. -/
inductive Prod where
  | invalid
  | inf (neg : Bool)
  | fin (neg : Bool) (m : Nat) (e : Int)

/-- a · b, not NaN (R95, R101). -/
def prodOf (a b : FV) : Prod :=
  match a, b with
  | .fin n1 m1 e1, .fin n2 m2 e2 => .fin (n1 != n2) (m1 * m2) (e1 + e2)
  | .inf n1, .inf n2 => .inf (n1 != n2)
  | .inf n1, .fin n2 m2 _ => if m2 = 0 then .invalid else .inf (n1 != n2)
  | .fin n1 m1 _, .inf n2 => if m1 = 0 then .invalid else .inf (n1 != n2)
  | _, _ => .invalid

/-- A value that a sum takes: infinite or finite. -/
def FV.toProd (a : FV) : Prod :=
  match a with
  | .inf n => .inf n
  | .fin n m e => .fin n m e
  | .nan _ => .invalid

/-- The sum of two terms that are not NaN (R95, R100). -/
def sumOf (f : Fmt) (mode : Nat) (p q : Prod) : Res :=
  match p, q with
  | .invalid, _ => .bits f.nanBits flIV
  | _, .invalid => .bits f.nanBits flIV
  | .inf n1, .inf n2 => if n1 == n2 then .bits (f.infBits n1) 0 else .bits f.nanBits flIV
  | .inf n, _ => .bits (f.infBits n) 0
  | _, .inf n => .bits (f.infBits n) 0
  | .fin n1 m1 e1, .fin n2 m2 e2 => exactAdd mode n1 m1 e1 n2 m2 e2

/-- The negated value. -/
def FV.neg (a : FV) : FV :=
  match a with
  | .inf n => .inf (!n)
  | .fin n m e => .fin (!n) m e
  | .nan s => .nan s

/-- a + b (R100). -/
def resAdd (f : Fmt) (mode : Nat) (a b : FV) : Res :=
  if anyNan [a, b] then nanRes f [a, b] else sumOf f mode a.toProd b.toProd

/-- a · b (R100, R101). -/
def resMul (f : Fmt) (a b : FV) : Res :=
  if anyNan [a, b] then nanRes f [a, b]
  else match prodOf a b with
    | .invalid => .bits f.nanBits flIV
    | .inf n => .bits (f.infBits n) 0
    | .fin n m e => .num n m e false 0

/-- Is a · b invalid, whatever the addend (R95)? -/
def badProd (a b : FV) : Bool :=
  !anyNan [a, b] && (match prodOf a b with | .invalid => true | _ => false)

/-- a · b + c rounded once (R95, R100). -/
def resFma (f : Fmt) (mode : Nat) (a b c : FV) : Res :=
  if badProd a b then .bits f.nanBits flIV
  else if anyNan [a, b, c] then nanRes f [a, b, c]
  else sumOf f mode (prodOf a b) c.toProd

/-- The exact sum of c and two products (R100): two opposite infinite products beside a quiet NaN raise no IV (assumption 116). -/
def resDot2 (mode : Nat) (a0 b0 a1 b1 c : FV) : Res :=
  let f := fmtF32
  if badProd a0 b0 || badProd a1 b1 then .bits f.nanBits flIV
  else if anyNan [a0, b0, a1, b1, c] then nanRes f [a0, b0, a1, b1, c]
  else
    match sumOf f mode (prodOf a0 b0) (prodOf a1 b1) with
    | .bits b fl => if fl ≠ 0 then .bits b fl else sumOf f mode (f.read b).toProd c.toProd
    | .num n m e _ _ =>
      match prodOf a0 b0, prodOf a1 b1, c with
      | .fin n0 m0 _, .fin n1 m1 _, .fin nc mc ec =>
        -- a zero sum takes the sign rule over the three exact terms
        if m = 0 ∧ mc = 0 then
          .num (if m0 = 0 ∧ m1 = 0 ∧ n0 == n1 && n1 == nc then nc else mode == 3) 0 0 false 0
        else if m = 0 then .num nc mc ec false 0
        else exactAdd mode n m e nc mc ec
      | _, _, _ => sumOf f mode (.fin n m e) c.toProd

/-- Compare two values that are not NaN; zeros are equal (R104). -/
def relOf (a b : FV) : FRel :=
  let sgn (x : FV) : Int := match x with
    | .inf n => if n then -2 else 2
    | .fin n m _ => if m = 0 then 0 else if n then -1 else 1
    | .nan _ => 0
  match a, b with
  | .nan _, _ => .un
  | _, .nan _ => .un
  | .fin n1 m1 e1, .fin n2 m2 e2 =>
    let e := min e1 e2
    let x := numOf n1 (shl m1 (e1 - e))
    let y := numOf n2 (shl m2 (e2 - e))
    if x < y then .lt else if x = y then .eq else .gt
  | _, _ => if sgn a < sgn b then .lt else if sgn a = sgn b then .eq else .gt

/-- Does x order before y when -0 counts below +0 (R102)? -/
def fminLt (a b : FV) : Bool :=
  match relOf a b with
  | .lt => true
  | .eq => (match a, b with | .fin true _ _, .fin false _ _ => true | _, _ => false)
  | _ => false

/-- FMIN or FMAX on flushed patterns (R102). -/
def resMinMax (f : Fmt) (isMax : Bool) (x y : Nat) : Res :=
  let a := f.read x
  let b := f.read y
  let fl := match nanRes f [a, b] with | .bits _ fl => fl | _ => 0
  match a, b with
  | .nan _, .nan _ => .bits f.nanBits fl
  | .nan _, _ => .bits y fl
  | _, .nan _ => .bits x fl
  | _, _ => .bits (if isMax then (if fminLt a b then y else x) else (if fminLt b a then y else x)) fl

/-! ## Integer square root -/

/-- Largest r with r^2 at most n, deciding bits from 2^(k-1) down. -/
def isqrtAux (n : Nat) : Nat → Nat → Nat
  | 0, r => r
  | k + 1, r => if (r + 2 ^ k) * (r + 2 ^ k) ≤ n then isqrtAux n k (r + 2 ^ k) else isqrtAux n k r

/-- The integer square root. -/
def isqrt (n : Nat) : Nat := isqrtAux n (Nat.log2 n / 2 + 1) 0

/-! ## Conversions -/

/-- Round to an integer in a mode: the integer's magnitude, whether it differs, the generator (R106, R109). -/
def roundInt (mode : Nat) (neg : Bool) (m : Nat) (e : Int) (seed : W32) : Nat × Bool × W32 :=
  let d := if mode = 6 then srDraw 16 seed else (0, seed)
  let v := roundTo mode d.1 neg m e false 0
  (v.1, v.2, d.2)

/-- Convert a value to a format (R107, R108). -/
def resCvt (dst : Fmt) (sat : Bool) (v : FV) : Res :=
  match v with
  | .nan s => .bits dst.nanBits (if s then flIV else 0)
  | .inf n =>
    if dst.e4m3 then (if sat then .bits (dst.maxBits n) 0 else .bits dst.nanBits flIV)
    else .bits (dst.infBits n) 0
  | .fin n m e => .num n m e false 0

end Sys2Proof.Machine
end

