-- ==== Sys2Proof/Machine/Fu.lean ====
section
/-! DEFINITION. The float unit (R96 to R111): what every UNIT 1 instruction does. -/

namespace Sys2Proof.Machine

/-! ## The frame (R92, R98) -/

/-- The mode register as it stands at issue (R92). -/
def Env.fmode (e : Env) : W32 := fmodeStore e.warp.fmode

/-- The rounding mode of an instruction (R42, R98). -/
def Env.rm (e : Env) (rnd : BitVec 3) : Nat :=
  if rnd == 0 then (e.fmode.extractLsb' 0 3).toNat else rnd.toNat

/-- SAT8 for a conversion into FP8 (R90, R93). -/
def Env.sat (e : Env) (f : Fmt) : Bool := e.fmode.getLsbD 7 && f.width == 8

/-- The generator of a lane. -/
def State.seedOf (s : State) (e : Env) (l : Nat) : W32 :=
  match (s.core e.c).warps.find? e.w with
  | some w => SMap.get 0 w.seed l
  | none => 0

/-- Store the generators of the active lanes (R94). -/
def Env.setSeeds (e : Env) (l : List W32) (s : State) : State :=
  s.modWarp e.c e.w (fun w =>
    { w with seed := ((lanesOf e.act).zip l).foldl (fun m p => SMap.set 0 m p.1 p.2) w.seed })

/-- Put the flags of an instruction, landing with its result (R43, R96). -/
def Env.putFlags (e : Env) (unit lat : Nat) (nf : Bool) (l : List Nat) (s : State) : State :=
  if nf || l.all (· == 0) then s
  else e.put unit lat false .flags [] e.act (l.map (fun x => BitVec.ofNat 32 x)) s

/-- Round the elements of one register in ascending order: patterns, flags, generator (R94, R98). -/
def roundElems (f : Fmt) (fmode : W32) (mode : Nat) (sat : Bool) : List Res → W32 → List Nat × Nat × W32
  | [], seed => ([], 0, seed)
  | x :: l, seed =>
    let v := x.round f fmode mode sat seed
    let t := roundElems f fmode mode sat l v.2.2
    (v.1 :: t.1, v.2.1 ||| t.2.1, t.2.2)

/-- A float instruction that writes registers: g gives a lane's words, flags and generator (R98). -/
def floatOp (unit lat : Nat) (src : List Opnd) (chk : Env → Except Stop Unit) (regs : Env → List Nat) (nf : Bool)
    (g : Env → Nat → W32 → List W32 × Nat × W32) : Body := fun e s => do
  e.sources src
  chk e
  e.landed src
  let rs := (lanesOf e.act).map (fun l => g e l (s.seedOf e l))
  .ok (e.setSeeds (rs.map (·.2.2)) (e.putFlags unit lat nf (rs.map (·.2.1))
    (e.put unit lat false .v (regs e) e.act (rs.flatMap (·.1)) s)))

/-- Elements of one register computed from their sources, then rounded. -/
def elemsOp (unit lat : Nat) (f : Fmt) (src : List Opnd) (d : Code) (rnd : BitVec 3) (nf : Bool)
    (g : Env → Nat → Nat → Nat → Res) : Body :=
  let wide := f.width == 64
  floatOp unit lat src (fun e => e.dstV d wide) (fun e => e.phys d.toNat (if wide then 2 else 1)) nf
    (fun e l seed =>
      let v := roundElems f e.fmode (e.rm rnd) false ((List.range f.count).map (g e l (e.rm rnd))) seed
      (words wide (BitVec.ofNat 64 (packNats f.width v.1)), v.2))

/-- A float source. -/
def fpOpnd (pos unit : Nat) (amod : BitVec 12) (code : Code) (f : Fmt) : Opnd :=
  ⟨unit, pos, amod, code, f.width == 64, f.width == 64⟩

/-- An element of a source after the input flush (R91). -/
def flushedElem (e : Env) (f : Fmt) (x : W64) (i : Nat) : Nat := f.flush e.fmode (f.elem x i)

/-- Latency of an FU operation at a format (R99). -/
def fuLat (f : Fmt) : Nat := if f.width = 64 then 8 else 4

/-- Two sources in trigger form: G on flushed patterns. -/
def fuBin (f : F2) (G : Fmt → Nat → Nat → Nat → Res) : Body :=
  let t := fmtOf f.mod.toNat
  let a := fpOpnd 0 1 f.amod f.a t
  let b := fpOpnd 1 1 0 f.b t
  elemsOp 1 (fuLat t) t [a, b] f.d f.rnd f.nf (fun e l m i =>
    G t m (flushedElem e t (a.val e l) i) (flushedElem e t (b.val e l) i))

/-- The immediate form: IMM24 by R29, the mode of the mode register. -/
def fuBinI (f : FI) (G : Fmt → Nat → Nat → Nat → Res) : Body :=
  let t := fmtOf f.mod.toNat
  let a := fpOpnd 0 1 0 f.a t
  elemsOp 1 (fuLat t) t [a] f.d 0 f.nf (fun e l m i =>
    G t m (flushedElem e t (a.val e l) i) (flushedElem e t (immFU f.mod f.imm) i))

/-- Three sources. -/
def fuTri (f : F3) (G : Fmt → Nat → Nat → Nat → Nat → Res) : Body :=
  let t := fmtOf f.mod.toNat
  let a := fpOpnd 0 1 0 f.a t
  let b := fpOpnd 1 1 0 f.b t
  let c := fpOpnd 2 1 0 f.c t
  elemsOp 1 (fuLat t) t [a, b, c] f.d f.rnd f.nf (fun e l m i =>
    G t m (flushedElem e t (a.val e l) i) (flushedElem e t (b.val e l) i) (flushedElem e t (c.val e l) i))

/-! ## Arithmetic (R100 to R103) -/

/-- a + b. -/
def gAdd (t : Fmt) (m x y : Nat) : Res := resAdd t m (t.read x) (t.read y)
/-- a - b. -/
def gSub (t : Fmt) (m x y : Nat) : Res := resAdd t m (t.read x) (t.read y).neg
/-- a · b. -/
def gMul (t : Fmt) (_m x y : Nat) : Res := resMul t (t.read x) (t.read y)
/-- a · b + c. -/
def gFma (t : Fmt) (m x y z : Nat) : Res := resFma t m (t.read x) (t.read y) (t.read z)
/-- c - a · b. -/
def gNma (t : Fmt) (m x y z : Nat) : Res := resFma t m (t.read x).neg (t.read y) (t.read z)

/-- The truncated count of FSCALE, clamped to ±65,536. -/
def scaleCount (neg : Bool) (m : Nat) (e : Int) : Int :=
  let v : Int := if e < 0 then ((m / 2 ^ (-e).toNat : Nat) : Int) else if e > 32 then (if m = 0 then 0 else 65536) else shl m e
  let v := min v 65536
  if neg then -v else v

/-- a · 2^n with n from B (R100). -/
def gScale (t : Fmt) (_m x y : Nat) : Res :=
  match t.read x, t.read y with
  | .fin n m e, .fin nb mb eb => if m = 0 then .bits x 0 else .num n m (e + scaleCount nb mb eb) false 0
  | .inf _, .fin _ _ _ => .bits x 0
  | .fin n m _, .inf nb =>
    if m = 0 then (if nb then .bits x 0 else .bits t.nanBits flIV)
    else if nb then .bits (t.signBit n) (flUF + flIX) else .bits (t.infBits n) (flOF + flIX)
  | .inf _, .inf nb => if nb then .bits t.nanBits flIV else .bits x 0
  | a, b => nanRes t [a, b]

def bodyFadd (f : F2) : Body := fuBin f gAdd
def bodyFaddI (f : FI) : Body := fuBinI f gAdd
def bodyFsub (f : F2) : Body := fuBin f gSub
def bodyFsubI (f : FI) : Body := fuBinI f gSub
def bodyFmul (f : F2) : Body := fuBin f gMul
def bodyFmulI (f : FI) : Body := fuBinI f gMul
/-- The lanes whose float units a path of a warp uses: those of the SIMT clusters, or the strand's own for its handler (R12,
R160). -/
def Core.pathLanes (k : Core) (hand : Bool) : W32 :=
  match k.strand with
  | some t => if hand then ownedLanes t.clusters else laneRange 0 (8 * (4 - t.clusters))
  | none => 0xFFFFFFFF

/-- A float unit of some of these lanes still works at an FP64 FMA (R10). -/
def Core.fmaBusy (k : Core) (m : W32) : Bool := k.ck.fma.any (fun x => x.1 &&& m != 0)

/-- The lanes whose float units an FMA of the issuer uses. -/
def Env.fmaLanes (e : Env) : W32 := if e.strand then laneRange e.base e.size else e.core.pathLanes e.warp.strand

/-- An FP64 FMA takes its lanes' float units for 4 cycles for each of its processing cycles (R10, R12; assumption 115). -/
def Env.takeFma (e : Env) (s : State) : State :=
  let n := e.core.simtClusters
  let span := if e.strand || e.warp.strand || n = 0 then 1 else (4 + n - 1) / n
  s.modClock e.c (fun k => { k with fma := k.fma ++ [(e.fmaLanes, 4 * span)] })

/-- FFMA and FNMA: an FP64 FMA takes the float units of its lanes for four cycles, and in a strand it waits for them (R10;
assumption 115). -/
def fmaBody (f : F3) (G : Fmt → Nat → Nat → Nat → Nat → Res) : Body := fun e s => do
  let t ← fuTri f G e s
  if f.mod != 3 then .ok t
  else if e.strand && (s.core e.c).fmaBusy e.fmaLanes then .error (.wait .fma id)
  else .ok (e.takeFma t)
def bodyFfma (f : F3) : Body := fmaBody f gFma
def bodyFnma (f : F3) : Body := fmaBody f gNma
def bodyFmin (f : F2) : Body := fuBin f (fun t _ x y => resMinMax t false x y)
def bodyFminI (f : FI) : Body := fuBinI f (fun t _ x y => resMinMax t false x y)
def bodyFmax (f : F2) : Body := fuBin f (fun t _ x y => resMinMax t true x y)
def bodyFmaxI (f : FI) : Body := fuBinI f (fun t _ x y => resMinMax t true x y)
def bodyFscale (f : F2) : Body := fuBin f gScale
def bodyFscaleI (f : FI) : Body := fuBinI f gScale

/-- A sign operation on every element; no flush, no flag (R103). -/
def signOp (f : F2) (g : Fmt → Nat → Nat) : Body :=
  let t := fmtOf f.mod.toNat
  let a := fpOpnd 0 1 f.amod f.a t
  laneOp 1 (fuLat t) [a] f.d (t.width == 64) (fun e l =>
    BitVec.ofNat 64 (packNats t.width ((List.range t.count).map (fun i => g t (t.elem (a.val e l) i)))))

def bodyFabs (f : F2) : Body := signOp f (fun t x => x % 2 ^ (t.width - 1))
def bodyFneg (f : F2) : Body := signOp f (fun t x => x ^^^ 2 ^ (t.width - 1))

/-- The packed dot product into FP32 (R100). -/
def bodyFdot2 (f : F3) : Body :=
  let t := fmtOf f.mod.toNat
  let a := fpOpnd 0 1 0 f.a t
  let b := fpOpnd 1 1 0 f.b t
  let c := fpOpnd 2 1 0 f.c fmtF32
  elemsOp 1 4 fmtF32 [a, b, c] f.d f.rnd f.nf (fun e l m _ =>
    let x (i : Nat) : FV := t.read (flushedElem e t (a.val e l) i)
    let y (i : Nat) : FV := t.read (flushedElem e t (b.val e l) i)
    resDot2 m (x 0) (y 0) (x 1) (y 1) (fmtF32.read (flushedElem e fmtF32 (c.val e l) 0)))

/-! ## Compare and classify (R104, R105) -/

/-- A float compare of two register values: the predicate and the flags. -/
def fnFcmp (e : Env) (t : Fmt) (cond : Nat) (x y : W64) : Bool × Nat :=
  let el := (List.range t.count).map (fun i => (t.read (flushedElem e t x i), t.read (flushedElem e t y i)))
  let iv := el.any (fun p => (condOrdered cond && anyNan [p.1, p.2])
    || (match nanRes t [p.1, p.2] with | .bits _ fl => fl != 0 | _ => false))
  (el.all (fun p => floatCond cond (relOf p.1 p.2)), if iv then flIV else 0)

/-- A float instruction that writes predicate D and flags. -/
def floatPred (lat : Nat) (src : List Opnd) (d : Code) (nf : Bool) (g : Env → Nat → Bool × Nat) : Body := fun e s => do
  e.sources src
  e.dstQ d
  e.landed src
  let rs := (lanesOf e.act).map (fun l => (g e l).2)
  .ok (e.putFlags 1 lat nf rs
    (e.put 1 lat false .pred [(d.extractLsb' 0 4).toNat] e.act [maskOf (fun l => e.act.getLsbD l && (g e l).1)] s))

def bodyFcmp (f : F2) : Body :=
  let t := fmtOf f.mod.toNat
  let a := fpOpnd 0 1 f.amod f.a t
  let b := fpOpnd 1 1 0 f.b t
  floatPred (fuLat t) [a, b] f.d f.nf (fun e l => fnFcmp e t f.rnd.toNat (a.val e l) (b.val e l))

def bodyFcmpI (f : FI) : Body :=
  let t := fmtOf f.mod.toNat
  let a := fpOpnd 0 1 0 f.a t
  let imm := (f.imm &&& 0xFFFFF8)
  floatPred (fuLat t) [a] f.d f.nf (fun e l => fnFcmp e t (f.imm.extractLsb' 0 3).toNat (a.val e l) (immFU f.mod imm))

/-- The class code of an element (R105). -/
def classCode (t : Fmt) (x : Nat) : Nat :=
  match t.read x with
  | .nan sg => if sg then 8 else 9
  | .inf n => if n then 0 else 7
  | .fin n m _ =>
    if m = 0 then (if n then 3 else 4)
    else if t.subnormal x then (if n then 2 else 5) else (if n then 1 else 6)

def bodyFclass (f : F2) : Body :=
  let t := fmtOf f.mod.toNat
  let a := fpOpnd 0 1 f.amod f.a t
  let w := if t.width = 64 then 32 else t.width
  laneOp 1 (fuLat t) [a] f.d false (fun e l =>
    BitVec.ofNat 64 (packNats w ((List.range t.count).map (fun i => classCode t (t.elem (a.val e l) i)))))

/-! ## Integral rounding and conversions (R106 to R110) -/

/-- Round an element to an integral value (R106); zeros and infinities are unchanged. -/
def rintElem (t : Fmt) (mode : Nat) (x : Nat) (seed : W32) : Nat × Nat × W32 :=
  match t.read x with
  | .nan sg => (t.nanBits, if sg then flIV else 0, seed)
  | .inf _ => (x, 0, seed)
  | .fin n m e =>
    if m = 0 then (x, 0, seed)
    else
      let v := roundInt mode n m e seed
      let b := (Res.num n v.1 0 false 0).round t 0 2 false 0
      (b.1, if v.2.1 then flIX else 0, v.2.2)

/-- Map a function with flags and a generator over elements in order. -/
def mapElems (g : Nat → W32 → Nat × Nat × W32) : List Nat → W32 → List Nat × Nat × W32
  | [], seed => ([], 0, seed)
  | x :: l, seed =>
    let v := g x seed
    let t := mapElems g l v.2.2
    (v.1 :: t.1, v.2.1 ||| t.2.1, t.2.2)

def bodyFrint (f : F2) : Body :=
  let t := fmtOf f.mod.toNat
  let a := fpOpnd 0 1 f.amod f.a t
  let wide := t.width == 64
  floatOp 1 (fuLat t) [a] (fun e => e.dstV f.d wide) (fun e => e.phys f.d.toNat (if wide then 2 else 1)) f.nf
    (fun e l seed =>
      let v := mapElems (rintElem t (e.rm f.rnd)) ((List.range t.count).map (fun i => flushedElem e t (a.val e l) i)) seed
      (words wide (BitVec.ofNat 64 (packNats t.width v.1)), v.2))

/-- A group of n registers as a source: one register is an ordinary source; a group starts at a multiple
of n and names v or w registers (R107, R144). -/
def Env.cvtGroupOk (e : Env) (o : Opnd) (n : Nat) : Bool :=
  if n = 1 then o.ok e
  else o.code.toNat % n == 0 && (o.amod == 0 || decide (o.code.toNat < 384)) &&
    (if o.code.toNat < 384 then e.rangeOk o.code.toNat n else decide (o.code.toNat + n ≤ 448))

/-- The words of a group in a lane. -/
def Env.groupVal (e : Env) (o : Opnd) (n lane : Nat) : List W32 :=
  if n = 1 then [o.val32 e lane]
  else (List.range n).map (fun i =>
    if o.code.toNat < 384 then e.vread (rotate e.warp.rotbase (o.code.toNat + i)) (amodLane o.amod e.base lane)
    else e.wread (o.code.toNat - 384 + i))

/-- A group of n v registers as a destination (R107). -/
def Env.dstGroup (e : Env) (d : Code) (n : Nat) : Except Stop Unit :=
  e.field (d.toNat % n == 0 && e.rangeOk d.toNat n)

/-- Elements of width w in a list of words, in order. -/
def splitWords (w : Nat) (l : List W32) : List Nat :=
  l.flatMap (fun x => (List.range (32 / w)).map (fun i => x.toNat / 2 ^ (w * i) % 2 ^ w))

/-- Words that hold elements of width w in order; count elements to a word. -/
def joinWords (w n : Nat) (l : List Nat) : List W32 :=
  (List.range n).map (fun k => BitVec.ofNat 32 (packNats w ((l.drop (k * (32 / w))).take (32 / w))))

/-- Registers that hold N elements of a format or of an integer type of width w. -/
def regsFor (w n : Nat) : Nat := if w = 64 then 2 else (n * w + 31) / 32

/-- Source A of a conversion from width ws. -/
def convSrc (f : F2) (ws : Nat) (fpSrc : Bool) : Opnd := ⟨1, 0, f.amod, f.a, ws == 64, fpSrc && ws == 64⟩

/-- Registers of the source of a conversion of n elements. -/
def convSrcRegs (n ws : Nat) : Nat := if ws = 64 then 1 else regsFor ws n

/-- No register of the source waits for an interlocked result (R151). -/
def Env.convQuiet (e : Env) (f : F2) (n ws : Nat) : Bool :=
  !e.blocked (if f.a.toNat < 384 then e.phys f.a.toNat (if ws = 64 then 2 else convSrcRegs n ws) else [])
    ((List.range 4).map (fun i => f.a.toNat - 384 + i))

/-- The operands of a conversion are legal and have landed. -/
def Env.convOk (e : Env) (f : F2) (n ws wd : Nat) (fpSrc : Bool) : Bool :=
  (convSrc f ws fpSrc).amodFits e && e.cvtGroupOk (convSrc f ws fpSrc) (convSrcRegs n ws)
    && (f.d.toNat % regsFor wd n == 0 && e.rangeOk f.d.toNat (regsFor wd n)) && e.convQuiet f n ws

/-- The elements of a lane's source. -/
def Env.convElems (e : Env) (f : F2) (n ws : Nat) (fpSrc : Bool) (l : Nat) : List Nat :=
  if ws = 64 then [((convSrc f ws fpSrc).val e l).toNat]
  else (splitWords ws (e.groupVal (convSrc f ws fpSrc) (convSrcRegs n ws) l)).take n

/-- The words of converted elements. -/
def convWords (n wd : Nat) (l : List Nat) : List W32 :=
  if wd = 64 then words true (BitVec.ofNat 64 (l.headD 0)) else joinWords wd (regsFor wd n) l

/-- What a conversion leaves: its group, its flags and the generators (R94, R96, R107). -/
def Env.convResult (e : Env) (f : F2) (n ws wd : Nat) (fpSrc : Bool) (g : Nat → W32 → Nat × Nat × W32) (s : State) : State :=
  let lat := if ws = 64 ∨ wd = 64 then 8 else 4
  let rs := (lanesOf e.act).map (fun l => mapElems g (e.convElems f n ws fpSrc l) (s.seedOf e l))
  e.setSeeds (rs.map (·.2.2)) (e.putFlags 1 lat f.nf (rs.map (·.2.1))
    (e.put 1 lat false .v (e.phys f.d.toNat (regsFor wd n)) e.act (rs.flatMap (fun r => convWords n wd r.1)) s))

/-- A conversion of n elements from width ws to width wd: sources and destination as groups (R107, R109,
R110). -/
def convOp (f : F2) (n ws wd : Nat) (fpSrc : Bool) (g : Env → Nat → W32 → Nat × Nat × W32) : Body := fun e s => do
  e.enc ((convSrc f ws fpSrc).amodFits e)
  e.field (e.cvtGroupOk (convSrc f ws fpSrc) (convSrcRegs n ws))
  e.dstGroup f.d (regsFor wd n)
  if !e.convQuiet f n ws then .error (.wait .interlock id)
  .ok (e.convResult f n ws wd fpSrc (g e) s)

/-- FCVT: the source is not flushed (R91, R107, R108). -/
def bodyFcvt (f : F2) : Body :=
  let src := fmtOf (f.b.extractLsb' 0 3).toNat
  let dst := fmtOf f.mod.toNat
  convOp f (max src.count dst.count) src.width dst.width true (fun e x seed =>
    (resCvt dst (e.sat dst) (src.read x)).round dst e.fmode (e.rm f.rnd) (e.sat dst) seed)

/-- Width of an integer type of a conversion. -/
def intWidth (ty : Nat) : Nat := if ty ≥ 6 then 64 else 32

/-- The range of an integer type. -/
def intLo (ty : Nat) : Int := if ty % 2 = 0 then -(2 ^ (intWidth ty - 1)) else 0
def intHi (ty : Nat) : Int := if ty % 2 = 0 then 2 ^ (intWidth ty - 1) - 1 else 2 ^ intWidth ty - 1

/-- One element to an integer (R109). -/
def f2iElem (src : Fmt) (ty mode : Nat) (x : Nat) (seed : W32) : Nat × Nat × W32 :=
  let w := intWidth ty
  let enc (v : Int) : Nat := (v % 2 ^ w).toNat
  match src.read x with
  | .nan _ => (0, flIV, seed)
  | .inf n => (enc (if n then intLo ty else intHi ty), flIV, seed)
  | .fin n m e =>
    let v := roundInt mode n m e seed
    let z := numOf n v.1
    if z < intLo ty then (enc (intLo ty), flIV, v.2.2)
    else if intHi ty < z then (enc (intHi ty), flIV, v.2.2)
    else (enc z, if v.2.1 then flIX else 0, v.2.2)

def bodyF2i (f : F2) : Body :=
  let src := fmtOf f.mod.toNat
  let ty := (f.b.extractLsb' 0 3).toNat
  convOp f src.count src.width (intWidth ty) true (fun e x seed =>
    f2iElem src ty (e.rm f.rnd) (src.flush e.fmode x) seed)

def bodyI2f (f : F2) : Body :=
  let dst := fmtOf f.mod.toNat
  let ty := (f.b.extractLsb' 0 3).toNat
  convOp f dst.count (intWidth ty) dst.width false (fun e x seed =>
    let v : Int := if ty % 2 = 0 ∧ 2 ^ (intWidth ty - 1) ≤ x then (x : Int) - 2 ^ intWidth ty else x
    (Res.num (decide (v < 0)) v.natAbs 0 false 0).round dst e.fmode (e.rm f.rnd) false seed)

/-! ## Reduction (R111) -/

/-- Pair neighbouring nodes of a level. -/
def pairNodes (g : Nat → Nat → Nat × Nat) : List (Option Nat) → List (Option Nat) × Nat
  | a :: b :: l =>
    let t := pairNodes g l
    match a, b with
    | some x, some y => let v := g x y; (some v.1 :: t.1, v.2 ||| t.2)
    | some x, none => (some x :: t.1, t.2)
    | none, y => (y :: t.1, t.2)
  | l => (l, 0)

/-- The tree over 2^n nodes: the value at its root and the flags of every node. -/
def treeNodes (g : Nat → Nat → Nat × Nat) : Nat → List (Option Nat) → Option Nat × Nat
  | 0, l => (l.headD none, 0)
  | n + 1, l =>
    let p := pairNodes g l
    let t := treeNodes g n p.1
    (t.1, p.2 ||| t.2)

/-- One node of FREDW on patterns (R91, R111). -/
def fredNode (e : Env) (t : Fmt) (op mode : Nat) (x y : Nat) : Nat × Nat :=
  let a := t.flush e.fmode x
  let b := t.flush e.fmode y
  let r := match op with
    | 0 => (gAdd t mode a b).round t e.fmode mode false 0
    | 1 => (resMinMax t false a b).round t e.fmode mode false 0
    | _ => (resMinMax t true a b).round t e.fmode mode false 0
  (r.1, r.2.1)

/-- FREDW: the leaves are read as every input is, subnormals flushed (R91, R111). -/
def bodyFredw (f : F2) : Body := fun e s => do
  let t := fmtOf f.mod.toNat
  let a := fpOpnd 0 1 f.amod f.a t
  let wide := t.width == 64
  let lat := if wide then 40 else 20
  let m := e.rm f.rnd
  let mode := if m = 6 then 1 else m
  e.enc (!e.inLane)
  e.sources [a]
  e.dstW f.d wide
  e.landed [a]
  let leaves := (List.range e.size).map (fun i =>
    if e.act.getLsbD (e.base + i) then some (t.flush e.fmode (a.val e (e.base + i)).toNat) else none)
  let r := treeNodes (fredNode e t (f.b.extractLsb' 0 3).toNat mode) 5 leaves
  match r.1 with
  | none => .ok s
  | some v =>
    .ok (e.putFlags 1 lat f.nf ((lanesOf e.act).map (fun _ => r.2))
      (e.put 1 lat false .w ((List.range (if wide then 2 else 1)).map (fun i => f.d.toNat - 384 + i)) e.act
        (words wide (BitVec.ofNat 64 v)) s))

/-! ## Mode and flags (R97) -/

def bodyFsetmode (f : F2) : Body := fun e s => do
  let a := f.srcA 1 false false
  e.sources [a]
  e.landed [a]
  .ok (match lowest e.act with
    | some l => s.modWarp e.c e.w (fun w => { w with fmode := fmodeStore (a.val32 e l) })
    | none => s)

def bodyFgetmode (f : F2) : Body := fun e s => do
  e.dstVW f.d false
  .ok (if isW f.d && e.act == 0 then s else e.putVW 1 2 false f.d false (e.fmode.setWidth 64) s)

/-- No FU or SF result of a warp is in flight. -/
def Env.floatLanded (e : Env) : Bool := e.strand || !e.warp.results.any (fun r => r.unit == 1 || r.unit == 2)

/-- A warp waits until its FU and SF results have landed (R97). -/
def Env.flagsQuiet (e : Env) : Except Stop Unit := if e.floatLanded then .ok () else .error (.wait .flags id)

def bodyFflags (f : F2) : Body := fun e s => do
  e.dstV f.d false
  e.flagsQuiet
  .ok (e.put 1 2 false .v (e.phys f.d.toNat 1) e.act (laneVals e.act (fun l => [SMap.get 0 e.warp.flags l])) s)

/-- FFLAGS.CLR: the flags are cleared as D lands (R6, R97). -/
def bodyFflagsClr (f : F2) : Body := fun e s => do
  e.dstV f.d false
  e.flagsQuiet
  .ok (e.put 1 2 false .flagsClear [] e.act []
    (e.put 1 2 false .v (e.phys f.d.toNat 1) e.act (laneVals e.act (fun l => [SMap.get 0 e.warp.flags l])) s))

/-! ## Meanings of the constructors -/

/-- The meaning of fadd (R100). -/
def execFadd (f : F2) (s : State) : Host.Outcome State Fault Refusal :=
  issue (costOf (.fadd f)) f.g (bodyFadd f) s

/-- The meaning of faddI (R100). -/
def execFaddI (f : FI) (s : State) : Host.Outcome State Fault Refusal :=
  issue (costOf (.faddI f)) f.g (bodyFaddI f) s

/-- The meaning of fsub (R100). -/
def execFsub (f : F2) (s : State) : Host.Outcome State Fault Refusal :=
  issue (costOf (.fsub f)) f.g (bodyFsub f) s

/-- The meaning of fsubI (R100). -/
def execFsubI (f : FI) (s : State) : Host.Outcome State Fault Refusal :=
  issue (costOf (.fsubI f)) f.g (bodyFsubI f) s

/-- The meaning of fmul (R100). -/
def execFmul (f : F2) (s : State) : Host.Outcome State Fault Refusal :=
  issue (costOf (.fmul f)) f.g (bodyFmul f) s

/-- The meaning of fmulI (R100). -/
def execFmulI (f : FI) (s : State) : Host.Outcome State Fault Refusal :=
  issue (costOf (.fmulI f)) f.g (bodyFmulI f) s

/-- The meaning of ffma (R100). -/
def execFfma (f : F3) (s : State) : Host.Outcome State Fault Refusal :=
  issue (costOf (.ffma f)) f.g (bodyFfma f) s

/-- The meaning of fnma (R100). -/
def execFnma (f : F3) (s : State) : Host.Outcome State Fault Refusal :=
  issue (costOf (.fnma f)) f.g (bodyFnma f) s

/-- The meaning of fmin (R102). -/
def execFmin (f : F2) (s : State) : Host.Outcome State Fault Refusal :=
  issue (costOf (.fmin f)) f.g (bodyFmin f) s

/-- The meaning of fminI (R102). -/
def execFminI (f : FI) (s : State) : Host.Outcome State Fault Refusal :=
  issue (costOf (.fminI f)) f.g (bodyFminI f) s

/-- The meaning of fmax (R102). -/
def execFmax (f : F2) (s : State) : Host.Outcome State Fault Refusal :=
  issue (costOf (.fmax f)) f.g (bodyFmax f) s

/-- The meaning of fmaxI (R102). -/
def execFmaxI (f : FI) (s : State) : Host.Outcome State Fault Refusal :=
  issue (costOf (.fmaxI f)) f.g (bodyFmaxI f) s

/-- The meaning of fabs (R103). -/
def execFabs (f : F2) (s : State) : Host.Outcome State Fault Refusal :=
  issue (costOf (.fabs f)) f.g (bodyFabs f) s

/-- The meaning of fneg (R103). -/
def execFneg (f : F2) (s : State) : Host.Outcome State Fault Refusal :=
  issue (costOf (.fneg f)) f.g (bodyFneg f) s

/-- The meaning of fcmp (R104). -/
def execFcmp (f : F2) (s : State) : Host.Outcome State Fault Refusal :=
  issue (costOf (.fcmp f)) f.g (bodyFcmp f) s

/-- The meaning of fcmpI (R104). -/
def execFcmpI (f : FI) (s : State) : Host.Outcome State Fault Refusal :=
  issue (costOf (.fcmpI f)) f.g (bodyFcmpI f) s

/-- The meaning of fclass (R105). -/
def execFclass (f : F2) (s : State) : Host.Outcome State Fault Refusal :=
  issue (costOf (.fclass f)) f.g (bodyFclass f) s

/-- The meaning of frint (R106). -/
def execFrint (f : F2) (s : State) : Host.Outcome State Fault Refusal :=
  issue (costOf (.frint f)) f.g (bodyFrint f) s

/-- The meaning of fcvt (R107). -/
def execFcvt (f : F2) (s : State) : Host.Outcome State Fault Refusal :=
  issue (costOf (.fcvt f)) f.g (bodyFcvt f) s

/-- The meaning of f2i (R109). -/
def execF2i (f : F2) (s : State) : Host.Outcome State Fault Refusal :=
  issue (costOf (.f2i f)) f.g (bodyF2i f) s

/-- The meaning of i2f (R110). -/
def execI2f (f : F2) (s : State) : Host.Outcome State Fault Refusal :=
  issue (costOf (.i2f f)) f.g (bodyI2f f) s

/-- The meaning of fdot2 (R100). -/
def execFdot2 (f : F3) (s : State) : Host.Outcome State Fault Refusal :=
  issue (costOf (.fdot2 f)) f.g (bodyFdot2 f) s

/-- The meaning of fredw (R111). -/
def execFredw (f : F2) (s : State) : Host.Outcome State Fault Refusal :=
  issue (costOf (.fredw f)) f.g (bodyFredw f) s

/-- The meaning of fsetmode (R97). -/
def execFsetmode (f : F2) (s : State) : Host.Outcome State Fault Refusal :=
  issue (costOf (.fsetmode f)) f.g (bodyFsetmode f) s

/-- The meaning of fgetmode (R97). -/
def execFgetmode (f : F2) (s : State) : Host.Outcome State Fault Refusal :=
  issue (costOf (.fgetmode f)) f.g (bodyFgetmode f) s

/-- The meaning of fflags (R97). -/
def execFflags (f : F2) (s : State) : Host.Outcome State Fault Refusal :=
  issue (costOf (.fflags f)) f.g (bodyFflags f) s

/-- The meaning of fflagsClr (R97). -/
def execFflagsClr (f : F2) (s : State) : Host.Outcome State Fault Refusal :=
  issue (costOf (.fflagsClr f)) f.g (bodyFflagsClr f) s

/-- The meaning of fscale (R100). -/
def execFscale (f : F2) (s : State) : Host.Outcome State Fault Refusal :=
  issue (costOf (.fscale f)) f.g (bodyFscale f) s

/-- The meaning of fscaleI (R100). -/
def execFscaleI (f : FI) (s : State) : Host.Outcome State Fault Refusal :=
  issue (costOf (.fscaleI f)) f.g (bodyFscaleI f) s

end Sys2Proof.Machine
end

