-- ==== Sys2Proof/Machine/Gen.lean ====
section
/-! DEFINITION. The generator of the marbling engine, the marbled tile record and the weights that it stands
for (R285 to R290). -/

namespace Sys2Proof.Machine

/-! ## The generator (R285, R286) -/

/-- A linear map of states: the image of each bit. -/
def gfApply (cols : List W32) (x : W32) : W32 :=
  (cols.zipIdx).foldl (fun acc p => if x.getLsbD p.2 then acc ^^^ p.1 else acc) 0

/-- One step of the generator as a linear map. -/
def gfStep : List W32 := (List.range 32).map (fun i => (srStep (bit i)).2)

/-- The state n steps on, by repeated squaring of the step; fuel bounds the bits of n. -/
def gfJump : Nat → Nat → List W32 → W32 → W32
  | 0, _, _, x => x
  | fuel + 1, n, cols, x =>
    if n = 0 then x
    else gfJump fuel (n / 2) (cols.map (gfApply cols)) (if n % 2 = 1 then gfApply cols x else x)

/-- The state from which bit i of the sequence of seed s is drawn. -/
def srAt (s : W32) (i : Nat) : W32 := gfJump 64 i gfStep s

/-- n bits of the sequence of seed s from bit i, the first in the lowest place. -/
def srBits (s : W32) (i n : Nat) : Nat := (srDraw n (srAt s i)).1

/-! ## The record (R287, R288) -/

/-- A marbled tile record. -/
structure Tile where
  seed : W32
  c : Nat
  fp16 : Bool
  coef : List Nat
  scale : W32
deriving DecidableEq, Repr

/-- Read the 64 bytes of a record; none when it is malformed. -/
def Tile.read (b : List Byte) : Option Tile :=
  let at_ (o n : Nat) : Nat := bytesNat ((b.drop o).take n)
  let c := at_ 4 1
  let coef := (List.range 16).map (fun j => at_ (8 + 2 * j) 2)
  if at_ 0 4 = 0 ∨ c = 0 ∨ 16 < c ∨ at_ 5 1 / 2 ≠ 0 ∨ at_ 6 2 ≠ 0 ∨ at_ 44 20 ≠ 0 ∨ (coef.drop c).any (· ≠ 0) then none
  else some ⟨BitVec.ofNat 32 (at_ 0 4), c, at_ 5 1 % 2 == 1, coef, BitVec.ofNat 32 (at_ 40 4)⟩

/-- The 64 bytes of a record. -/
def Tile.bytes (t : Tile) : List Byte :=
  natBytes 4 t.seed.toNat ++ natBytes 1 t.c ++ natBytes 1 (if t.fp16 then 1 else 0) ++ natBytes 2 0
    ++ ((List.range 16).flatMap (fun j => natBytes 2 (t.coef.getD j 0))) ++ natBytes 4 t.scale.toNat ++ natBytes 20 0

/-! ## Expansion (R289) -/

/-- The format of the coefficients. -/
def Tile.fmt (t : Tile) : Fmt := if t.fp16 then fmtF16 else fmtBF16

/-- An FP32 sum or product, rounded to nearest even, as a value. -/
def f32Of (x : Res) : FV := fmtF32.read (x.round fmtF32 1 1 false 0).1

/-- The weight from the signs of the bases: negative where a sign is true. -/
def Tile.weight (t : Tile) (signs : List Bool) : Nat :=
  let terms := (signs.zip (t.coef.take t.c)).map (fun p =>
    let a := t.fmt.read p.2
    if p.1 then a.neg else a)
  let sum := match terms with
    | [] => FV.fin false 0 0
    | x :: l => l.foldl (fun acc y => f32Of (resAdd fmtF32 1 acc y)) x
  ((resMul fmtBF16 (fmtF32.read t.scale.toNat) sum).round fmtBF16 1 1 false 0).1

/-- The B fragment of quarter q: weights of rows 16q to 16q + 15 as the operand image of R252. -/
def Tile.fragment (t : Tile) (q : Nat) : Nat :=
  let seqs := (List.range t.c).map (fun j => srBits t.seed (4096 * j + 1024 * q) 1024)
  bytesNat ((List.range 64).flatMap (fun n => (List.range 16).flatMap (fun k =>
    natBytes 2 (t.weight (seqs.map (fun s => s / 2 ^ (64 * k + n) % 2 == 1))))))

end Sys2Proof.Machine
end

