-- ==== Sys2Proof/Machine/Xlate.lean ====
section
/-! DEFINITION. Translation of global addresses: cached translations, the table walk, the requests that a miss
makes, and the sweep of an invalidation (R347 to R375). -/

namespace Sys2Proof.Machine

/-! ## Addresses and pages -/

/-- A canonical global address: bits 63 to 57 equal bit 56 (R166). -/
def canonical (va : Nat) : Bool := va / 2 ^ 56 % 256 == 0 || va / 2 ^ 56 % 256 == 255

/-- The 4 KiB page of an address. -/
def page4K (va : Nat) : Nat := va / 4096

/-- Does a cached translation hold an address of a PASID? -/
def Tlb.covers (t : Tlb) (pasid va : Nat) : Bool := t.pasid == pasid && va / 2 ^ t.bits == t.page

/-- Does a cached translation serve the access: a host page needs the grant that the access needs, unless
its leaf is read-only, where a write meets the attribute (R367, R368)? -/
def Tlb.serves (t : Tlb) (write : Bool) : Bool :=
  t.tgt != 1 || (if write then t.wr || (t.ro && t.rd) else t.rd)

/-- The tagged physical address of an address in the page (assumption 5). -/
def Tlb.phys (t : Tlb) (va : Nat) : Nat := t.target + va % 2 ^ t.bits

/-- The page is of a peer to which the route table, which comes from the booted image, has no route (R373, R439). -/
def Tlb.noRoute (t : Tlb) (b : Boot) : Bool :=
  t.tgt == 2 && (match b.image with
    | some x => !Config.peerRouted x.2 x.1 ((t.target - peerBase) / 2 ^ 64)
    | none => true)

/-- A page that no write may change: read-only by its leaf (R175). -/
def Tlb.readOnly (t : Tlb) : Bool := t.ro

/-! ## Cached translations (R353) -/

/-- The last-page register of a lane, when it serves the access. -/
def Core.lprHit (k : Core) (lane pasid va : Nat) (write : Bool) : Option Tlb :=
  match k.lpr.find? lane with
  | some t => if t.covers pasid va && t.serves write then some t else none
  | none => none

/-- The core TLB's translation, when it serves the access. -/
def Core.tlbHit (k : Core) (pasid va : Nat) (write : Bool) : Option Tlb :=
  k.tlb.find? (fun t => t.covers pasid va && t.serves write)

/-- The translation of an address that a lane's last-page register or the core TLB holds, whatever it allows (R361). -/
def Core.cached (k : Core) (lane pasid va : Nat) : Option Tlb :=
  match k.lpr.find? lane with
  | some t => if t.covers pasid va then some t else k.tlb.find? (fun t => t.covers pasid va)
  | none => k.tlb.find? (fun t => t.covers pasid va)

/-- Look a global address up for a lane (R353). -/
def Core.lookup (k : Core) (lane pasid va : Nat) (write : Bool) : Option Tlb :=
  match k.lprHit lane pasid va write with
  | some t => some t
  | none => k.tlbHit pasid va write

/-- The quire TLB's translation, when it serves the access. -/
def State.qtlbHit (s : State) (q pasid va : Nat) (write : Bool) : Option Tlb :=
  (s.qtlb.find? (fun p => p.1 == q && p.2.covers pasid va && p.2.serves write)).map (·.2)

/-- Put a translation into a TLB of n entries; a full one loses an entry (R354). -/
def tlbInsert (n nonce : Nat) (l : List Tlb) (t : Tlb) : List Tlb :=
  let l := l.filter (fun u => !(u.pasid == t.pasid && u.page == t.page && u.bits == t.bits))
  if l.length < n then t :: l else t :: l.eraseIdx (Config.tlbVictim nonce % n)

/-- Cache a translation in the core TLB of core c. -/
def State.cacheCore (s : State) (c : Nat) (t : Tlb) : State :=
  s.modCore c (fun k => { k with tlb := tlbInsert 256 s.nonce k.tlb t })

/-- Cache a translation in the TLB of quire q. -/
def State.cacheQuire (s : State) (q : Nat) (t : Tlb) : State :=
  let mine := (s.qtlb.filter (fun p => p.1 == q)).map (·.2)
  let others := s.qtlb.filter (fun p => p.1 != q)
  { s with qtlb := others ++ (tlbInsert 4096 s.nonce mine t).map (fun t => (q, t)) }

/-- Load the last-page register of a lane (R353, R355). -/
def State.loadLpr (s : State) (c lane : Nat) (t : Tlb) : State :=
  s.modCore c (fun k => { k with lpr := k.lpr.put lane t })

/-! ## The walk (R348 to R352) -/

/-- Reason codes of R352, and 4 for an access that the host or the peer's missing route refuses (R368, R373). -/
def rNotMapped : Nat := 1
def rHost : Nat := 2
def rMalformed : Nat := 3
def rRefused : Nat := 4

/-- The endpaper event of a translation fault or an attribute violation that core c met (R356, R430). -/
def State.noteFault (s : State) (c pasid cause reason va : Nat) : State :=
  s.endpaper (quireOf c) 1 c (cause + 256 * (if reason = rRefused then 0 else reason)) va pasid

/-- A 64-bit entry at a physical address, or the walk cache's copy of it. -/
def State.walkEntry (s : State) (q pasid level pre a : Nat) : W64 :=
  match s.wcache.find? (fun w => w.quire == q && w.pasid == pasid && w.level == level && w.prefix_ == pre) with
  | some w => if Config.walkHeld (16 * s.nonce + level) then w.val else BitVec.ofNat 64 (s.readNat a 8)
  | none => BitVec.ofNat 64 (s.readNat a 8)

/-- What a walk finds: the leaf entry with its page size in bits, the directory entry, and the directory and
pointer entries read on the way. -/
structure Found where
  leaf : W64
  bits : Nat
  dir : W64
  path : List WalkEntry

/-- Is the pointer entry well formed (R351)? -/
def pointerOk (e : W64) : Bool :=
  e.extractLsb' 52 12 == 0 && e.extractLsb' 40 12 == 0 && e.extractLsb' 8 4 == 0 && e.extractLsb' 2 6 == 0

/-- Is the leaf entry well formed, at a page size of the given number of bits (R351)? -/
def leafOk (e : W64) (bits : Nat) : Bool :=
  let tgt := e.extractLsb' 6 2
  let addr := (e.extractLsb' 12 40).toNat
  e.extractLsb' 52 4 == 0 && e.extractLsb' 8 4 == 0 && tgt != 3
    && (tgt == 2 || e.extractLsb' 56 8 == 0)
    && (if tgt == 1 then addr == 0 else addr % 2 ^ (bits - 12) == 0)
    && (tgt != 0 || decide (addr < 2 ^ 28))

/-- Walk the levels that remain: level number and the lowest bit of its index, from the table at a. -/
def State.walkLevels (s : State) (q pasid va : Nat) (dir : W64) :
    List (Nat × Nat) → Nat → List WalkEntry → Except Nat Found
  | [], _, _ => .error rMalformed
  | (lv, lo) :: rest, tab, seen =>
    let idx := va / 2 ^ lo % (if lv = 4 then 32 else 512)
    let pre := va % 2 ^ 57 / 2 ^ lo
    let e := s.walkEntry q pasid lv pre (tab + 8 * idx)
    if !e.getLsbD 0 then .error rNotMapped
    else if lv = 4 then
      if e.getLsbD 1 then .ok ⟨e, 16, dir, seen⟩ else .error rMalformed
    else if e.getLsbD 1 then
      if lv = 3 then .ok ⟨e, 21, dir, seen⟩ else .error rMalformed
    else if !pointerOk e then .error rMalformed
    else s.walkLevels q pasid va dir rest (4096 * (e.extractLsb' 12 40).toNat) (⟨q, pasid, lv, pre, e⟩ :: seen)

/-- Physical address of the PASID directory (R348). -/
def State.pdbase (s : State) : Nat := 4096 * ((s.ctl64 0xE000).extractLsb' 12 28).toNat

/-- The walk of a virtual address (R350, R352): the leaf, or the reason of the fault. -/
def State.walkTables (s : State) (q pasid va : Nat) : Except Nat Found :=
  if (s.ctlAt 0xE008).toNat ≤ pasid then .error rNotMapped
  else
    let a := s.pdbase + 16 * pasid
    let d := s.walkEntry q pasid 9 0 a
    if !d.getLsbD 0 then .error rNotMapped
    else if d.extractLsb' 40 24 != 0 || d.extractLsb' 3 9 != 0 || s.readNat (a + 8) 8 != 0 then .error rMalformed
    else
      match s.walkLevels q pasid va d [(0, 48), (1, 39), (2, 30), (3, 21), (4, 16)]
          (4096 * (d.extractLsb' 12 40).toNat) [⟨q, pasid, 9, 0, d⟩] with
      | .error r => .error r
      | .ok f =>
        let tgt := f.leaf.extractLsb' 6 2
        if tgt == 1 && !(d.getLsbD 1 && s.cfg.1 && s.cfg.2.1 && s.cfg.2.2) then .error rNotMapped
        else if !leafOk f.leaf f.bits then .error rMalformed
        else .ok f

/-- The translation that a module or peer leaf gives (R351, R353). -/
def Found.tlb (f : Found) (pasid va : Nat) : Tlb :=
  let tgt := (f.leaf.extractLsb' 6 2).toNat
  let addr := 4096 * (f.leaf.extractLsb' 12 40).toNat
  { pasid, page := va / 2 ^ f.bits, bits := f.bits, tgt
    target := if tgt = 2 then peerBase + 2 ^ 64 * (f.leaf.extractLsb' 56 8).toNat + addr else addr
    ro := f.leaf.getLsbD 2, sc := f.leaf.getLsbD 3, fa := f.leaf.getLsbD 4, nc := f.leaf.getLsbD 5
    u := false, rd := true, wr := true }

/-- Where a host page that is sent untranslated stands in the model's memory, by PASID (assumption 5). -/
def untranslatedBase (pasid : Nat) : Nat := 2 ^ 73 + 2 ^ 64 * pasid

/-- The translation of a host page that an ATS completion grants (R367, R368). -/
def Walk.hostTlb (w : Walk) (rd wr u : Bool) (frame : Nat) : Tlb :=
  { pasid := w.pasid, page := page4K w.va, bits := 12, tgt := 1
    target := if u then untranslatedBase w.pasid + 4096 * page4K w.va else hostBase + 4096 * (frame % 2 ^ 52)
    ro := w.ro, sc := w.sc, fa := w.fa, nc := w.nc, u, rd, wr }

/-! ## Starting a walk -/

/-- Ask core c's translation unit for a page: a walk of its own, or one already under way for the same
page and need (R355, R369). -/
def State.startWalk (s : State) (c pasid va : Nat) (write probe : Bool) (who : Asker) : State :=
  let same (w : Walk) : Bool :=
    w.pasid == pasid && page4K w.va == page4K va && w.write == write && w.probe == probe && !w.nocache && w.covers.isEmpty
  if (s.core c).walks.any same then
    s.modCore c (fun k => { k with walks := k.walks.map (fun w =>
      if same w && !w.who.contains who then { w with who := w.who ++ [who] } else w) })
  else
    (s.modCore c (fun k => { k with walks := k.walks ++
      [⟨pasid, va, write, probe, [who], 0, s.time + Config.walkDelay s.nonce, false, false, false, false, false,
        false, false, []⟩] })).tickNonce

/-- Ask for a list of pages. -/
def State.startWalks (s : State) (c pasid : Nat) (write probe : Bool) (who : Asker) : List Nat → State
  | [] => s
  | va :: l => (s.startWalk c pasid va write probe who).startWalks c pasid write probe who l

/-! ## Ranges, for the engines, FOLLD and the launch scheduler (R347, R353) -/

/-- The pieces of a range that stay within 4 KiB pages: address and length; fuel bounds their number. -/
def pieces : Nat → Nat → Nat → List (Nat × Nat)
  | 0, _, _ => []
  | fuel + 1, va, n =>
    if n = 0 then []
    else
      let m := min n (4096 - va % 4096)
      (va, m) :: pieces fuel (va + m) (n - m)

/-- What a range read or write meets: every piece with its translation, or the pages that are missing. -/
inductive Range where
  | ok (l : List (Nat × Nat × Tlb))
  | miss (pages : List Nat)

/-- Translate a range of a PASID with core c's TLB. -/
def State.xrange (s : State) (c pasid va n : Nat) (write : Bool) : Range :=
  let ps := pieces (n / 4096 + 2) va n
  let k := s.core c
  let missing := ps.filter (fun p => (k.tlbHit pasid (p.1 % 2 ^ 64) write).isNone)
  match missing with
  | [] => .ok (ps.filterMap (fun p => (k.tlbHit pasid (p.1 % 2 ^ 64) write).map (fun t => (p.1 % 2 ^ 64, p.2, t))))
  | _ => .miss (missing.map (fun p => p.1 % 2 ^ 64))

/-- The bytes of translated pieces, at device scope. -/
def State.readPieces (s : State) : List (Nat × Nat × Tlb) → List Byte
  | [] => []
  | (va, n, t) :: l => s.read (t.phys va) n ++ s.readPieces l

/-- Write bytes to translated pieces, at device scope. -/
def State.writePieces (s : State) : List (Nat × Nat × Tlb) → List Byte → State
  | [], _ => s
  | (va, n, t) :: l, b => (s.write (t.phys va) (b.take n)).writePieces l (b.drop n)

/-- A translation whose peer has a route. -/
def Tlb.routed (t : Tlb) (b : Boot) : Except Nat Tlb := if t.noRoute b then .error rRefused else .ok t

/-- A translation by an immediate walk, which the hints CCTL and PFL2 use: they pass over a line that has none, and over host
pages (R194, R232). -/
def State.xlateNow (s : State) (c pasid va : Nat) (write : Bool) : Except Nat Tlb :=
  match (s.core c).tlbHit pasid va write with
  | some t => t.routed s.boot
  | none =>
    match s.qtlbHit (quireOf c) pasid va write with
    | some t => t.routed s.boot
    | none =>
      match s.walkTables (quireOf c) pasid va with
      | .error r => .error r
      | .ok f => if f.leaf.extractLsb' 6 2 == 1 then .error rHost else (f.tlb pasid va).routed s.boot

/-- What the bytes of a range meet: their pieces, a fault with its cause, reason and address, or pages to walk. -/
inductive Plan where
  | ok (l : List (Nat × Nat × Tlb))
  | fault (cause : BitVec 8) (reason va : Nat)
  | miss (pages : List Nat)

/-- Translate n bytes at va for core c, given the faults that walks have found. -/
def State.plan (s : State) (c pasid va n : Nat) (write : Bool) (faults : List (Nat × Nat)) : Plan :=
  let ps := pieces (n / 4096 + 2) va n
  match ps.find? (fun p => !canonical (p.1 % 2 ^ 64)) with
  | some p => .fault cAccess 0 (p.1 % 2 ^ 64)
  | none =>
    match s.xrange c pasid va n write with
    | .ok l =>
      match l.find? (fun p => p.2.2.noRoute s.boot || (write && p.2.2.readOnly)) with
      | some p => .fault cAccess 0 p.1
      | none => .ok l
    | .miss pages =>
      match pages.filterMap (fun a => (faults.find? (fun f => f.1 == page4K a)).map (fun f => (a, f.2))) with
      | (a, r) :: _ => .fault (if r = rRefused then cAccess else cPageFault) (if r = rRefused then 0 else r) a
      | [] => .miss pages

/-! ## Translation status (R359) -/

/-- The status of a translation that was found. -/
def Tlb.status (t : Tlb) (hit : Bool) : W32 :=
  BitVec.ofNat 32 (1 + (if hit then 2 else 0)
    + 4 * (if t.bits = 16 then 0 else if t.bits = 21 then 1 else 2)
    + 16 * t.tgt + (if t.ro || !t.wr then 64 else 0) + (if t.sc then 128 else 0) + (if t.fa then 256 else 0)
    + (if t.nc then 512 else 0))

/-- The status of a fault with its reason: 1 not mapped, 2 host page, 3 malformed; a refused host page is
reason 2 with HREF. -/
def faultStatus (reason : Nat) : W32 :=
  if reason = rRefused then BitVec.ofNat 32 (2 * 1024 + 4096) else BitVec.ofNat 32 (reason * 1024)

/-! ## The sweep (R364) -/

/-- Does the cover name a page of a PASID, given the page's first address and size? Mode 0 the page that
holds an address; 1 and 5 a range; 2 a PASID; 3 and 4 all. -/
def Cover.names (v : Cover) (pasid base size : Nat) : Bool :=
  (match v.pasid with | some p => p == pasid | none => true) &&
  (match v.mode with
    | 0 => decide (base ≤ v.va ∧ v.va < base + size)
    | 1 => decide (base < v.va + v.len ∧ v.va < base + size)
    | 5 => decide (base < v.va + v.len ∧ v.va < base + size)
    | _ => true)

/-- A cached translation is removed; mode 5 removes host pages only (R370). -/
def Cover.removes (v : Cover) (t : Tlb) : Bool :=
  (v.mode != 5 || t.tgt == 1) && v.names t.pasid (t.page * 2 ^ t.bits) (2 ^ t.bits)

/-- The region below a walk-cache entry: its first address and size. -/
def WalkEntry.region (w : WalkEntry) : Nat × Nat :=
  match w.level with
  | 0 => (w.prefix_ * 2 ^ 48, 2 ^ 48)
  | 1 => (w.prefix_ * 2 ^ 39, 2 ^ 39)
  | 2 => (w.prefix_ * 2 ^ 30, 2 ^ 30)
  | 3 => (w.prefix_ * 2 ^ 21, 2 ^ 21)
  | _ => (0, 2 ^ 64)

/-- A walk-cache entry is removed: it stands on the walk to a page named. -/
def Cover.removesEntry (v : Cover) (w : WalkEntry) : Bool :=
  v.mode != 4 && v.mode != 5 &&
    ({ v with va := if w.level = 9 then v.va else v.va % 2 ^ 57 } : Cover).names w.pasid w.region.1 w.region.2

/-- The sweep of a core: its last-page registers, its TLB, and its walks in progress, whose results will not
be cached. -/
def Core.sweep (k : Core) (v : Cover) : Core :=
  { k with
    lpr := k.lpr.filter (fun p => !v.removes p.2)
    tlb := k.tlb.filter (fun t => !v.removes t)
    walks := k.walks.map (fun w =>
      if w.stage = 0 then { w with covers := w.covers ++ [v] }
      else if v.names w.pasid (page4K w.va * 4096) 4096 then { w with nocache := true } else w) }

/-- The sweep of the module, or of core c alone (R363, R364). -/
def State.sweep (s : State) (v : Cover) (c : Nat) : State :=
  if v.mode = 4 then s.modCore c (fun k => k.sweep v)
  else
    { s with
      cores := s.cores.map (fun p => (p.1, p.2.sweep v))
      qtlb := s.qtlb.filter (fun p => !v.removes p.2)
      wcache := s.wcache.filter (fun w => !v.removesEntry w) }

end Sys2Proof.Machine
end

