-- ==== Sys2Proof/Machine/Mem.lean ====
section
/-! DEFINITION. Performing accesses: scratchpad windows and banks, barrier objects, the L1 and the write buffer,
atomics and the places where they are performed, the clasp table, the store hash and the acquire and release
actions of scopes (R165 to R211, R428). -/

namespace Sys2Proof.Machine

/-! ## Windows (R167) -/

/-- Bytes of a block's scratchpad window. -/
def Block.window (b : Block) : Nat := 128 * b.lr.scratch

/-- The block of a grid that is resident on a core: the one with the lowest %block. -/
def Core.blockOf (k : Core) (grid : Nat) : Option Nat :=
  (k.blocks.foldl (fun (acc : Option (Nat × Nat)) p =>
    if p.2.grid = grid then
      match acc with
      | some q => if p.2.bno < q.2 then some (p.1, p.2.bno) else acc
      | none => some (p.1, p.2.bno)
    else acc) none).map (·.1)

/-- Where a remote address of a block's grid leads, for n bytes: core, resident index, offset. -/
def State.remoteTarget (s : State) (c grid addr n : Nat) : Option (Nat × Nat × Nat) :=
  let t := 8 * gatheringOf c + addr / 2 ^ 29 % 8
  let off := addr % 2 ^ 19
  if addr / 2 ^ 19 % 1024 ≠ 0 then none
  else
    match (s.core t).blockOf grid with
    | none => none
    | some r =>
      match (s.core t).blocks.find? r with
      | some b => if off + n ≤ b.window then some (t, r, off) else none
      | none => none

/-- Bytes of a window. -/
def State.scratchRead (s : State) (c r off n : Nat) : List Byte :=
  match (s.core c).blocks.find? r with
  | some b => SMap.getMany 0 b.scratch off n
  | none => SMap.getMany 0 [] off n

/-- Write bytes of a window. -/
def State.scratchPut (s : State) (c r off : Nat) (b : List Byte) : State :=
  s.modBlock c r (fun x => { x with scratch := SMap.setMany 0 x.scratch off b })

/-- Is a line of a window present (R169)? -/
def State.linePresent (s : State) (c r line : Nat) : Bool :=
  match (s.core c).blocks.find? r with
  | some b => (KMap.find? b.absent line).isNone
  | none => true

/-- Are all lines of n bytes present? -/
def State.bytesPresent (s : State) (c r off n : Nat) : Bool :=
  (List.range ((off + n - 1) / 128 - off / 128 + 1)).all (fun i => s.linePresent c r (off / 128 + i))

/-- Ask the banks of core c for the words of n bytes at offset off of window r (R168). -/
def State.bankWords (s : State) (c r off n port delay src tag : Nat) : State :=
  let l := (List.range ((off + n - 1) / 4 - off / 4 + 1)).map
    (fun i => (⟨port, r * 2 ^ 17 + off / 4 + i, 0, none, delay, src, tag⟩ : BankReq))
  s.modClock c (fun k => { k with words := k.words ++ l })

/-! ## Barrier objects (R187, R188) -/

/-- A barrier object's fields, and the bits of its words 0, 1 and 3 that are to be zero, which no operation changes (R4). -/
structure Bar where
  ph : Bool
  pend : Nat
  narr : Nat
  bytes : Nat
  z0 : Nat
  z1 : Nat
  z3 : Nat
deriving DecidableEq, Repr

/-- The object in 16 bytes, and whether its zero bits are zero and NARR is not (R187). -/
def Bar.read (l : List Byte) : Bar × Bool :=
  let w0 := bytesNat (l.take 4)
  let w1 := bytesNat ((l.drop 4).take 4)
  let w3 := bytesNat ((l.drop 12).take 4)
  let b : Bar := ⟨decide (2 ^ 31 ≤ w0), w0 % 2 ^ 16, w1 % 2 ^ 16, bytesNat ((l.drop 8).take 4), w0 / 2 ^ 16 % 2 ^ 15, w1 / 2 ^ 16, w3⟩
  (b, b.z0 == 0 && b.z1 == 0 && b.z3 == 0 && b.narr != 0)

/-- The 16 bytes of an object. -/
def Bar.write (b : Bar) : List Byte :=
  natBytes 4 (b.pend + 2 ^ 16 * b.z0 + (if b.ph then 2 ^ 31 else 0)) ++ natBytes 4 (b.narr + 2 ^ 16 * b.z1) ++ natBytes 4 b.bytes
    ++ natBytes 4 b.z3

/-- The object that BARINIT writes (R189). -/
def Bar.init (n : Nat) : Bar := ⟨false, n, n, 0, 0, 0, 0⟩

/-- Does the window hold an object there that an instruction or a request may read (R4, R187)? -/
def State.barOk (s : State) (c r off : Nat) : Bool := (Bar.read (s.scratchRead c r off 16)).2

/-- An operation on an object asks its banks for the object's words, as a requester (R16, R188). -/
def State.askBar (s : State) (c r off port src : Nat) : State :=
  s.bankWords c r off 16 port 0 src (if port < 5 then 0 else 3)

/-- The phase completes when nothing is pending (R188). -/
def Bar.complete (b : Bar) : Bar :=
  if b.pend = 0 ∧ b.bytes = 0 then { b with ph := !b.ph, pend := b.narr } else b

/-- Recheck the paths that wait on an object whose bytes have changed: those that see another phase go on
(R188, R191). -/
def State.recheck (s : State) (c r off n : Nat) : State :=
  let wakes (p : Path) : Bool :=
    match p.park with
    | some (.phase c' r' o tok) =>
      c' == c && r' == r && decide (o < off + n ∧ off < o + 16)
        && (Bar.read (s.scratchRead c r o 16)).1.ph != tok
    | _ => false
  let up (p : Path) : Path :=
    if wakes p then { p with park := none, granted := p.granted ++ [p.park.getD .switch] } else p
  if s.cores.any (fun q => q.2.warps.any (fun w => wakes w.2.pri || wakes w.2.alt)) then
    { s with cores := s.cores.map (fun q => (q.1, q.2.mapPaths (fun _ p => up p))) }
  else s

/-- One operation on an object, atomic, with the phase's completion (R188). -/
def State.barOp (s : State) (c r off : Nat) (f : Bar → Bar) : State :=
  let b := (Bar.read (s.scratchRead c r off 16)).1
  (s.scratchPut c r off (f b).complete.write).recheck c r off 16

/-- ARRIVE's arrival with count n (R190). -/
def Bar.arrive (n : Nat) (b : Bar) : Bar := { b with pend := if n ≤ b.pend then b.pend - n else 0 }

/-- The copy engine's addition or subtraction of bytes, modulo 2^32 (R188). -/
def Bar.addBytes (n : Int) (b : Bar) : Bar := { b with bytes := (((b.bytes : Int) + n) % 2 ^ 32).toNat }

/-! ## The store hash (R428) -/

/-- One byte into a CRC-64 of ECMA-182, most significant bit first. -/
def crcByte (x : W64) (b : Byte) : W64 :=
  (List.range 8).foldl (fun (a : W64) _ => if a.getLsbD 63 then (a <<< 1) ^^^ 0x42F0E1EBA9EA3693 else a <<< 1)
    (x ^^^ (b.setWidth 64 <<< 56))

/-- The bytes that a write adds: its address, its size, its data. -/
def hashBytes (space ea : Nat) (b : List Byte) : List Byte :=
  natBytes 8 (if space = 0 then ea else if space = 1 then 2 ^ 63 + ea else 2 ^ 63 + 2 ^ 62 + ea)
    ++ natBytes 1 b.length ++ b

/-- Add bytes to a thread's CRC. -/
def Warp.hashAdd (w : Warp) (lane : Nat) (b : List Byte) : Warp :=
  { w with crc := SMap.set 0 w.crc lane (b.foldl crcByte (SMap.get 0 w.crc lane)) }

/-- A write that retires as it issues: at once, or behind the thread's atomics that are still to be
performed. -/
def Warp.hashWrite (w : Warp) (lane : Nat) (b : List Byte) : Warp :=
  if w.hq.any (fun h => h.lane == lane) then { w with hq := w.hq ++ [⟨lane, 0, some b⟩] } else w.hashAdd lane b

/-- Let the known writes at the front of every thread's order enter its CRC; waiting holds the lanes that an
unknown one holds back. -/
def Warp.hashFlush (w : Warp) (waiting : List Nat) : List HashEntry → Warp
  | [] => { w with hq := [] }
  | h :: l =>
    match h.bytes with
    | some b =>
      if waiting.contains h.lane then
        let x := w.hashFlush waiting l
        { x with hq := h :: x.hq }
      else (w.hashAdd h.lane b).hashFlush waiting l
    | none =>
      let x := w.hashFlush (h.lane :: waiting) l
      { x with hq := h :: x.hq }

/-- An atomic has been performed: its write, if it made one, enters in its place. -/
def Warp.hashDone (w : Warp) (lane id : Nat) (b : Option (List Byte)) : Warp :=
  let q := w.hq.map (fun h =>
    if h.lane == lane && h.id == id && h.bytes.isNone then { h with bytes := some (b.getD []) } else h)
  w.hashFlush [] q

/-! ## Results that are filled in later -/

/-- Put a lane's words into a result. -/
def Result.fill (r : Result) (lane : Nat) (ws : List W32) : Result :=
  let i := ((lanesOf r.lanes).filter (· < lane)).length
  { r with
    vals := if r.dest == .w then ws
      else r.vals.take (i * r.regs.length) ++ ws ++ r.vals.drop ((i + 1) * r.regs.length)
    due := r.due - 1 }

/-- Change the result of an identity wherever it is held: in flight, or in a strand's snapshot (R156). -/
def Warp.modResult (w : Warp) (id : Nat) (f : Result → Result) : Warp :=
  let g (r : Result) : Result := if r.id == id then f r else r
  { w with results := w.results.map g
           hand := w.hand.map (fun h => { h with snap := h.snap.map g }) }

/-- A lane's value arrives for a result of warp w. -/
def State.fill (s : State) (c w id lane : Nat) (ws : List W32) : State :=
  s.modWarp c w (fun x => x.modResult id (fun r => r.fill lane ws))

/-! ## The L1 and the write buffer (R170 to R172) -/

/-- The core's gathering has its L1s fused: from the placement of a group until its last block ends, whether a block of it is
resident or waits to be placed again (R325). -/
def State.fused (s : State) (c : Nat) : Bool :=
  (List.range 8).any (fun i =>
    let j := 8 * gatheringOf c + i
    (match s.cores.find? j with
      | some k => k.blocks.any (fun b => b.2.fused)
      | none => false)
    || ((s.waiting.find? j).getD []).any (fun x => match x.saved with | some v => v.block.fused | none => false))

/-- The L1s of core c's gathering hold nothing any longer, as they are fused or parted (R171; assumption 113). -/
def State.l1Clear (s : State) (c : Nat) : State :=
  (List.range 8).foldl (fun s i => s.modCore (8 * gatheringOf c + i) (fun k => { k with l1 := [] })) s

/-- The core whose L1 holds a physical address for core c (R171). -/
def State.l1Core (s : State) (c pa : Nat) : Nat :=
  if s.fused c then 8 * gatheringOf c + pa / 128 % 8 else c

/-- Insert an entry by its number. -/
def wbInsert (e : WbEntry) : List WbEntry → List WbEntry
  | [] => [e]
  | x :: l => if e.seq < x.seq then e :: x :: l else x :: wbInsert e l

/-- The cores that share an L1 with core c: those of its fused gathering, or it alone (R171). -/
def State.l1Peers (s : State) (c : Nat) : List Nat :=
  if s.fused c then (List.range 8).map (8 * gatheringOf c + ·) else [c]

/-- The write-buffer entries whose stores core c's L1 shows: its own, or those of its fused gathering in the
order of their issue. -/
def State.l1Wb (s : State) (c : Nat) : List WbEntry :=
  if s.fused c then ((s.l1Peers c).flatMap (fun i => (s.core i).wb)).foldl (fun l e => wbInsert e l) []
  else (s.core c).wb

/-- The byte that the last buffered store to an address holds. -/
def wbByte (l : List WbEntry) (a : Nat) : Option Byte :=
  l.foldl (fun acc e =>
    match e.kind with
    | .store b => if e.addr ≤ a ∧ a < e.addr + b.length then b[a - e.addr]? else acc
    | _ => acc) none

/-- n bytes at a physical address with buffered stores laid over them. -/
def State.overlay (s : State) (l : List WbEntry) (a n : Nat) : List Byte :=
  (List.range n).map (fun i => (wbByte l (a + i)).getD (SMap.get 0 s.mem (a + i)))

/-- Drop the line of a physical address from the L1 that core c uses. -/
def State.l1Drop (s : State) (c pa : Nat) : State :=
  s.modCore (s.l1Core c pa) (fun k => { k with l1 := k.l1.filter (fun x => x.line ≠ pa / 128) })

/-- How late a line of a placement class is evicted: first, as others, last (R172). -/
def hintRank (hint : Nat) : Nat := if hint = 1 ∨ hint = 3 then 0 else if hint = 4 then 2 else 1

/-- The places of the lines of an L1 that are evicted before all others (R172). -/
def l1Victims (l : List L1Line) : List Nat :=
  let m := l.foldl (fun m x => min m (hintRank x.hint)) 2
  (List.range l.length).filter (fun i => match l[i]? with | some x => hintRank x.hint == m | none => false)

/-- Put a line into an L1 of 1,536 lines; a full one loses a line of those to be evicted first (R172, assumption 14). -/
def l1Insert (nonce : Nat) (l : List L1Line) (x : L1Line) : List L1Line :=
  if l.length < 1536 then x :: l
  else
    let v := l1Victims l
    x :: l.eraseIdx (v.getD (Config.l1Victim nonce % v.length) 0)

/-- A line of module memory takes the placement class of an access in its home L2 (R172). -/
def State.l2Place (s : State) (t : Tlb) (pa hint : Nat) : State :=
  if t.tgt = 0 && hintRank hint != 1 then { s with l2 := s.l2.put (pa / 128) (hintRank hint / 2 + 1) } else s

/-- A line as the L1 of core c would fetch it. -/
def State.l1Line (s : State) (c pa : Nat) : List Byte := s.overlay (s.l1Wb c) (pa / 128 * 128) 128

/-- n bytes within a line, read through the L1 that core c uses; a miss allocates unless the hint says
otherwise (R170, R172). -/
def State.l1Read (s : State) (c pa n hint : Nat) : List Byte × State :=
  let o := s.l1Core c pa
  match (s.core o).l1.find? (fun x => x.line == pa / 128) with
  | some x => ((x.data.drop (pa % 128)).take n, s)
  | none =>
    let d := s.l1Line c pa
    ((d.drop (pa % 128)).take n,
      if hint = 2 ∨ hint = 3 then s
      else (s.modCore o (fun k => { k with l1 := l1Insert s.nonce k.l1 ⟨pa / 128, d, hint⟩ })).tickNonce)

/-- A store updates a line that the L1 holds (R170). -/
def State.l1Store (s : State) (c pa : Nat) (b : List Byte) : State :=
  s.modCore (s.l1Core c pa) (fun k => { k with l1 := k.l1.map (fun x =>
    if x.line = pa / 128 then
      { x with data := x.data.take (pa % 128) ++ b ++ x.data.drop (pa % 128 + b.length) } else x) })

/-- Put an entry into core c's write buffer. -/
def State.wbPush (s : State) (c w pa : Nat) (kind : WbKind) (rel : Bool) : State :=
  (s.modCore c (fun k => { k with wb := k.wb ++ [⟨s.nonce, w, pa, kind, rel, s.time + Config.drainDelay s.nonce⟩] })).tickNonce

/-! ## What must be performed first -/

/-- A waiting slice. -/
def Slice.init : Slice := ⟨[], none, [], 0, 0, false, false, false, 0, 0, 0, 0⟩

/-- Slice sl. -/
def State.slice (s : State) (sl : Nat) : Slice := (s.slices.find? sl).getD Slice.init

/-- Change slice sl. -/
def State.modSlice (s : State) (sl : Nat) (f : Slice → Slice) : State :=
  { s with slices := s.slices.put sl (f (s.slice sl)) }

/-- Is the entry an atomic of warp w numbered below seq? -/
def WbEntry.atomOf (e : WbEntry) (w seq : Nat) : Bool :=
  match e.kind with
  | .atom .. => e.warp == w && decide (e.seq < seq)
  | _ => false

/-- Does warp w of core c have an atomic, numbered below seq, that is still to be performed at a slice or
before it, or a remote access under way? -/
def State.atomicsDue (s : State) (c w seq : Nat) : Bool :=
  (s.core c).wb.any (fun e => e.atomOf w seq)
    || s.slices.any (fun p => p.2.reqs.any (fun r => r.core == c && r.warp == w && !r.eng && decide (r.id < seq)))
    || s.cores.any (fun p => p.2.remote.any (fun r => r.src == c && r.warp == w && decide (r.id < seq)))

/-- Do the write buffers of the cores that share core c's L1 hold nothing numbered below seq (R171)? -/
def State.drained (s : State) (c seq : Nat) : Bool :=
  (s.l1Peers c).all (fun o => (s.core o).wb.all (fun e => decide (seq ≤ e.seq)))

/-- Have the warp's accesses numbered below seq been performed, with drain at their homes, and with them the stores that the
warp may have read from the buffers of its fused gathering (R171, R186, R205)? Accesses that a stopped strand performs when it
resumes do not count. -/
def State.performed (s : State) (c w seq : Nat) (drain : Bool) : Bool :=
  !s.atomicsDue c w seq && (!drain || s.drained c seq)
    && (match (s.core c).strand with
      | some t => t.warp != w || t.deferred.all (fun d => t.stays d || decide (seq ≤ d.acc.id))
      | none => true)

/-- Has the path been granted a fence wait at least as strong? -/
def Path.fenced (p : Path) (drain : Bool) : Bool :=
  p.granted.any (fun k => match k with | .fence _ d => d || !drain | _ => false)

/-- The earlier accesses of the issuer have been performed, or the wait for them has been granted. -/
def Env.settledNow (e : Env) (s : State) (drain : Bool) : Bool :=
  e.path.fenced drain || s.performed e.c e.w s.nonce drain

/-- Wait until the earlier accesses of the issuer have been performed, once for the instruction. -/
def Env.settled (e : Env) (s : State) (drain : Bool) : Except Stop Unit :=
  if e.settledNow s drain then .ok () else .error (.wait (.fence s.nonce drain) id)

/-- Does an atomic numbered below seq, of a warp for which who holds and of a core that shares core c's L1, still have to be
performed at its home on some of n bytes at a physical address? -/
def State.atomicOverlaps (s : State) (c : Nat) (who : Nat → Nat → Bool) (seq pa n : Nat) : Bool :=
  (s.l1Peers c).any (fun o => (s.core o).wb.any (fun e =>
      match e.kind with
      | .atom _ m .. => who o e.warp && decide (e.seq < seq) && decide (e.addr < pa + n ∧ pa < e.addr + m)
      | _ => false))
    || s.slices.any (fun p => p.2.reqs.any (fun r =>
      (s.l1Peers c).contains r.core && who r.core r.warp && !r.eng && decide (r.id < seq)
        && decide (r.addr < pa + n ∧ pa < r.addr + r.n)))

/-- Does a store numbered below seq of another core that shares core c's L1 still have to be delivered to some of n bytes at a
physical address? -/
def State.storeOverlaps (s : State) (c seq pa n : Nat) : Bool :=
  (s.l1Peers c).any (fun o => o != c && (s.core o).wb.any (fun e =>
    match e.kind with
    | .store b => decide (e.seq < seq) && decide (e.addr < pa + n ∧ pa < e.addr + b.length)
    | _ => false))

/-! ## Scopes (R174, R205) -/

/-- Is a strong access of a scope performed at the home slice? Scopes: 1 warp, 2 core, 3 gathering, 4 quire,
5 device, 6 system. -/
def State.atHome (s : State) (c scope : Nat) : Bool := decide (4 ≤ scope) || (scope == 3 && !s.fused c)

/-- The cache action of an acquire at a scope (R205). -/
def State.acquire (s : State) (c scope : Nat) : State :=
  if scope ≤ 2 then s
  else if s.fused c then
    if scope = 3 then s
    else s.l1Clear c
  else s.modCore c (fun k => { k with l1 := [] })

/-- Does a release at a scope drain the write buffer to the homes (R205)? -/
def State.drains (s : State) (c scope : Nat) : Bool := s.atHome c scope

/-! ## Atomics (R184, R185) -/

/-- The FP32 sum of FADD: RNE, subnormals kept, canonical NaN, no flag. -/
def atomFadd (a b : W32) : Nat :=
  ((resAdd fmtF32 1 (fmtF32.read a.toNat) (fmtF32.read b.toNat)).round fmtF32 1 1 false 0).1

/-- A number of n bytes read as signed. -/
def signedBytes (n x : Nat) : Int := if 2 ^ (8 * n - 1) ≤ x then (x : Int) - 2 ^ (8 * n) else x

/-- The value that an atomic leaves: none when it writes nothing. -/
def atomNew (kind : AccKind) (n old b c : Nat) : Option Nat :=
  let go (op : Nat) : Nat :=
    if n = 8 ∧ op = 3 then b
    else
      match op with
      | 0 => (old + b) % 2 ^ (8 * n)
      | 1 => if signedBytes n b < signedBytes n old then b else old
      | 2 => if signedBytes n old < signedBytes n b then b else old
      | 3 => (BitVec.ofNat 64 old &&& BitVec.ofNat 64 b).toNat
      | 4 => (BitVec.ofNat 64 old ||| BitVec.ofNat 64 b).toNat
      | 5 => (BitVec.ofNat 64 old ^^^ BitVec.ofNat 64 b).toNat
      | 6 => b
      | _ => atomFadd (BitVec.ofNat 32 old) (BitVec.ofNat 32 b)
  match kind with
  | .atom op => some (go op)
  | .red op => some (go op)
  | .cas => if old = b then some c else none
  | _ => none

/-- The number of a list of words. -/
def wordsNat (l : List W32) : Nat := bytesNat (bytesOfWords l)

/-- An atomic on bytes: the old words, and the bytes written. -/
def atomBytes (kind : AccKind) (n : Nat) (old : List Byte) (data cmp : List W32) : List W32 × Option (List Byte) :=
  (wordsOfBytes old, (atomNew kind n (bytesNat old) (wordsNat data) (wordsNat cmp)).map (natBytes n))

/-- An atomic is performed on memory for warp w of core c: the write, the result, the hash, and the line that
the L1 may hold goes (R199). -/
def State.atomMem (s : State) (c w : Nat) (kind : AccKind) (n lane id pa ea : Nat) (data cmp : List W32) : State :=
  let r := atomBytes kind n (s.read pa n) data cmp
  let s := match r.2 with | some b => s.write pa b | none => s
  let s := if isModule pa then s.l1Drop c pa else s
  (s.fill c w id lane r.1).modWarp c w (fun x => x.hashDone lane id (r.2.map (hashBytes 0 ea)))

/-- Tagged addresses of host memory, or of peer memory. -/
def isOuter (peer : Bool) (a : Nat) : Bool :=
  if peer then decide (peerBase ≤ a ∧ a < 2 ^ 73) else decide (hostBase ≤ a ∧ a < peerBase) || decide (2 ^ 73 ≤ a)

/-! ## The clasp table (R206 to R209) -/

/-- Where bytes lie: a virtual address with its physical one, or a window. -/
inductive Place where
  | glob (pa : Nat) (t : Tlb)
  | scr (core rix off : Nat)
deriving DecidableEq, Repr

/-- Does a clasp entry of core c cover n bytes at an effective address? Global ranges are compared by
virtual address, modulo 2^64 (R166, R217), windows by the bytes they are. -/
def State.claspMeets (s : State) (c : Nat) (x : Clasp) (ea n : Nat) (p : Place) : Bool :=
  match p with
  | .glob _ _ => x.space == 0 && x.len != 0
      && decide ((ea + (2 ^ 64 - x.base)) % 2 ^ 64 < x.len ∨ (x.base + (2 ^ 64 - ea)) % 2 ^ 64 < n)
  | .scr c' r off =>
    if x.space = 1 then c' == c && r == x.rix && decide (x.base < off + n ∧ off < x.base + x.len)
    else if x.space = 2 then
      match (s.core c).blocks.find? x.rix with
      | some b =>
        match s.remoteTarget c b.grid x.base 1 with
        | some (tc, tr, o) => c' == tc && r == tr && decide (o < off + n ∧ off < o + x.len)
        | none => false
      | none => false
    else false

/-- A thread access conflicts with core c's clasp table (R208): a write with any range, a read with a
global destination. -/
def State.claspHit (s : State) (c : Nat) (write : Bool) (ea n : Nat) (p : Place) : Bool :=
  (s.core c).clasp.any (fun x => s.claspMeets c x ea n p && (write || (x.dst && x.space == 0)))

/-! ## Performing one lane's access (R179, R181) -/

/-- The words of a loaded value: bytes zero-extended into one register, or four to a register (R181). -/
def loadWords (b : List Byte) : List W32 :=
  if b.length < 4 then [BitVec.ofNat 32 (bytesNat b)] else wordsOfBytes b

/-- The n bytes that a store takes from its data registers. -/
def storeBytes (n : Nat) (l : List W32) : List Byte := (bytesOfWords l).take n

/-- A scratchpad access at the bank, for warp w of core c (R168, R174). -/
def State.scratchAccess (s : State) (c w : Nat) (kind : AccKind) (n lane id space ea : Nat) (data cmp : List W32)
    (tc r off : Nat) : State :=
  match kind with
  | .load => s.fill c w id lane (loadWords (s.scratchRead tc r off n))
  | .store =>
    let b := storeBytes n data
    ((s.scratchPut tc r off b).recheck tc r off n).modWarp c w (fun x => x.hashDone lane id (some (hashBytes space ea b)))
  | _ =>
    let v := atomBytes kind n (s.scratchRead tc r off n) data cmp
    let s := match v.2 with | some b => (s.scratchPut tc r off b).recheck tc r off n | none => s
    (s.fill c w id lane v.1).modWarp c w (fun x => x.hashDone lane id (v.2.map (hashBytes space ea)))

/-- The writes of an access take their places in the threads' order of writes (R428). -/
def Warp.hashPend (w : Warp) (lane id : Nat) : Warp := { w with hq := w.hq ++ [⟨lane, id, none⟩] }

/-- Mark a result's lane as come from host memory or from a peer (R371, R374). -/
def State.markOuter (s : State) (c w id lane ea n tgt : Nat) : State :=
  s.modWarp c w (fun x => x.modResult id (fun r =>
    if tgt = 1 then { r with host := r.host ++ [(lane, ea, n)] } else { r with peer := r.peer ++ [(lane, ea, n)] }))

/-- Is the access performed at the home slice, the host or the peer, and not at the L1 (R174, R175, R203)? -/
def State.goesHome (s : State) (c scope : Nat) (t : Tlb) (atomic : Bool) : Bool :=
  t.tgt != 0 || t.nc || t.sc || (atomic && t.fa) || s.atHome c scope

/-- An atomic, CAS or RED. -/
def AccKind.atomic (k : AccKind) : Bool := k != .load && k != .store

/-- Must an access of warp w of core c, numbered seq, wait for others on its bytes that are still to be performed at their
homes? It follows its own warp's atomics there, one that is performed at the L1 those of every warp that shares the L1, and
one that is performed at the home the stores of the other cores that share the L1 (R199 to R201, R205). -/
def State.homeFirst (s : State) (c w seq : Nat) (a : Access) (p : Place) : Bool :=
  match p with
  | .glob pa t =>
    let home := a.kind.atomic && s.goesHome c a.scope t true
    s.atomicOverlaps c (fun o v => !home || (o == c && v == w)) seq pa a.n
      || (a.kind != .store && s.goesHome c a.scope t a.kind.atomic && s.storeOverlaps c seq pa a.n)
  | .scr .. => false

/-- A load of one lane from global memory: at the home with the core's own buffered stores, or through the
L1. -/
def State.loadGlobal (s : State) (c w : Nat) (a : Access) (l : LaneAcc) (pa : Nat) (t : Tlb) : State :=
  let s := s.l2Place t pa a.hint
  if s.goesHome c a.scope t false then
    let b := s.overlay (s.core c).wb pa a.n
    let s := if t.tgt = 0 then s.l1Drop c pa else s.markOuter c w a.id l.lane l.ea a.n t.tgt
    s.fill c w a.id l.lane (loadWords b)
  else
    let r := s.l1Read c pa a.n a.hint
    r.2.fill c w a.id l.lane (loadWords r.1)

/-- A store of one lane to global memory: to an SC page of the module at once at its home, else through the L1 and the write
buffer. -/
def State.storeGlobal (s : State) (c w : Nat) (a : Access) (l : LaneAcc) (pa : Nat) (t : Tlb) (relWarp : Bool) : State :=
  let b := storeBytes a.n l.data
  let s := s.l2Place t pa a.hint
  let s := s.modWarp c w (fun x => x.hashWrite l.lane (hashBytes 0 l.ea b))
  if t.sc && t.tgt == 0 then (s.write pa b).l1Drop c pa
  else
    let s := if t.tgt = 0 && !t.nc then s.l1Store c pa b else s
    s.wbPush c w pa (.store b) (a.rel || relWarp)

/-- An atomic of one lane on global memory: on its way to the home, or at the L1. -/
def State.atomGlobal (s : State) (c w : Nat) (a : Access) (l : LaneAcc) (pa : Nat) (t : Tlb) (relWarp : Bool) : State :=
  let s := (s.l2Place t pa a.hint).modWarp c w (fun x => x.hashPend l.lane a.id)
  if s.goesHome c a.scope t true then
    if t.sc && t.tgt == 0 then
      s.modSlice (homeSlice pa) (fun x => { x with reqs := x.reqs ++
        [⟨c, w, false, pa, a.kind, a.n, l.lane, a.id, l.data, l.cmp, s.time, l.ea⟩] })
    else
      let s := if t.tgt = 0 then s else s.markOuter c w a.id l.lane l.ea a.n t.tgt
      s.wbPush c w pa (.atom a.kind a.n l.lane a.id l.ea l.data l.cmp) relWarp
  else
    let r := s.l1Read c pa a.n a.hint
    let v := atomBytes a.kind a.n r.1 l.data l.cmp
    let s := match v.2 with
      | some b => (r.2.l1Store c pa b).wbPush c w pa (.store b) relWarp
      | none => r.2
    (s.fill c w a.id l.lane v.1).modWarp c w (fun x => x.hashDone l.lane a.id (v.2.map (hashBytes 0 l.ea)))

/-- Perform the access of one lane at its place. A remote access goes to its core's banks (R167). -/
def State.performLane (s : State) (c w : Nat) (a : Access) (l : LaneAcc) (p : Place) (relWarp : Bool) : State :=
  match p with
  | .glob pa t =>
    match a.kind with
    | .load => s.loadGlobal c w a l pa t
    | .store => s.storeGlobal c w a l pa t relWarp
    | _ => s.atomGlobal c w a l pa t relWarp
  | .scr tc r off =>
    let s := if a.kind == .load then s else s.modWarp c w (fun x => x.hashPend l.lane a.id)
    if a.space = 2 then
      s.modCore tc (fun k => { k with remote := k.remote ++
        [⟨c, w, r, off, a.kind, a.n, l.lane, a.id, l.ea, l.data, l.cmp⟩] })
    else s.scratchAccess c w a.kind a.n l.lane a.id a.space l.ea l.data l.cmp tc r off

/-! ## Accesses in flight (R364) -/

/-- A part of a copy request whose elements were translated and have not been read from global memory, or performed there. -/
def CPart.flying (p : CPart) : Bool :=
  match p.stage with
  | .fetch _ => true
  | .store _ => true
  | .adds _ => true
  | _ => false

/-- An access of core c is in flight: a read that has not returned, a write or an atomic not yet performed, an engine element
(R364). -/
def State.aloft (s : State) (c : Nat) (f : Flight) : Bool :=
  let k := s.core c
  k.wb.any (fun e => decide (f.lo ≤ e.seq) && decide (e.seq < f.hi))
    || s.slices.any (fun p => p.2.reqs.any (fun r => r.core == c && r.id == f.id))
    || k.warps.any (fun w => w.2.results.any (fun r => r.unit == 3 && r.lock && r.id == f.id && !r.ready))
    || k.copy.any (fun q => q.2.parts.any (fun p => p.flying && p.id == f.id))

/-- Core c has translated an access; those no longer in flight leave the list. -/
def State.fly (s : State) (c : Nat) (f : Flight) : State :=
  if f.tlbs.isEmpty then s
  else (s.modCore c (fun k => { k with flights := k.flights.filter (s.aloft c) ++ [f] })).tickNonce

/-- The translation that a lane's place rests on. -/
def Place.tlb : Place → Option Tlb
  | .glob _ t => some t
  | .scr .. => none

/-- Does some lane of an access reach, through a fused L1, the slice of another core (R171)? -/
def State.otherSlice (s : State) (c : Nat) (a : Access) (l : List (LaneAcc × Place)) : Bool :=
  l.any (fun p => match p.2 with
    | .glob pa t => s.l1Core c pa != c && !s.goesHome c a.scope t a.kind.atomic
    | .scr .. => false)

/-- Perform the accesses of all lanes, in ascending lane order, and then the acquire of an acquire (R179,
R205); an access to an SC page is followed by a fence (R203), and another core's slice answers 6 cycles later (R171). -/
def State.perform (s : State) (c w : Nat) (a : Access) (l : List (LaneAcc × Place)) (relWarp : Bool) : State :=
  let far := s.otherSlice c a l
  let lo := s.nonce
  let s := l.foldl (fun s p => s.performLane c w a p.1 p.2 relWarp) s
  let s := if far then s.modWarp c w (fun x => x.modResult a.id (fun r => { r with rem := r.rem + 6 })) else s
  let sc := l.any (fun p => match p.2 with | .glob _ t => t.sc | _ => false)
  let s := s.fly c ⟨a.id, lo, s.nonce, (l.filterMap (·.2.tlb)).dedup⟩
  let s := if a.acq then s.acquire c a.scope else s
  if sc then s.acquire c 5 else s

end Sys2Proof.Machine
end

