-- ==== Sys2Proof/Machine/Mx.lean ====
section
/-! DEFINITION. The matrix engine (R247 to R284, R291 to R293, R395 to R399): formats, exact steps, engine
order, and what every MX instruction does. -/

namespace Sys2Proof.Machine

/-! ## Element formats (R248 to R251) -/

/-- Bits of an element by its format code (R254). -/
def eltBits (f : Nat) : Nat :=
  match f with
  | 0 => 16
  | 1 => 8
  | 2 => 8
  | 3 => 6
  | 4 => 6
  | 5 => 4
  | 6 => 8
  | 7 => 6
  | _ => 4

/-- Is the code an MX integer format? -/
def eltInt (f : Nat) : Bool := decide (6 ≤ f ∧ f ≤ 8)

/-- K and the step cycles of a pair of formats (R248); none when they form no pair. -/
def pairOf (a b : Nat) : Option (Nat × Nat) :=
  let small (x : Nat) : Bool := decide (1 ≤ x ∧ x ≤ 4)
  if a = 0 ∧ b = 0 then some (16, 8)
  else if small a && small b then some (32, 4)
  else if (small a && b == 5) || (a == 5 && small b) then some (32, 2)
  else if a = 5 ∧ b = 5 then some (64, 4)
  else if eltInt a && eltInt b then
    match min a b, max a b with
    | 6, 6 => some (32, 16)
    | 6, 7 => some (32, 16)
    | 6, 8 => some (32, 8)
    | 7, 7 => some (32, 11)
    | 7, 8 => some (32, 7)
    | _, _ => some (64, 8)
  else none

/-- A float element of a format without infinity and NaN (R249). -/
def smallVal (f : Fmt) (x : Nat) : FV :=
  let neg := x / 2 ^ (f.ebits + f.mbits) % 2 == 1
  let ex := x / 2 ^ f.mbits % 2 ^ f.ebits
  let fr := x % 2 ^ f.mbits
  if ex = 0 then .fin neg fr f.qmin else .fin neg (2 ^ f.mbits + fr) (f.qmin + (ex - 1 : Nat))

/-- The value of an element (R87, R249, R250). -/
def eltVal (f x : Nat) : FV :=
  match f with
  | 0 => fmtBF16.read x
  | 1 => fmtE4M3.read x
  | 2 => fmtE5M2.read x
  | 3 => smallVal ⟨2, 3, false⟩ x
  | 4 => smallVal ⟨3, 2, false⟩ x
  | 5 => smallVal ⟨2, 1, false⟩ x
  | _ =>
    let w := eltBits f
    let i : Int := if 2 ^ (w - 1) ≤ x then (x : Int) - 2 ^ w else x
    .fin (decide (i < 0)) i.natAbs (2 - (w : Int))

/-- The exponent of a scale byte; none for NaN (R251). -/
def scaleExp (b : Byte) : Option Int := if b == 0xFF then none else some ((b.toNat : Int) - 127)

/-- Multiply a value by a power of two, or by a NaN scale. -/
def FV.scaleBy (x : FV) (sc : Option Int) : FV :=
  match sc, x with
  | none, _ => .nan false
  | some k, .fin n m e => .fin n m (e + k)
  | _, y => y

/-- The product of two elements as a value. -/
def mulVal (a b : FV) : FV :=
  if anyNan [a, b] then .nan false
  else match prodOf a b with
    | .invalid => .nan false
    | .inf n => .inf n
    | .fin n m e => .fin n m e

/-! ## Format table entries (R254, R255) -/

def fmtA (v : W64) : Nat := (v.extractLsb' 0 4).toNat
def fmtB (v : W64) : Nat := (v.extractLsb' 4 4).toNat

/-- K and the step cycles of an entry. -/
def fmtStep (v : W64) : Nat × Nat := (pairOf (fmtA v) (fmtB v)).getD (16, 8)

/-- A legal entry value. -/
def fmtLegal (v : W64) : Bool :=
  v.extractLsb' 62 2 == 0 && v.extractLsb' 12 20 == 0 && decide ((v.extractLsb' 10 2).toNat < 2)
    && (pairOf (fmtA v) (fmtB v)).isSome && !(fmtA v == 0 && v.extractLsb' 8 2 != 0)

/-- A legal loop map value (R256). -/
def mapLegal (v : W64) : Bool :=
  v.extractLsb' 50 14 == 0 && (List.range 16).all (fun i => v.extractLsb' (3 * i) 3 != 7)

/-- Registers of an operand (R248). -/
def fragRegs (ks bits : Nat) : Nat := ks * bits / 16

/-! ## Fragments and steps (R252, R259, R265, R266) -/

/-- The elements of row m of A, or of column n of B, along K. -/
def fragRow (img bits ks m : Nat) : List Nat :=
  (List.range ks).map (fun k => img / 2 ^ (bits * (k / 32 * 2048 + m * min ks 32 + k % 32)) % 2 ^ bits)

/-- The terms of one cell: per product, or for MX integers per block (R265). -/
def cellTerms (fa fb ks : Nat) (ra rb : List FV) (sa sb : Nat → Option Int) : List FV :=
  (List.range (max 1 (ks / 32))).flatMap (fun j =>
    let sc := match sa j, sb j with | some x, some y => some (x + y) | _, _ => none
    let prods := List.zipWith mulVal ((ra.drop (32 * j)).take 32) ((rb.drop (32 * j)).take 32)
    if eltInt fa then
      let q : Int := 4 - (eltBits fa : Int) - eltBits fb
      let p : Int := prods.foldl (fun acc x => match x with | .fin n m _ => acc + numOf n m | _ => acc) 0
      [(FV.fin (decide (p < 0)) p.natAbs q).scaleBy sc]
    else prods.map (fun x => x.scaleBy sc))

/-- The exponent of the leading bit of a value. -/
def FV.lead (x : FV) : Option Int :=
  match x with
  | .fin _ m e => if m = 0 then none else some (e + Nat.log2 m)
  | _ => none

/-- A value truncated toward zero to a multiple of 2^q, in units of 2^q. -/
def FV.truncTo (q : Int) (x : FV) : Int :=
  match x with
  | .fin n m e => numOf n (if q ≤ e then shl m (e - q) else m / 2 ^ (q - e).toNat)
  | _ => 0

/-- AccumulateF32 (R266). -/
def accumulateF32 (vals : List FV) : W32 :=
  let infs (n : Bool) : Bool := vals.any (fun x => x == .inf n)
  if anyNan vals || (infs true && infs false) then 0x7FC00000
  else if infs false then 0x7F800000
  else if infs true then 0xFF800000
  else
    match (vals.filterMap FV.lead).foldl (fun acc x => match acc with | some y => some (max x y) | none => some x) none with
    | none => 0
    | some emax =>
      let q := emax - 40
      let s : Int := vals.foldl (fun acc x => acc + x.truncTo q) 0
      if s = 0 then 0
      else BitVec.ofNat 32 ((Res.num (decide (s < 0)) s.natAbs q false 0).round fmtF32 1 1 false 0).1

/-- The 4,096 elements of a bank after a step (R265). -/
def stepBank (zero : Bool) (v : W64) (a b : Nat) (sa sb : List Byte) (old : List W32) : List W32 :=
  let ks := (fmtStep v).1
  let fa := fmtA v
  let fb := fmtB v
  let rows := (List.range 64).map (fun m => (fragRow a (eltBits fa) ks m).map (eltVal fa))
  let cols := (List.range 64).map (fun n => (fragRow b (eltBits fb) ks n).map (eltVal fb))
  let scale (l : List Byte) (i j : Nat) : Option Int := if l.isEmpty then some 0 else scaleExp (l.getD (64 * j + i) 0)
  let cell (o : W32) (m n : Nat) (ra rb : List FV) : W32 :=
    let terms := cellTerms fa fb ks ra rb (scale sa m) (scale sb n)
    let terms := if v.extractLsb' 10 2 == 1 then terms.map FV.neg else terms
    accumulateF32 ((if zero then .fin false 0 0 else fmtF32.read o.toNat) :: terms)
  (rows.zipIdx.flatMap (fun r => cols.zipIdx.map (fun c => (r, c)))).zipWith (fun p o => cell o p.1.2 p.2.2 p.1.1 p.2.1) old

/-! ## Banks (R258, R260) -/

/-- The 4,096 words of a physical bank. -/
def Mx.bank (x : Mx) (p : Nat) : List W32 := SMap.getMany 0 x.acc (4096 * p) 4096

/-- Replace words of a physical bank from element i on. -/
def Mx.putBank (x : Mx) (p i : Nat) (l : List W32) : Mx := { x with acc := SMap.setMany 0 x.acc (4096 * p + i) l }

/-- Change the matrix engine of core c. -/
def State.modMx (s : State) (c : Nat) (f : Mx → Mx) : State := s.modCore c (fun k => { k with mx := f k.mx })

/-- n scale bytes at a logical offset of a block: none when a byte's bank is not held, or the offset passes the 15 bits of the
logical space (R259; assumption 135). -/
def Core.scaleRead (k : Core) (b : Block) (off n : Nat) : Option (List Byte) :=
  let at_ (i : Nat) : Option Byte :=
    if 2 ^ 15 ≤ off + i then none
    else (KMap.find? b.banks ((off + i) / 2048)).map (fun p => SMap.get 0 k.mx.scale (2048 * p + (off + i) % 2048))
  (List.range n).mapM at_

/-- Grant n free banks to a claim: map, zero with their scale parts, drop the claim (R261). -/
def State.grantBanks (s : State) (c rix base n : Nat) : State :=
  let ps := (s.core c).freeBanks.take n
  let s := s.modMx c (fun x => { x with
    acc := ps.foldl (fun m p => SMap.clear m (4096 * p) 4096) x.acc
    scale := ps.foldl (fun m p => SMap.clear m (2048 * p) 2048) x.scale })
  s.modBlock c rix (fun b => { b with
    banks := (ps.zipIdx).foldl (fun m p => KMap.put m (base + p.2) p.1) b.banks
    claims := b.claims.filter (fun a => !(base ≤ a && a < base + n)) })

/-- The lowest run of n logical banks that are neither held nor claimed (R261). -/
def Block.freeRun (b : Block) (n : Nat) : Option Nat :=
  let used (a : Nat) : Bool := (KMap.find? b.banks a).isSome || b.claims.contains a
  firstBelow (fun base => decide (base + n ≤ b.lr.accb) && (List.range n).all (fun i => !used (base + i))) 16 0

/-! ## The slew limiter (R395 to R399) -/

/-- SLEWRAMP and EN in force for a gathering. -/
def State.slewRegs (s : State) (g : Nat) : W64 × Bool :=
  (s.slewEff.find? g).getD (0x8888888887654321, true)

/-- Entry k of a ramp table. -/
def rampAt (r : W64) (k : Nat) : Nat := max 1 (min 8 (r.extractLsb' (4 * k) 4).toNat)

/-- Lit cores of a gathering. -/
def State.litCount (s : State) (g : Nat) : Nat :=
  ((List.range 8).filter (fun i => (s.core (8 * g + i)).mx.lit)).length

/-- May a heavy operation of core c start as far as the limiter goes? -/
def State.mayLight (s : State) (c : Nat) : Bool :=
  let g := gatheringOf c
  let r := s.slewRegs g
  !r.2 || (s.core c).mx.lit || decide (s.litCount g < rampAt r.1 (SMap.get 0 s.slew g))

/-! ## Engine order (R268, R269) -/

/-- The entry that comes next in engine order: a bank transfer, or an instruction whose block runs. -/
def Core.mxNext (k : Core) : Option MxEntry := k.mx.queue.find? (fun x => x.instr.isNone || k.rixRuns x.rix)

/-- The path that an entry's instruction waits at. -/
def Core.mxPath (k : Core) (x : MxEntry) : Option Path :=
  match k.warps.find? x.warp with
  | some w => if (w.path x.alt).live ∧ (w.path x.alt).park = some .mx then some (w.path x.alt) else none
  | none => none

/-- Offset of the record that a waiting MMSG names, from what it has read at its issue (R291). -/
def Warp.recordOff (w : Warp) (alt : Bool) (b : Code) : Nat := (SMap.get 0 (w.seen alt).w (b.toNat - 384) &&& 0xFFFFFFC0).toNat

/-- The next entry is a heavy operation that can start: its path waits at it, and an MMSG's record is present (R293, R398). -/
def State.heavyReady (s : State) (c : Nat) : Bool :=
  match (s.core c).mxNext with
  | some x =>
    x.heavy && ((s.core c).mxPath x).isSome
      && (match x.instr, (s.core c).warps.find? x.warp with
        | some (.mmsg f), some w => s.bytesPresent c x.rix (w.recordOff x.alt f.b) 64
        | _, _ => true)
  | none => false

/-- The engine has no operation, no record read and no reset under way. -/
def Mx.idle (x : Mx) : Bool := x.cur.isNone && x.reading.isNone && x.reset == 0

/-- Is the entry the issuer's? -/
def Env.mine (e : Env) (x : MxEntry) : Bool :=
  x.instr.isSome && x.warp == e.w && x.alt == e.alt && x.strand == e.strand

/-- The issuer's entry leaves the queue. -/
def Env.unqueue (e : Env) (s : State) : State :=
  s.modMx e.c (fun x => { x with queue := x.queue.filter (fun y => !e.mine y) })

/-- An execute-stage trap of an MX instruction, which gives up its place. -/
def Env.mxNeed (e : Env) (b : Bool) (cause : BitVec 8) (lanes : W32) : Except Stop Unit :=
  if b then .ok () else .error (.trapWith cause lanes e.unqueue)

/-- The place of an instruction in the order of issue: the one that it took when it joined the queue, or a new one (R262,
R268). -/
def Env.mxSeq (e : Env) (s : State) : Nat :=
  match (s.core e.c).mx.queue.find? e.mine with | some x => x.seq | none => s.nonce

/-- The entry of an instruction in engine order. -/
def Env.entry (e : Env) (i : Instr) (heavy : Bool) (banks : List Nat) (s : State) : MxEntry :=
  ⟨e.mxSeq s, some i, 0, e.warp.rix, e.w, e.alt, e.strand, heavy, banks⟩

/-- The instruction may start now: it is first in engine order, the engine is free, and the limiter grants a heavy one
(R268, R269, R397, R398). -/
def Env.mxReady (e : Env) (x : MxEntry) (s : State) : Bool :=
  let m := (s.core e.c).mx
  (match m.queue with | [] => true | y :: _ => e.mine y) && m.idle
    && (m.filler == 0 || (x.heavy && m.filler == 16)) && (!x.heavy || s.mayLight e.c)

/-- It starts: it leaves the queue, and a heavy operation lights its core (R396); when it starts in the cycle after another's
occupancy no filler cycle runs (R398). -/
def Env.mxTake (e : Env) (x : MxEntry) (s : State) : State :=
  (e.unqueue s).modMx e.c (fun m =>
    { m with lit := m.lit || (x.heavy && (s.slewRegs (gatheringOf e.c)).2), filler := if x.heavy then 0 else m.filler })

/-- It joins the queue, unless it stands there. -/
def Env.mxJoin (e : Env) (x : MxEntry) (s : State) : State :=
  if (s.core e.c).mx.queue.any e.mine then s
  else (s.modMx e.c (fun m => { m with queue := m.queue ++ [x] })).tickNonce

/-- The instruction's turn to start, or a wait for it in engine order (R268, R269, R397, R398). -/
def Env.mxTurn (e : Env) (x : MxEntry) (s : State) : Except Stop State :=
  if e.mxReady x s then .ok (e.mxTake x s) else .error (.wait .mx (e.mxJoin x))

/-- The operation enters its occupancy, with its charge at the start (R268, R392). -/
def State.mxBegin (s : State) (c : Nat) (r : MxRun) (start : Nat) : State :=
  ((s.modMx c (fun x => { x with cur := some r })).modClock c (fun k =>
    { k with coreCharge := k.coreCharge + start, mxProgress := true })).tickNonce

/-- The class of an instruction with its TCR bit (R45, R54). -/
def Env.mxClass (e : Env) (g : Guard) (cls : Nat) : Nat := if g.tail.getLsbD 0 && !e.strand then min 3 (cls + 1) else cls

/-! ## Operand checks (R253, R264, R271, R272) -/

/-- A bank code names a bank that the block holds (R37, R260). -/
def Env.bank (e : Env) (code : Code) : Except Stop Nat :=
  match (if code.toNat < 16 then KMap.find? e.blk.banks code.toNat else none) with
  | some p => .ok p
  | none => .error (.trapWith cIllegalOperand e.dec e.unqueue)

/-- All 32 lanes belong to the issuer (R264). -/
def Env.whole (e : Env) : Except Stop Unit := e.mxNeed (e.size == 32) cIllegalOperand e.dec

/-- n registers from code, a multiple of align, below the allotment, and wholly inside or outside the rotating region
(R144). -/
def Env.regRange (e : Env) (code : Code) (n align : Nat) : Bool :=
  decide (code.toNat < 384) && code.toNat % align == 0 && e.rangeOk code.toNat n

/-- A strand waits until the registers that it names have landed (R151). -/
def Env.fragLanded (e : Env) (code : Code) (n : Nat) : Except Stop Unit :=
  if e.blocked (e.phys code.toNat n) [] then .error (.wait .interlock id) else .ok ()

/-- The words of n registers in all 32 lanes, register by register. -/
def Env.fragWords (e : Env) (code : Code) (n : Nat) : List W32 :=
  (e.phys code.toNat n).flatMap (fun r => (List.range 32).map (fun t => e.vread r t))

/-- The operand image of n registers (R252). -/
def Env.fragment (e : Env) (code : Code) (n : Nat) : Nat := wordsNat (e.fragWords code n)

/-! ## Steps (R256, R259, R264, R265, R267, R291 to R293) -/

/-- The entry index that MOD selects now (R256). -/
def Env.entryIndex (e : Env) (b : Block) (mod : BitVec 3) (lanes : W32) : Except Stop Nat :=
  if mod != 7 then .ok mod.toNat
  else
    let lv := (b.map.extractLsb' 48 2).toNat
    let loops := if e.strand then (match e.core.strand with | some t => t.loops | none => []) else e.warp.loops
    match loops[lv]? with
    | none => .error (.trapWith cIllegalOperand lanes e.unqueue)
    | some l => .ok (b.map.extractLsb' (3 * ((l.e + 15) % 16)) 3).toNat

/-- The scale bytes of an operand of a step: empty when it has no scales; none when a bank is not held. -/
def Core.stepScales (k : Core) (b : Block) (ent : Nat) (isB : Bool) : Option (List Byte) :=
  let v := SMap.get 0 b.ft ent
  if !v.getLsbD (if isB then 9 else 8) then some []
  else
    let base := (v.extractLsb' (if isB then 41 else 32) 9).toNat
    let per := (v.extractLsb' (if isB then 56 else 50) 6).toNat
    let cur := SMap.get 0 b.cur ent
    let n := (fmtStep v).1 / 32
    k.scaleRead b (64 * base + 64 * n * (if per = 0 then cur else cur % per)) (64 * n)

/-- CUR of an entry advances (R259, R265). -/
def State.advanceCur (s : State) (c rix ent : Nat) : State :=
  s.modBlock c rix (fun b => { b with cur := SMap.set 0 b.cur ent ((SMap.get 0 b.cur ent + 1) % 2 ^ 16) })

/-- The registers of A and B of a step by entry ent lie below the allotment (R253). -/
def Env.fragsOk (e : Env) (f : F2) (ent : Nat) : Bool :=
  let v := SMap.get 0 e.blk.ft ent
  let n := (fmtStep v).1
  e.regRange f.a (fragRegs n (eltBits (fmtA v))) 4 && e.regRange f.b (fragRegs n (eltBits (fmtB v))) 4

/-- An FMTSET of the issuer's block still has to complete. -/
def Core.fmtPending (k : Core) (rix : Nat) : Bool :=
  let sets (i : Option Instr) : Bool := match i with | some (.fmtset _) => true | some (.fmtsetI _) => true | _ => false
  k.mx.queue.any (fun x => x.rix == rix && sets x.instr)
    || (match k.mx.cur with | some r => r.entry.rix == rix && sets r.entry.instr | none => false)

/-- The registers of A and B, as the instruction issues: by the entry that MOD selects, or the loop map while its loop is open;
once an FMTSET of the block has still to complete, the step's start alone tells its format (R34, R253; assumption 128). -/
def Env.fragsNow (e : Env) (f : F2) (s : State) : Bool :=
  (s.core e.c).fmtPending e.warp.rix
    || (match e.entryIndex e.blk f.mod 0 with | .ok ent => e.fragsOk f ent | .error _ => true)

/-- MMS and MMSZ. -/
def stepBody (i : Instr) (f : F2) (zero : Bool) : Body := fun e s => do
  let _ ← e.bank f.d
  e.whole
  let ok4 (c : Code) : Bool := decide (c.toNat < 384) && c.toNat % 4 == 0
  e.mxNeed (ok4 f.a && ok4 f.b && e.fragsNow f s) cIllegalOperand e.dec
  match e.elected with
  | none => .ok s
  | some l => do
    let x := e.entry i true [f.d.toNat] s
    let s ← e.mxTurn x s
    let bank ← e.bank f.d
    let ent ← e.entryIndex e.blk f.mod (bit l)
    let v := SMap.get 0 e.blk.ft ent
    let st := fmtStep v
    let na := fragRegs st.1 (eltBits (fmtA v))
    let nb := fragRegs st.1 (eltBits (fmtB v))
    e.mxNeed (e.fragsOk f ent) cIllegalOperand e.dec
    e.fragLanded f.a na
    e.fragLanded f.b nb
    match (s.core e.c).stepScales e.blk ent false, (s.core e.c).stepScales e.blk ent true with
    | some sa, some sb =>
      .ok (s.mxBegin e.c
        ⟨.step zero bank ent v (e.fragment f.a na) (e.fragment f.b nb) sa sb, x, st.2, 160, e.mxClass f.g 0⟩ 0)
    | _, _ => .error (.trapWith cAccess (bit l) e.unqueue)

def bodyMms (f : F2) : Body := stepBody (.mms f) f false
def bodyMmsz (f : F2) : Body := stepBody (.mmsz f) f true

/-- Does the record lie under a destination entry of the clasp table (R291)? -/
def State.recordClasped (s : State) (c rix off : Nat) : Bool :=
  (s.core c).clasp.any (fun x => x.dst && s.claspMeets c x 0 64 (.scr c rix off))

/-- Ask the banks for a record at the marbling engine's priority (R16, R293). -/
def State.askRecord (s : State) (c rix off : Nat) : State := s.bankWords c rix off 64 6 0 c 1

/-- MMSG: the step begins with the read of its record; the issuer waits until it has been checked. -/
def bodyMmsg (f : F2) : Body := fun e s => do
  let _ ← e.bank f.d
  e.whole
  e.mxNeed (decide (f.a.toNat < 384) && f.a.toNat % 4 == 0 && isW f.b && e.regRange f.a 16 4) cIllegalOperand e.dec
  match e.elected with
  | none => .ok s
  | some l => do
    (if e.blocked [] [f.b.toNat - 384] then .error (.wait .interlock id) else .ok ())
    let val := e.wread (f.b.toNat - 384)
    e.mxNeed (val.extractLsb' 2 4 == 0) cIllegalOperand (bit l)
    let off := (val &&& 0xFFFFFFC0).toNat
    e.mxNeed (decide (off + 64 ≤ e.blk.window)) cAccess (bit l)
    e.mxNeed (!s.recordClasped e.c e.warp.rix off) cClasp (bit l)
    let x := e.entry (.mmsg f) true [f.d.toNat] s
    let s ← e.mxTurn x s
    let bank ← e.bank f.d
    let ent ← e.entryIndex e.blk f.mod (bit l)
    let v := SMap.get 0 e.blk.ft ent
    e.mxNeed (fmtA v == 0 && fmtB v == 0 && v.extractLsb' 8 2 == 0) cIllegalOperand (bit l)
    e.fragLanded f.a 16
    let there := s.bytesPresent e.c e.warp.rix off 64
    let r : MxRead := ⟨x, bank, ent, e.fragment f.a 16, off, (val.extractLsb' 0 2).toNat, e.mxClass f.g 1, 0, false, there⟩
    let s := (s.modMx e.c (fun m => { m with reading := some r })).modClock e.c (fun k => { k with mxProgress := true })
    let s := if there then s.askRecord e.c e.warp.rix off else s
    .ok ((s.modPath e.c e.w e.alt (fun p =>
      if e.strand then { p with park := some .record } else { e.path with park := some .record })).tickNonce)

/-- The record of core c's MMSG has been read (R293). -/
def State.recordRead (s : State) (c : Nat) (r : MxRead) : State :=
  let s := s.modMx c (fun m => { m with reading := none })
  match Tile.read (s.scratchRead c r.entry.rix r.off 64) with
  | some t =>
    let v := match (s.core c).blocks.find? r.entry.rix with | some b => SMap.get 0 b.ft r.ent | none => 0
    let s := s.mxBegin c ⟨.step false r.bank r.ent v r.a (t.fragment r.quarter) [] [], r.entry,
      8 + (t.c + 3) / 4 - 1, 170, r.cls⟩ 0
    s.finish c r.entry.warp r.entry.alt
  | none =>
    match (s.core c).warps.find? r.entry.warp with
    | none => s
    | some w =>
      let p := w.path r.entry.alt
      if r.entry.strand then
        (s.modMx c (fun m => { m with reading := some { r with held := true } })).takeTrap c r.entry.warp r.entry.alt
          cFormat p.pc (match (s.core c).strand with | some t => bit (8 * lowCluster t.clusters) | none => 0)
      else
        (s.modPath c r.entry.warp r.entry.alt (fun p => { p with park := none })).takeTrap c r.entry.warp r.entry.alt
          cFormat p.pc p.mask

/-! ## Tiles to and from registers (R271 to R274) -/

/-- Element width in bits of a register format (R272). -/
def tileWidth (mod : Nat) : Nat :=
  match mod with
  | 0 => 32
  | 1 => 16
  | 2 => 16
  | 3 => 8
  | 4 => 8
  | 5 => 32
  | 6 => 16
  | _ => 8

/-- The float format of a register format. -/
def tileFmt (mod : Nat) : Fmt :=
  match mod with
  | 0 => fmtF32
  | 1 => fmtBF16
  | 2 => fmtF16
  | 3 => fmtE4M3
  | _ => fmtE5M2

/-- Registers of a row group. -/
def tileRegs (mod : Nat) : Nat := tileWidth mod / 4

/-- A legal selector (R271). -/
def selLegal (sel : W32) (write : Bool) : Bool :=
  sel.extractLsb' 17 15 == 0 && sel.extractLsb' 4 4 == 0 && !(write && sel.getLsbD 16)

/-- The signed scale exponent of a selector. -/
def selExp (sel : W32) : Int := (sel.extractLsb' 8 8).toInt

/-- Limit an integer to w signed bits. -/
def clampBits (w : Nat) (x : Int) : Int := max (-(2 ^ (w - 1) : Int)) (min (2 ^ (w - 1) - 1 : Int) x)

/-- ACCRD's conversion of one element: the pattern, and the lane's generator after it (R273). -/
def accOut (mod mode : Nat) (sat : Bool) (x : Int) (w : W32) (seed : W32) : Nat × W32 :=
  let v := (fmtF32.read w.toNat).scaleBy (some x)
  if 5 ≤ mod then
    let n := tileWidth mod
    let lim (neg : Bool) : Int := if neg then -(2 ^ (n - 1) : Int) else 2 ^ (n - 1) - 1
    match v with
    | .nan _ => (0, seed)
    | .inf neg => ((lim neg % 2 ^ n).toNat, seed)
    | .fin neg m ex =>
      let r := roundInt mode neg m ex seed
      ((clampBits n (numOf neg r.1) % 2 ^ n).toNat, r.2.2)
  else
    let t := tileFmt mod
    match v with
    | .nan _ => (t.nanBits, seed)
    | .inf neg => (if sat then t.maxBits neg else if t.e4m3 then t.nanBits else t.infBits neg, seed)
    | .fin neg m ex =>
      let r := (Res.num neg m ex false 0).round t 1 mode sat seed
      (r.1, r.2.2)

/-- ACCRD's words for one lane, its registers in order. -/
def accOutLane (mod mode : Nat) (sat : Bool) (x : Int) (rows : List W32) (lane : Nat) (seed : W32) : List W32 × W32 :=
  let per := 32 / tileWidth mod
  (List.range (tileRegs mod)).foldl (fun acc r =>
    let es := (List.range per).foldl (fun (q : List Nat × W32) j =>
      let o := accOut mod mode sat x (rows.getD ((32 * r + lane) * per + j) 0) q.2
      (q.1 ++ [o.1], o.2)) ([], acc.2)
    (acc.1 ++ [BitVec.ofNat 32 (packNats (tileWidth mod) es.1)], es.2)) ([], seed)

/-- ACCRD (R273). -/
def bodyAccrd (f : F2) : Body := fun e s => do
  let _ ← e.bank f.a
  e.whole
  let n := tileRegs f.mod.toNat
  e.mxNeed (e.regRange f.d n n) cIllegalOperand e.dec
  let sel ← e.plainSrc 5 f.b
  e.landed [sel]
  match e.elected with
  | none => .ok s
  | some l => do
    let v := sel.val32 e l
    e.mxNeed (selLegal v false) cIllegalOperand (bit l)
    let x := e.entry (.accrd f) false [f.a.toNat] s
    let s ← e.mxTurn x s
    let bank ← e.bank f.a
    let rows := SMap.getMany 0 (s.core e.c).mx.acc (4096 * bank + 256 * (v.extractLsb' 0 4).toNat) 256
    let outs := (lanesOf e.act).map (fun t =>
      accOutLane f.mod.toNat (e.rm f.rnd) (v.getLsbD 16) (selExp v) rows t (s.seedOf e t))
    let id := s.nonce
    let s := e.setSeeds (outs.map (·.2)) (e.put 7 10 false .v (e.phys f.d.toNat n) e.act (outs.flatMap (·.1)) s)
    .ok (s.mxBegin e.c ⟨.accrd id, x, 2, 0, e.mxClass f.g 0⟩ 16)

/-- ACCWR's FP32 word of one element (R274). -/
def accIn (mod : Nat) (x : Int) (b : Nat) : W32 :=
  let v : FV := if 5 ≤ mod then
      let n := tileWidth mod
      let i : Int := if 2 ^ (n - 1) ≤ b then (b : Int) - 2 ^ n else b
      .fin (decide (i < 0)) i.natAbs 0
    else (tileFmt mod).read b
  match v.scaleBy (some x) with
  | .nan _ => 0x7FC00000
  | .inf neg => if neg then 0xFF800000 else 0x7F800000
  | .fin neg m ex => BitVec.ofNat 32 ((Res.num neg m ex false 0).round fmtF32 1 1 false 0).1

/-- ACCWR (R274). -/
def bodyAccwr (f : F2) : Body := fun e s => do
  let _ ← e.bank f.d
  e.whole
  let n := tileRegs f.mod.toNat
  e.mxNeed (e.regRange f.a n n) cIllegalOperand e.dec
  let sel ← e.plainSrc 5 f.b
  e.landed [sel]
  e.fragLanded f.a n
  match e.elected with
  | none => .ok s
  | some l => do
    let v := sel.val32 e l
    e.mxNeed (selLegal v true) cIllegalOperand (bit l)
    let x := e.entry (.accwr f) false [f.d.toNat] s
    let s ← e.mxTurn x s
    let bank ← e.bank f.d
    let per := 32 / tileWidth f.mod.toNat
    let vals := (e.fragWords f.a n).flatMap (fun w => (List.range per).map (fun j =>
      accIn f.mod.toNat (selExp v) (w.toNat / 2 ^ (tileWidth f.mod.toNat * j) % 2 ^ tileWidth f.mod.toNat)))
    .ok (s.mxBegin e.c ⟨.accwr bank (v.extractLsb' 0 4).toNat vals, x, 4, 0, e.mxClass f.g 0⟩ 16)

/-! ## Whole banks and tables (R257, R275) -/

def bodyAccclr (f : F2) : Body := fun e s => do
  let _ ← e.bank f.d
  if e.elected.isNone then .ok s
  else do
    let x := e.entry (.accclr f) false [f.d.toNat] s
    let s ← e.mxTurn x s
    let bank ← e.bank f.d
    .ok (s.mxBegin e.c ⟨.accclr bank, x, 4, 0, e.mxClass f.g 0⟩ 32)

def bodyAccadd (f : F2) : Body := fun e s => do
  let _ ← e.bank f.d
  let _ ← e.bank f.a
  if e.elected.isNone then .ok s
  else do
    let x := e.entry (.accadd f) false [f.d.toNat, f.a.toNat] s
    let s ← e.mxTurn x s
    let d ← e.bank f.d
    let a ← e.bank f.a
    .ok (s.mxBegin e.c ⟨.accadd d a, x, 4, 0, e.mxClass f.g 0⟩ 32)

/-- FMTSET with its value known: the check, then engine order. -/
def fmtsetWith (i : Instr) (g : Guard) (mod : BitVec 3) (v : W64) (lanes : W32) : Body := fun e s => do
  e.mxNeed (if mod == 7 then mapLegal v else fmtLegal v) cIllegalOperand lanes
  if e.elected.isNone then .ok s
  else do
    let x := e.entry i false [] s
    let s ← e.mxTurn x s
    .ok (s.mxBegin e.c ⟨.fmtset mod.toNat v, x, 4, 0, e.mxClass g 0⟩ 32)

def bodyFmtset (f : F2) : Body := fun e s => do
  let o : Opnd := ⟨5, 9, 0, f.a, true, false⟩
  e.field (decide (f.a.toNat < 448) && f.a.toNat % 2 == 0 && o.ok e)
  e.landed [o]
  match e.elected with
  | none => .ok s
  | some l => fmtsetWith (.fmtset f) f.g f.mod (o.val e l) (bit l) e s

/-- IMM24 zero-extended; its value is a field of the instruction. -/
def bodyFmtsetI (f : FI) : Body := fun e s => fmtsetWith (.fmtsetI f) f.g f.mod (f.imm.setWidth 64) e.dec e s

/-! ## ACCALLOC and ACCFREE (R261, R262) -/

/-- During a reset an MX instruction of the bank allocator waits as the others do (R280). -/
def Env.mxOpen (e : Env) (s : State) : Except Stop Unit :=
  if (s.core e.c).mx.reset = 0 then .ok () else .error (.wait .mx id)

/-- The base of granted banks, an interlocked result, is in w register d 2 cycles after the grant (R261). -/
def State.putBase (s : State) (c w d base id : Nat) : State :=
  s.modWarp c w (fun x => { x with results := x.results ++
    [⟨2, true, 7, .w, [d], 1, [BitVec.ofNat 32 base], 0, 0, id, [], []⟩] })

/-- ACCALLOC of n banks into w register d, with the mask of its traps. -/
def allocBody (d : Code) (n : Nat) (lanes : W32) : Body := fun e s => do
  if e.path.granted.contains .banks then .ok s
  else do
    e.mxOpen s
    need (decide (1 ≤ n ∧ n ≤ 16)) cIllegalOperand lanes
    match e.blk.freeRun n with
    | none => .error (.trap cIllegalOperand lanes)
    | some base =>
      if (s.core e.c).mx.allocq.isEmpty && decide (n ≤ (s.core e.c).freeBanks.length) then
        .ok (((s.grantBanks e.c e.warp.rix base n).putBase e.c e.w (d.toNat - 384) base s.nonce).tickNonce)
      else
        .error (.wait .banks (fun s =>
          ((s.modMx e.c (fun m => { m with allocq := m.allocq ++ [⟨e.warp.rix, e.w, e.alt, n, base, d.toNat - 384, s.nonce⟩] })).modBlock
            e.c e.warp.rix (fun b => { b with claims := b.claims ++ (List.range n).map (base + ·) })).tickNonce))

def bodyAccalloc (f : F2) : Body := fun e s => do
  e.dstW f.d false
  let o ← e.plainSrc 5 f.a
  e.landed [o]
  match e.elected with
  | none => .ok s
  | some l => allocBody f.d (o.val32 e l).toNat (bit l) e s

def bodyAccallocI (f : FI) : Body := fun e s => do
  e.dstW f.d false
  e.field (decide (1 ≤ f.imm.toNat ∧ f.imm.toNat ≤ 16))
  match e.elected with
  | none => .ok s
  | some l => allocBody f.d f.imm.toNat (bit l) e s

/-- Does the entry name one of these banks of block r, in a place before seq? -/
def MxEntry.names (x : MxEntry) (r seq : Nat) (banks : List Nat) : Bool :=
  x.rix == r && decide (x.seq < seq) && x.banks.any banks.contains

/-- The logical banks in which a copy request's local end lies (R239). -/
def CReq.banksOf (q : CReq) : List Nat :=
  if q.op == .pfl2 then []
  else if q.shape.loc = 2 then [q.loc / 2 ^ 14 % 16]
  else if q.shape.loc = 3 then
    (List.range 16).filter (fun a => decide ((q.loc + q.span.1) / 2048 ≤ a ∧ a ≤ (q.loc + q.span.2 - 1) / 2048))
  else []

/-- Have the earlier users of banks of block r completed (R262)? An ACCRD has at the end of its occupancy (assumption 136). -/
def Core.banksQuiet (k : Core) (r seq : Nat) (banks : List Nat) : Bool :=
  !(k.mx.queue.any (fun x => x.names r seq banks))
    && !(match k.mx.cur with | some x => x.entry.names r seq banks | none => false)
    && !(match k.mx.reading with | some x => x.entry.names r seq banks | none => false)
    && !(k.copy.any (fun q => q.2.rix == r && q.2.banksOf.any banks.contains))

/-- The banks of an ACCFREE become free at its latency of 4 cycles (R54, R262, R283). -/
def Env.freeLater (e : Env) (banks : List Nat) (s : State) : State :=
  e.put 7 4 false .accFree banks e.act [] s

/-- ACCFREE of n banks from a. -/
def freeBody (a : Code) (n : Nat) (lanes : W32) : Body := fun e s => do
  let banks := (List.range n).map (a.toNat + ·)
  if e.path.granted.contains .accfree then .ok (e.freeLater banks s)
  else do
    e.mxOpen s
    need (decide (1 ≤ n ∧ n ≤ 16 ∧ a.toNat + n ≤ 16)) cIllegalOperand lanes
    need (banks.all (fun b => (KMap.find? e.blk.banks b).isSome)) cAccFreeUnowned lanes
    if (s.core e.c).banksQuiet e.warp.rix s.nonce banks then .ok (e.freeLater banks s)
    else
      .error (.wait .accfree (fun s =>
        (s.modMx e.c (fun m => { m with freeq := m.freeq ++ [⟨s.nonce, e.warp.rix, e.w, e.alt, banks⟩] })).tickNonce))

def bodyAccfree (f : F2) : Body := fun e s => do
  e.field (decide (f.a.toNat < 16))
  let o ← e.plainSrc 5 f.b
  e.landed [o]
  match e.elected with
  | none => .ok s
  | some l => freeBody f.a (o.val32 e l).toNat (bit l) e s

def bodyAccfreeI (f : FI) : Body := fun e s => do
  e.field (decide (f.a.toNat < 16) && decide (1 ≤ f.imm.toNat ∧ f.imm.toNat ≤ 16 ∧ f.a.toNat + f.imm.toNat ≤ 16))
  match e.elected with
  | none => .ok s
  | some l => freeBody f.a f.imm.toNat (bit l) e s

/-! ## The end of an occupancy (R268, R281, R298) -/

/-- What a job writes at its end; a step's two assignments, the bank and CUR, become visible together (R6, R265). -/
def State.mxWrite (s : State) (c : Nat) (r : MxRun) : State :=
  let m := (s.core c).mx
  match r.job with
  | .step zero bank ent v a b sa sb =>
    (s.modMx c (fun x => x.putBank bank 0 (stepBank zero v a b sa sb (m.bank bank)))).advanceCur c r.entry.rix ent
  | .accrd _ => s
  | .accwr bank g vals => s.modMx c (fun x => x.putBank bank (256 * g) vals)
  | .accclr bank => s.modMx c (fun x => { x with acc := SMap.clear x.acc (4096 * bank) 4096 })
  | .accadd d a =>
    let l := List.zipWith (fun x y => BitVec.ofNat 32
      ((resAdd fmtF32 1 (fmtF32.read (x : W32).toNat) (fmtF32.read (y : W32).toNat)).round fmtF32 1 1 false 0).1) (m.bank d) (m.bank a)
    s.modMx c (fun x => x.putBank d 0 l)
  | .fmtset ent v =>
    s.modBlock c r.entry.rix (fun b =>
      if ent = 7 then { b with map := v }
      else { b with ft := SMap.set 0 b.ft ent v, cur := SMap.set 0 b.cur ent 0 })
  | .transfer slot bank =>
    s.modCore c (fun k => { k with mar := { k.mar with
      target := SMap.slice k.mx.acc (4096 * bank) 4096
      slots := k.mar.slots.map (fun p => if p.1 = slot then (p.1, { p.2 with filled := true }) else p) } })

/-- An ACCRD that completes for a block which is being pre-empted counts as landed in the strand's snapshot (R270). -/
def State.mxLanded (s : State) (c : Nat) (r : MxRun) : State :=
  match r.job, (s.core c).blocks.find? r.entry.rix with
  | .accrd id, some b =>
    if r.entry.strand && b.halt != 0 then s.modWarp c r.entry.warp (fun w => w.modResult id (fun x => { x with rem := 0 })) else s
  | _, _ => s

/-- The operation of core c ends: its result, and the filler cycles after a heavy one when no heavy one
can start in the next cycle (R398). -/
def State.mxEnd (s : State) (c : Nat) : State :=
  match (s.core c).mx.cur with
  | none => s
  | some r =>
    let s := ((s.mxWrite c r).mxLanded c r).modMx c (fun m => { m with cur := none })
    let s := s.modClock c (fun k => { k with mxProgress := true })
    if r.entry.heavy && (s.slewRegs (gatheringOf c)).2 && !s.heavyReady c then s.modMx c (fun m => { m with filler := 16 })
    else s

/-! ## Reset (R280, R281) -/

/-- A reset begins: what runs is abandoned, every bank and scale part reads zero, the blocks concerned
receive MX_RESET. -/
def State.mxReset (s : State) (c : Nat) : State :=
  let k := s.core c
  let m := k.mx
  let hasMx (r : Nat) : Bool :=
    m.queue.any (fun x => x.rix == r && x.instr.isSome)
      || (match m.cur with | some x => x.entry.rix == r && x.entry.instr.isSome | none => false)
      || (match m.reading with | some x => x.entry.rix == r | none => false)
      || m.allocq.any (fun x => x.rix == r) || m.freeq.any (fun x => x.rix == r)
      || k.warps.any (fun w => w.2.rix == r && w.2.results.any (fun x => x.dest == .accFree))
  let hit (r : Nat) (b : Block) : Bool := !b.banks.isEmpty || hasMx r
  let again : List MxEntry := match m.cur with
    | some r => if r.entry.instr.isNone then [r.entry] else []
    | none => []
  let s := match m.cur with
    | some r => (match r.job with
      | .accrd id => s.modWarp c r.entry.warp (fun w => w.modResult id (fun x => { x with vals := x.vals.map (fun _ => 0) }))
      | _ => s)
    | none => s
  let s := match m.reading with
    | some r => if r.held then s else s.finish c r.entry.warp r.entry.alt
    | none => s
  let s := s.modMx c (fun m => { m with
    acc := [], scale := [], cur := none, reading := none, queue := again ++ m.queue, reset := 257, filler := 0, lit := false })
  let s := s.modCore c (fun k => { k with
    blocks := k.blocks.map (fun p => (p.1, if hit p.1 p.2 then { p.2 with mxr := true } else p.2))
    copy := k.copy.map (fun p =>
      (p.1, if p.2.shape.loc = 2 ∨ p.2.shape.loc = 3 then { p.2 with err := some (p.2.err.getD (cMxReset.toNat, 0)) } else p.2)) })
  { s with cores := s.cores.map (fun q =>
      if q.1 = c then (q.1, { q.2 with warps := q.2.warps.map (fun w =>
        match q.2.blocks.find? w.2.rix with
        | some b => if hit w.2.rix b then (w.1, { w.2 with pend := w.2.pend ++ [.mxReset] }) else w
        | none => w) })
      else q) }

/-! ## Meanings of the constructors -/

/-- The meaning of mms (R265). -/
def execMms (f : F2) (s : State) : Host.Outcome State Fault Refusal :=
  issue (costOf (.mms f)) f.g (bodyMms f) s

/-- The meaning of mmsz (R265). -/
def execMmsz (f : F2) (s : State) : Host.Outcome State Fault Refusal :=
  issue (costOf (.mmsz f)) f.g (bodyMmsz f) s

/-- The meaning of mmsg (R291). -/
def execMmsg (f : F2) (s : State) : Host.Outcome State Fault Refusal :=
  issue (costOf (.mmsg f)) f.g (bodyMmsg f) s

/-- The meaning of accalloc (R261). -/
def execAccalloc (f : F2) (s : State) : Host.Outcome State Fault Refusal :=
  issue (costOf (.accalloc f)) f.g (bodyAccalloc f) s

/-- The meaning of accallocI (R261). -/
def execAccallocI (f : FI) (s : State) : Host.Outcome State Fault Refusal :=
  issue (costOf (.accallocI f)) f.g (bodyAccallocI f) s

/-- The meaning of accfree (R262). -/
def execAccfree (f : F2) (s : State) : Host.Outcome State Fault Refusal :=
  issue (costOf (.accfree f)) f.g (bodyAccfree f) s

/-- The meaning of accfreeI (R262). -/
def execAccfreeI (f : FI) (s : State) : Host.Outcome State Fault Refusal :=
  issue (costOf (.accfreeI f)) f.g (bodyAccfreeI f) s

/-- The meaning of accrd (R273). -/
def execAccrd (f : F2) (s : State) : Host.Outcome State Fault Refusal :=
  issue (costOf (.accrd f)) f.g (bodyAccrd f) s

/-- The meaning of accwr (R274). -/
def execAccwr (f : F2) (s : State) : Host.Outcome State Fault Refusal :=
  issue (costOf (.accwr f)) f.g (bodyAccwr f) s

/-- The meaning of accclr (R275). -/
def execAccclr (f : F2) (s : State) : Host.Outcome State Fault Refusal :=
  issue (costOf (.accclr f)) f.g (bodyAccclr f) s

/-- The meaning of fmtset (R257). -/
def execFmtset (f : F2) (s : State) : Host.Outcome State Fault Refusal :=
  issue (costOf (.fmtset f)) f.g (bodyFmtset f) s

/-- The meaning of fmtsetI (R257). -/
def execFmtsetI (f : FI) (s : State) : Host.Outcome State Fault Refusal :=
  issue (costOf (.fmtsetI f)) f.g (bodyFmtsetI f) s

/-- The meaning of accadd (R275). -/
def execAccadd (f : F2) (s : State) : Host.Outcome State Fault Refusal :=
  issue (costOf (.accadd f)) f.g (bodyAccadd f) s

end Sys2Proof.Machine
end

