-- ==== Sys2Proof/Machine/Copy.lean ====
section
/-! DEFINITION. The copy engine (R212 to R246): shape records, placement, acceptance, the movement of data,
and what the copy instructions do. -/

namespace Sys2Proof.Machine

/-! ## Shape records (R215 to R221) -/

/-- Bits of an element. -/
def Shape.bits (sh : Shape) : Nat :=
  match sh.esz with
  | 0 => 8
  | 1 => 16
  | 2 => 32
  | 3 => 64
  | 4 => 4
  | _ => 6

/-- Extents, strides and box extents by dimension. -/
def Shape.dimOf (sh : Shape) (i : Nat) : Nat := sh.dim.getD i 0
def Shape.strideOf (sh : Shape) (i : Nat) : Nat := if i = 0 then 0 else sh.stride.getD (i - 1) 0
def Shape.boxOf (sh : Shape) (i : Nat) : Nat := sh.box.getD i 0

/-- The effective pitch in bytes (R218). -/
def Shape.pitchBytes (sh : Shape) : Nat := if sh.pitch = 0 then sh.boxOf 0 * sh.bits / 8 else sh.pitch

/-- The format of a fragment layout: ESZ and K (R219). -/
def fragFormat (f : Nat) : Nat × Nat :=
  match f with
  | 0 => (1, 16)
  | 1 => (0, 32)
  | 2 => (5, 32)
  | 3 => (4, 64)
  | 4 => (0, 32)
  | 5 => (5, 32)
  | _ => (4, 64)

/-- A fragment layout: format index and operand B. -/
def Shape.frag (sh : Shape) : Option (Nat × Bool) :=
  if 0x10 ≤ sh.layout ∧ sh.layout < 0x1E then some ((sh.layout - 0x10) / 2, sh.layout % 2 == 1) else none

/-- Does the layout meet its row of R219? -/
def Shape.layoutOk (sh : Shape) : Bool :=
  let flat := decide (2 ≤ sh.rank) && (List.range sh.rank).all (fun i => i < 2 || sh.boxOf i == 1)
  if sh.layout = 0 then true
  else if sh.layout = 0x20 then flat && sh.loc == 2 && sh.esz == 2 && sh.boxOf 0 == 64 && sh.boxOf 1 == 64
  else if sh.layout = 0x28 then flat && sh.loc == 3 && sh.esz == 0 && sh.boxOf 1 == 64
  else match sh.frag with
    | some (f, b) =>
      let x := fragFormat f
      flat && decide (sh.loc < 2) && sh.esz == x.1
        && (if b then sh.boxOf 0 == 64 && sh.boxOf 1 == x.2 else sh.boxOf 0 == x.2 && sh.boxOf 1 == 64)
    | none => false

/-- Is the record malformed in fields of its own (R221)? -/
def Shape.ok (sh : Shape) : Bool :=
  let es := sh.bits / 8
  decide (1 ≤ sh.rank ∧ sh.rank ≤ 5) && decide (sh.esz < 6) && decide (sh.dir < 3) && decide (sh.swz < 4)
    && (List.range 5).all (fun i =>
      if i < sh.rank then sh.dimOf i != 0 && sh.boxOf i != 0
      else sh.dimOf i == 0 && sh.boxOf i == 0 && sh.strideOf i == 0)
    && (4 ≤ sh.esz || (sh.base % es == 0 && (List.range 5).all (fun i => sh.strideOf i % es == 0)))
    && (if sh.esz = 4 then sh.dimOf 0 % 2 == 0 && sh.boxOf 0 % 2 == 0
        else if sh.esz = 5 then sh.dimOf 0 % 4 == 0 && sh.boxOf 0 % 4 == 0 else true)
    && (!sh.atype || sh.esz == 2)
    && sh.layoutOk
    && (sh.swz == 0 || (sh.layout == 0 && decide (sh.loc < 2) && sh.pitchBytes % 128 == 0))
    && (sh.pitch == 0 || (sh.layout == 0 && decide (sh.boxOf 0 * sh.bits ≤ 8 * sh.pitch) && sh.pitch % 4 == 0))
    && (match sh.dir with
      | 0 => true
      | 1 => decide (sh.loc < 3)
      | _ => sh.loc == 1 && decide (sh.base < 2 ^ 32))

/-- Read a record; none when it is malformed. -/
def Shape.read (b : List Byte) : Option Shape :=
  let at_ (o n : Nat) : Nat := bytesNat ((b.drop o).take n)
  let b8 := at_ 8 1
  let b11 := at_ 11 1
  let sh : Shape :=
    { base := at_ 0 8, atype := b8 / 8 % 2 == 1, esz := b8 % 8, rank := at_ 9 1, layout := at_ 10 1
      swz := b11 / 32, pad := b11 / 16 % 2 == 1, dir := b11 / 4 % 4, loc := b11 % 4
      dim := (List.range 5).map (fun i => at_ (12 + 4 * i) 4)
      stride := (List.range 4).map (fun i => at_ (32 + 4 * i) 4)
      box := (List.range 5).map (fun i => at_ (48 + 2 * i) 2), pitch := at_ 58 2 }
  if b8 / 16 = 0 ∧ at_ 60 4 = 0 ∧ sh.ok then some sh else none

/-! ## Placement (R217 to R220) -/

/-- The swizzle of a byte offset (R220). -/
def swizzle (s o : Nat) : Nat := if s = 0 then o else o ^^^ (o / 128 % 8 % 2 ^ s * 16)

/-- Coordinates of box element i, dimension 0 fastest. -/
def boxCoord : List Nat → Nat → List Nat
  | [], _ => []
  | b :: l, i => i % b :: boxCoord l (i / b)

/-- The box row of an element (R217). -/
def boxRow : List Nat → List Nat → Nat
  | x :: l, b :: m => x + b * boxRow l m
  | _, _ => 0

/-- Local bit offset of an element of the box, before the swizzle of its bytes (R219, R220). -/
def Shape.place (sh : Shape) (b0 row : Nat) : Nat :=
  match sh.frag with
  | some (f, isB) =>
    let k := if isB then row else b0
    let m := if isB then b0 else row
    sh.bits * (k / 32 * 2048 + m * min (fragFormat f).2 32 + k % 32)
  | none =>
    if sh.layout = 0x20 then 8 * (256 * row + 4 * b0)
    else if sh.layout = 0x28 then 8 * (64 * b0 + row)
    else
      8 * (row * sh.pitchBytes) + b0 * sh.bits

/-- Element i of a COPY with origin coord: its place, its global bit address and whether it is in bounds. -/
def Shape.copyElem (sh : Shape) (coord : List Int) (i : Nat) : Elem :=
  let box := sh.box.take sh.rank
  let b := boxCoord box i
  let row := boxRow (b.drop 1) (box.drop 1)
  let e (j : Nat) : Int := coord.getD j 0 + (b.getD j 0 : Nat)
  let inb := (List.range sh.rank).all (fun j => decide (0 ≤ e j ∧ e j < sh.dimOf j))
  let off : Int := (List.range sh.rank).foldl (fun acc j => acc + 8 * (e j * sh.strideOf j)) (e 0 * sh.bits)
  ⟨sh.place (b.getD 0 0) row, ((8 * sh.base + off) % 2 ^ 67).toNat, sh.bits, inb, 0⟩

/-- Element i of a GATHER or SCATTER with its indices (R228). -/
def Shape.unitElem (sh : Shape) (idx : List Nat) (i : Nat) : Elem :=
  let j := i / sh.boxOf 0
  let b0 := i % sh.boxOf 0
  let x := idx.getD j 0
  let one := sh.rank == 1
  let inb := if one then decide (x + b0 < sh.dimOf 0) else decide (b0 < sh.dimOf 0 ∧ x < sh.dimOf 1)
  let off := if one then (x + b0) * sh.bits else b0 * sh.bits + 8 * (x * sh.strideOf 1)
  ⟨sh.place b0 j, (8 * sh.base + off) % 2 ^ 67, sh.bits, inb, 0⟩

/-- Element i of a request. -/
def CReq.elem (q : CReq) (i : Nat) : Elem :=
  match q.op with
  | .copy => q.shape.copyElem q.coord i
  | _ => q.shape.unitElem q.idx i

/-- Data comes from the local end. -/
def CReq.outward (q : CReq) : Bool := q.shape.dir == 1

/-- The padding element (R215). -/
def Shape.padding (sh : Shape) : Nat := if sh.pad then 2 ^ sh.bits - 1 else 0

/-- First byte and one past the last byte of elements at one end, by a choice of their first bit. -/
def bitSpan (l : List Elem) (f : Elem → Nat) : Option (Nat × Nat) :=
  l.foldl (fun acc e =>
    let lo := f e / 8
    let hi := (f e + e.bits - 1) / 8 + 1
    match acc with
    | some a => some (min a.1 lo, max a.2 hi)
    | none => some (lo, hi)) none

/-- The lowest and past the highest byte of elements at a swizzled local end (R220). -/
def localSpan (swz : Nat) (l : List Elem) : Option (Nat × Nat) :=
  l.foldl (fun acc e =>
    let a := swizzle swz (e.lbit / 8)
    let b := swizzle swz ((e.lbit + e.bits - 1) / 8)
    match acc with
    | some x => some (min x.1 (min a b), max x.2 (max a b + 1))
    | none => some (min a b, max a b + 1)) none

/-- The local elements that a request touches: an outward one reads the elements in bounds only. -/
def CReq.localElems (q : CReq) : List Elem :=
  ((List.range q.total).map q.elem).filter (fun e => !q.outward || e.inb || q.op != .copy)

/-- Bytes from the lowest to past the highest of a copy's elements in bounds in memory (R236): none when no
element is in bounds. -/
def Shape.globalSpan (sh : Shape) (coord : List Int) : Option (Int × Int) :=
  let lo (i : Nat) : Int := max (coord.getD i 0) 0
  let hi (i : Nat) : Int := min (coord.getD i 0 + sh.boxOf i) (sh.dimOf i)
  if (List.range sh.rank).all (fun i => decide (lo i < hi i)) then
    let part (f : Nat → Int) : Int :=
      (List.range sh.rank).foldl (fun acc i => acc + f i * sh.strideOf i) 0
    some ((sh.base : Int) + lo 0 * sh.bits / 8 + part lo,
      (sh.base : Int) + (hi 0 * sh.bits + 7) / 8 + part (fun i => if i = 0 then 0 else hi i - 1))
  else none

/-- Length of the whole tensor extent (R236). -/
def Shape.extent (sh : Shape) : Nat :=
  (List.range sh.rank).foldl (fun acc i => acc + (sh.dimOf i - 1) * sh.strideOf i) ((sh.dimOf 0 * sh.bits + 7) / 8)

/-! ## The local end (R225) -/

/-- Where a request's local end stands: a window with the swizzle of its bytes (R220), an accumulator bank, or scale memory of
block r. -/
inductive Local where
  | scr (core rix off swz : Nat)
  | acc (rix bank : Nat)
  | scale (rix off : Nat)
deriving DecidableEq, Repr

/-- The local end of a request of core c (R217); of one whose target block has left its core, the issuing block's own window
(assumption 134). -/
def State.localOf (s : State) (c : Nat) (q : CReq) : Local :=
  match q.shape.loc with
  | 0 => .scr c q.rix q.loc q.shape.swz
  | 1 =>
    let grid := match (s.core c).blocks.find? q.rix with | some b => b.grid | none => 0
    match s.remoteTarget c grid q.loc 1 with
    | some (t, r, o) => .scr t r o q.shape.swz
    | none => .scr c q.rix q.loc q.shape.swz
  | 2 => .acc q.rix (q.loc / 2 ^ 14 % 16)
  | _ => .scale q.rix q.loc

/-- The byte at offset i of a local end of core c. -/
def State.localByte (s : State) (c : Nat) (x : Local) (i : Nat) : Byte :=
  match x with
  | .scr t r off z => (s.scratchRead t r (off + swizzle z i) 1).headD 0
  | .acc r a =>
    match (s.core c).blocks.find? r with
    | some b =>
      match KMap.find? b.banks a with
      | some p => (SMap.get 0 (s.core c).mx.acc (4096 * p + i / 4)).extractLsb' (8 * (i % 4)) 8
      | none => 0
    | none => 0
  | .scale r off =>
    match (s.core c).blocks.find? r with
    | some b => (((s.core c).scaleRead b (off + i) 1).getD []).headD 0
    | none => 0

/-- Write a byte of a local end. -/
def State.localPutByte (s : State) (c : Nat) (x : Local) (i : Nat) (v : Byte) : State :=
  match x with
  | .scr t r off z => s.scratchPut t r (off + swizzle z i) [v]
  | .acc r a =>
    match (s.core c).blocks.find? r with
    | some b =>
      match KMap.find? b.banks a with
      | some p =>
        let k := 4096 * p + i / 4
        s.modMx c (fun m =>
          let w := SMap.get 0 m.acc k
          let sh := 8 * (i % 4)
          { m with acc := SMap.set 0 m.acc k ((w &&& ~~~((0xFF : W32) <<< sh)) ||| (v.setWidth 32 <<< sh)) })
      | none => s
    | none => s
  | .scale r off =>
    match (s.core c).blocks.find? r with
    | some b =>
      match KMap.find? b.banks ((off + i) / 2048) with
      | some p => s.modMx c (fun m => { m with scale := SMap.set 0 m.scale (2048 * p + (off + i) % 2048) v })
      | none => s
    | none => s

/-- n bits from bit b on of bytes that f reads. -/
def bitField (f : Nat → Byte) (b n : Nat) : Nat :=
  bytesNat ((List.range ((b + n - 1) / 8 - b / 8 + 1)).map (fun i => f (b / 8 + i))) / 2 ^ (b % 8) % 2 ^ n

/-- The bytes that hold n bits with value v from bit b on, over old bytes. -/
def bitsPut (f : Nat → Byte) (b n v : Nat) : List Byte :=
  let k := (b + n - 1) / 8 - b / 8 + 1
  let old := bytesNat ((List.range k).map (fun i => f (b / 8 + i)))
  natBytes k (old - old / 2 ^ (b % 8) % 2 ^ n * 2 ^ (b % 8) + v % 2 ^ n * 2 ^ (b % 8))

/-- Read an element at the local end. -/
def State.localGet (s : State) (c : Nat) (x : Local) (e : Elem) : Nat := bitField (s.localByte c x) e.lbit e.bits

/-- Write an element at the local end. -/
def State.localPut (s : State) (c : Nat) (x : Local) (e : Elem) : State :=
  ((bitsPut (s.localByte c x) e.lbit e.bits e.val).zipIdx).foldl
    (fun s p => s.localPutByte c x (e.lbit / 8 + p.2) p.1) s

/-- The line of a local end that a byte lies in; the swizzle moves no byte out of its line. -/
def Local.lineOf (x : Local) (i : Nat) : Nat :=
  match x with
  | .scr _ _ off _ => (off + i) / 128
  | .acc _ _ => i / 128
  | .scale _ off => (off + i) / 128

/-- The line of a local end that an element's first byte lies in. -/
def Local.line (x : Local) (e : Elem) : Nat := x.lineOf (e.lbit / 8)

/-- Does an element lie in one line of a local end, and, when its request is of DIR 2, of the own scratchpad? -/
def Local.oneLine (x : Local) (dir2 : Bool) (e : Elem) : Bool :=
  x.line e == x.lineOf ((e.lbit + e.bits - 1) / 8)
    && (!dir2 || !e.inb || e.gbit / 8 / 128 == (e.gbit + e.bits - 1) / 8 / 128)

/-- The scratchpad lines that elements touch at a local end: core, resident index, line. -/
def Local.lines (x : Local) (l : List Elem) : List (Nat × Nat × Nat) :=
  match x with
  | .scr t r off _ =>
    (l.flatMap (fun e => [(t, r, (off + e.lbit / 8) / 128), (t, r, (off + (e.lbit + e.bits - 1) / 8) / 128)])).dedup
  | _ => []

/-- The scratchpad lines from the lowest to the highest byte of a span at a local end (R235). -/
def Local.spanLines (x : Local) (span : Nat × Nat) : List (Nat × Nat × Nat) :=
  match x with
  | .scr t r off _ =>
    (List.range ((off + span.2 - 1) / 128 - (off + span.1) / 128 + 1)).map (fun i => (t, r, (off + span.1) / 128 + i))
  | _ => []

/-- The own scratchpad lines that a request of DIR 2 reads for elements. -/
def ownLines (c rix : Nat) (l : List Elem) : List (Nat × Nat × Nat) :=
  (l.flatMap (fun e => if e.inb then
    [(c, rix, e.gbit / 8 / 128), (c, rix, (e.gbit + e.bits - 1) / 8 / 128)] else [])).dedup

/-! ## Acceptance (R226 to R232) -/

/-- What the acceptance steps give: a request, a failure with its cause, its address and, for a translation fault
or an attribute violation, the reason that the endpaper record keeps, or pages to walk. -/
inductive Prep where
  | ok (q : CReq)
  | bad (cause : BitVec 8) (va : Nat) (note : Option Nat := none)
  | miss (pages : List Nat)

/-- An empty request. -/
def CReq.init (op : CopyOp) (rix warp : Nat) (alt : Bool) (by_ : W32) : CReq :=
  { op, rix, warp, alt, by_, seq := 0, shape := ⟨0, false, 0, 1, 0, 0, false, 0, 0, [], [], [], 0⟩, loc := 0, bar := none
    coord := [], list := 0, n := 0, raddr := 0, addr := 0, len := 0, token := none, dreg := 0, total := 0, todo := [], parts := []
    span := (0, 0), held := [], reads := [], idx := [], left := 0, begun := false, paged := false, err := none }

/-- Op-specific conditions on the record (R228, R229). -/
def CopyOp.recOk (op : CopyOp) (sh : Shape) : Bool :=
  let unit (d : Nat) : Bool := sh.dir == d && decide (sh.loc < 2) && sh.layout == 0 && decide (sh.rank ≤ 2)
  match op with
  | .gather => unit 0
  | .scatter => unit 1
  | .scatterAdd => unit 1 && (sh.esz == 2 || (sh.esz == 3 && !sh.atype))
  | _ => true

/-- Coordinates that R227 allows. -/
def coordOk (sh : Shape) (c : List Int) : Bool :=
  (List.range 5).all (fun i => i < sh.rank || c.getD i 0 == 0)
    && (if sh.esz = 4 then c.getD 0 0 % 2 == 0 else if sh.esz = 5 then c.getD 0 0 % 4 == 0 else true)

/-- The barrier object of a request lies in its window: own, or remote with LOC 1. -/
def State.barTarget (s : State) (c rix grid loc : Nat) (b : Nat) : Option (Nat × Nat × Nat) :=
  if loc = 1 then s.remoteTarget c grid b 16
  else match (s.core c).blocks.find? rix with
    | some x => if b + 16 ≤ x.window then some (c, rix, b) else none
    | none => none

/-- A request's barrier object, where it counts on one, is an object; the request that reads another ends with FORMAT (R4). -/
def State.objectOk (s : State) (c rix grid loc : Nat) (bar : Option Nat) : Bool :=
  match bar with
  | none => true
  | some a => match s.barTarget c rix grid loc a with | some (t, r, o) => s.barOk t r o | none => false

/-- The elements of a request that have not been taken. -/
def CReq.rest (q : CReq) : List Elem := (q.todo.flatMap (fun r => (List.range (r.2 - r.1)).map (r.1 + ·))).map q.elem

/-- Elements whose bytes an outward COPY, or any other request, reads or writes. -/
def CReq.counted (q : CReq) (l : List Elem) : List Elem := l.filter (fun e => !q.outward || e.inb || q.op != .copy)

/-- The scratchpad lines that a request has still to read: of its index list, and of its local source (R237). -/
def CReq.withReads (q : CReq) (c : Nat) (x : Local) : CReq :=
  let at_ := q.list + 4 * q.idx.length
  let list := if q.op == .copy || q.n ≤ q.idx.length then []
    else (List.range ((q.list + 4 * q.n - 1) / 128 - at_ / 128 + 1)).map (fun i => (c, q.rix, at_ / 128 + i))
  { q with reads := list ++ (if q.shape.dir = 1 then x.lines (q.counted q.rest)
      else if q.shape.dir = 2 then ownLines c q.rix q.rest else []) }

/-- The steps of acceptance that follow the read of the record: coordinates, alignment, ranges, and the barrier object
(R226). Of a coordinate or count that is not legal the record's address is told (R233; assumption 133). -/
def State.prepRecord (s : State) (c : Nat) (q : CReq) : Prep :=
  let sh := q.shape
  match (s.core c).blocks.find? q.rix with
  | none => .bad cAccess 0
  | some b =>
    let isCopy := q.op == .copy
    let total := if isCopy then (sh.box.take sh.rank).foldl (· * ·) 1 else q.n * sh.boxOf 0
    let q := { q with total }
    if isCopy && !coordOk sh q.coord then .bad cIllegalOperand q.raddr
    else
      let misL := if sh.loc = 2 then q.loc % 2 ^ 14 != 0 else q.loc % 16 != 0
      let misL := misL || (sh.swz != 0 && q.loc % 1024 != 0)
      let misB := match q.bar with | some a => a % 16 != 0 | none => false
      if misL then .bad cDataAlign q.loc
      else if misB then .bad cDataAlign (q.bar.getD 0)
      else if !isCopy && q.list % 4 != 0 then .bad cDataAlign q.list
      else
        let all := (List.range total).map q.elem
        let span := (localSpan sh.swz all).getD (0, 1)
        let q := { q with span, todo := [(0, total)] }
        let rangeOk : Bool := match sh.loc with
          | 0 => decide (q.loc + span.2 ≤ b.window)
          | 1 => (s.remoteTarget c b.grid q.loc span.2).isSome
          | 2 => q.loc / 2 ^ 18 == 0 && (KMap.find? b.banks (q.loc / 2 ^ 14)).isSome && decide (span.2 ≤ 2 ^ 14)
          | _ => ((s.core c).scaleRead b (q.loc + span.1) (span.2 - span.1)).isSome
        let barOk := match q.bar with | some a => (s.barTarget c q.rix b.grid sh.loc a).isSome | none => true
        let listOk := isCopy || decide (q.list + 4 * q.n ≤ b.window)
        let srcOk := sh.dir != 2 || (match sh.globalSpan q.coord with
          | some r => decide (0 ≤ r.1 ∧ r.2 ≤ (b.window : Int))
          | none => true)
        if !rangeOk then .bad cAccess q.loc
        else if !barOk then .bad cAccess (q.bar.getD 0)
        else if !listOk then .bad cAccess q.list
        else if !srcOk then .bad cAccess (match sh.globalSpan q.coord with | some r => (r.1 % 2 ^ 64).toNat | none => 0)
        else if !(s.objectOk c q.rix b.grid sh.loc q.bar) then .bad cFormat (q.bar.getD 0)
        else
          let x := s.localOf c q
          let q := { q with left := total * sh.bits / 8, held := if sh.dir = 1 then [] else x.spanLines span }
          .ok (q.withReads c x)

/-- The acceptance steps of a request that names a record (R226), given the faults that walks for it found. -/
def State.prep (s : State) (c : Nat) (q : CReq) (faults : List (Nat × Nat)) : Prep :=
  match (s.core c).blocks.find? q.rix with
  | none => .bad cAccess 0
  | some b =>
    if q.op != .copy && !(decide (1 ≤ q.n ∧ q.n ≤ 65535)) then .bad cIllegalOperand q.raddr
    else if q.raddr % 64 ≠ 0 then .bad cDataAlign q.raddr
    else if !canonical q.raddr then .bad cAccess q.raddr
    else
      match (s.core c).tlbHit b.pasid q.raddr false with
      | none =>
        match faults.find? (fun f => f.1 = page4K q.raddr) with
        | some f => .bad (if f.2 = rRefused then cAccess else cPageFault) q.raddr (some f.2)
        | none => .miss [q.raddr]
      | some t =>
        if t.noRoute s.boot then .bad cAccess q.raddr (some 0)
        else match Shape.read (s.overlay (s.l1Wb c) (t.phys q.raddr) 64) with
        | none => .bad cFormat q.raddr
        | some sh => if q.op.recOk sh then s.prepRecord c { q with shape := sh } else .bad cFormat q.raddr

/-- The clasp entries of a request (R236), with its slot as tag. -/
def CReq.claspsOf (q : CReq) (slot : Nat) : List Clasp :=
  let sh := q.shape
  let mk (base len space : Nat) (dst : Bool) : Clasp := ⟨base, len, false, space, dst, slot, q.rix, q.warp⟩
  let lspace := if sh.loc = 1 then 2 else 1
  let localEntry (dst : Bool) : List Clasp :=
    if 2 ≤ sh.loc then []
    else match localSpan sh.swz (if q.op == .copy then q.localElems else (List.range q.total).map q.elem) with
      | some r => [mk (q.loc + r.1) (r.2 - r.1) lspace dst]
      | none => []
  let globEntry (dst : Bool) : List Clasp :=
    match sh.globalSpan q.coord with
    | some r => [mk (r.1 % 2 ^ 64).toNat (r.2 - r.1).toNat (if sh.dir = 2 then 1 else 0) dst]
    | none => []
  match q.op with
  | .copy => if sh.dir = 1 then localEntry false ++ globEntry true else globEntry false ++ localEntry true
  | .gather => [mk q.list (4 * q.n) 1 false, mk sh.base sh.extent 0 false] ++ localEntry true
  | .scatter => [mk q.list (4 * q.n) 1 false] ++ localEntry false ++ [mk sh.base sh.extent 0 true]
  | .scatterAdd => [mk q.list (4 * q.n) 1 false] ++ localEntry false ++ [mk sh.base sh.extent 0 true]
  | .pfl2 => []

/-- The lowest free slot (R213). -/
def Core.freeSlot (k : Core) : Option Nat := firstBelow (fun i => (k.copy.find? i).isNone) 64 0


/-- Make lines absent for a request (R235), or present again. -/
def State.absentLines (s : State) (l : List (Nat × Nat × Nat)) (up : Bool) : State :=
  l.foldl (fun s p => s.modBlock p.1 p.2.1 (fun b =>
    let n := (KMap.find? b.absent p.2.2).getD 0
    let m := if up then n + 1 else n - 1
    { b with absent := if m = 0 then KMap.del b.absent p.2.2 else KMap.put b.absent p.2.2 m })) s

/-- Where a request's barrier object stands. -/
def State.barOf (s : State) (c : Nat) (q : CReq) : Option (Nat × Nat × Nat) :=
  match q.bar, (s.core c).blocks.find? q.rix with
  | some a, some b => s.barTarget c q.rix b.grid (if q.op == .pfl2 then 0 else q.shape.loc) a
  | _, _ => none

/-- Add to or subtract from a request's barrier object (R188, R234, R240). -/
def State.count (s : State) (c : Nat) (q : CReq) (n : Int) : State :=
  match s.barOf c q with
  | some (t, r, off) => if n = 0 then s else (s.askBar t r off 5 c).barOp t r off (Bar.addBytes n)
  | none => s

/-- Has the warp accesses to an object of a window on their way: an arrival in the write buffer, or a remote access (R226)? -/
def State.objectDue (s : State) (c w : Nat) (o : Nat × Nat × Nat) : Bool :=
  (s.core c).wb.any (fun e => e.warp == w && (match e.kind with | .arrive t r off _ => (t, r, off) == o | _ => false))
    || (s.core o.1).remote.any (fun r => r.src == c && r.warp == w && r.rix == o.2.1
      && decide (r.off < o.2.2 + 16 ∧ o.2.2 < r.off + r.n))

/-- Can the request be accepted now: a slot and clasp entries are free, and the issuer's accesses to its barrier object have
been performed (R207, R226)? -/
def State.acceptable (s : State) (c : Nat) (q : CReq) : Bool :=
  match (s.core c).freeSlot with
  | some slot => decide ((s.core c).clasp.length + (q.claspsOf slot).length ≤ 64)
      && (match s.barOf c q with | some o => !s.objectDue c q.warp o | none => true)
  | none => false

/-- The lines of a bounding range in which a request lands no byte are present again at once (R235; assumption 57). -/
def State.gapLines (s : State) (c : Nat) (q : CReq) : State × CReq :=
  let mine := (s.localOf c q).lines ((List.range q.total).map q.elem)
  let gaps := q.held.filter (fun l => !mine.contains l)
  (s.absentLines gaps false, { q with held := q.held.filter mine.contains })

/-- Accept a request: slot, clasp entries, presence, count (R226). -/
def State.accept (s : State) (c : Nat) (q : CReq) : State :=
  match (s.core c).freeSlot with
  | none => s
  | some slot =>
    let x := (s.absentLines q.held true).gapLines c { q with seq := s.nonce }
    let s := x.1.modCore c (fun k => { k with
      copy := k.copy.put slot x.2, corder := k.corder ++ [slot], clasp := k.clasp ++ q.claspsOf slot })
    (s.count c x.2 x.2.left).tickNonce.progress c

/-- The token of a PFL2 that has waited is in its register 2 cycles after the acceptance (R223, R232). -/
def State.putToken (s : State) (c : Nat) (q : CReq) : State :=
  match q.token with
  | some k => (s.modWarp c q.warp (fun w => { w with results := w.results ++
      [⟨2, false, 7, .w, [q.dreg], 1, [BitVec.ofNat 32 k], 0, 0, s.nonce, [], []⟩] })).tickNonce
  | none => s

/-! ## The end of a request (R213, R241) -/

/-- Release clasp entries of a slot for which p holds. -/
def Core.dropClasp (k : Core) (slot : Nat) (p : Clasp → Bool) : Core :=
  { k with clasp := k.clasp.filter (fun x => !(!x.marb && x.tag == slot && p x)) }

/-- Is nothing of the request left to take or on its way? -/
def CReq.done (q : CReq) : Bool := q.todo.isEmpty && q.parts.isEmpty

/-- A request leaves its slot: entries released, lines present, token free; then the bytes n that land with it
are subtracted. -/
def State.copyEnd (s : State) (c slot : Nat) (q : CReq) (n : Nat) : State :=
  let s := s.modCore c (fun k =>
    { (k.dropClasp slot (fun _ => true)) with copy := KMap.del k.copy slot, corder := k.corder.filter (· ≠ slot) })
  let s := s.absentLines q.held false
  let s := match q.token with
    | some k => s.modBlock c q.rix (fun b => { b with cs := { b.cs with tokens := b.cs.tokens &&& ~~~(bit k) } })
    | none => s
  (s.count c q (-(n : Int))).progress c

/-- n bytes of a request, of the elements given, have landed (R234): lines and entries with nothing left are released, and the
last landing completes it. The global destination of an outward request goes with the last element in bounds (R207, R236). -/
def State.copyLanded (s : State) (c slot : Nat) (q : CReq) (n : Nat) (landed : List Elem) : State :=
  let q := { q with left := q.left - n }
  if q.done then s.copyEnd c slot { q with left := 0 } (n + q.left)
  else
    let x := s.localOf c q
    let open_ := q.rest ++ q.parts.flatMap (·.elems)
    let still := x.lines open_
    let gone := q.held.filter (fun l => !still.contains l)
    let q' := { q with held := q.held.filter still.contains }
    let s := s.modCore c (fun k => { k with copy := k.copy.put slot q' })
    let s := if q.outward && landed.any (·.inb) && !open_.any (·.inb) then
        s.modCore c (fun k => k.dropClasp slot (fun x => x.dst && x.space == 0))
      else s
    ((s.absentLines gone false).count c q (-(n : Int)))

/-- The address of the first byte of the element that a request meets on a page (R233). -/
def CReq.elemOn (q : CReq) (va : Nat) : Nat :=
  let first (e : Elem) : Nat := e.gbit / 8 % 2 ^ 64
  match q.rest.find? (fun e => e.inb && (page4K (first e) == page4K va
      || page4K ((e.gbit + e.bits - 1) / 8 % 2 ^ 64) == page4K va)) with
  | some e => first e
  | none => va

/-- The index list's clasp entry, the first of its request's, goes when the list has been read (R236). -/
def Core.dropList (k : Core) (slot : Nat) (q : CReq) : Core :=
  { k with clasp := k.clasp.eraseP (fun x =>
      !x.marb && x.tag == slot && !x.dst && x.space == 1 && x.base == q.list && x.len == 4 * q.n) }

/-- Sources of a request whose last byte has been read are released (R207, R236): no element that it reads is still to be taken or
on its way. -/
def State.copySources (s : State) (c slot : Nat) (q : CReq) : State :=
  let reads (l : List Elem) : Bool := l.any (fun e => e.inb || (q.outward && q.op != .copy))
  let reading := q.parts.any (fun p => (match p.stage with | .fetch _ => true | _ => false) && reads p.elems)
  if (q.op == .copy || q.n ≤ q.idx.length) && !reads q.rest && !reading then
    s.modCore c (fun k => k.dropClasp slot (fun x => !x.dst))
  else s

/-- Note an error in the block's STATUS and ERRVA (R233). -/
def State.copyStatusError (s : State) (c rix tag cause va : Nat) : State :=
  let s := s.modBlock c rix (fun b =>
    let first := !b.cs.err
    { b with cs := { b.cs with
      err := true, cnt := min 127 (b.cs.cnt + 1)
      tag := if first then tag else b.cs.tag, cause := if first then cause else b.cs.cause
      va := if first then BitVec.ofNat 64 va else b.cs.va } })
  s.endpaper (quireOf c) 2 c (cause + 256 * tag) va rix

/-- A request ends in an error: what remains counts as landed (R241). -/
def State.copyError (s : State) (c slot : Nat) (q : CReq) : State :=
  match q.err with
  | none => s
  | some (cause, va) =>
    (s.copyStatusError c q.rix slot cause (if cause = cMxReset.toNat then q.loc else va)).copyEnd c slot q q.left

/-! ## Movement (R214, R237, R238) -/

/-- A line that only later-accepted requests of the core's engine have made absent does not hold this one
back (R237, R238). -/
def State.presentFor (s : State) (c : Nat) (q : CReq) (l : Nat × Nat × Nat) : Bool :=
  match (s.core l.1).blocks.find? l.2.1 with
  | none => true
  | some b =>
    let n := (KMap.find? b.absent l.2.2).getD 0
    let later := ((s.core c).copy.filter (fun p => decide (q.seq < p.2.seq) && p.2.held.contains l)).length
    decide (n ≤ later)

/-- No earlier-accepted request has still to read or to write the line (R237). -/
def Core.lineFree (k : Core) (q : CReq) (l : Nat × Nat × Nat) : Bool :=
  k.copy.all (fun p => !(decide (p.2.seq < q.seq)) || !(p.2.held.contains l || p.2.reads.contains l))

/-- The engine's earlier moves are over: their words have all been served. -/
def State.engineIdle (s : State) (c : Nat) : Bool :=
  !(s.core c).ck.second
    && s.cores.all (fun p => p.2.ck.words.all (fun w => !(w.port == 5 && w.src == c && (w.tag == 0 || w.tag == 4))))

/-- Requests in progress: the first eight (R214). -/
def Core.inProgress (k : Core) : List (Nat × CReq) :=
  (k.corder.take 8).filterMap (fun i => (k.copy.find? i).map (fun q => (i, q)))

/-- The global lines that a part has outstanding: those of the first and the last byte of each element in bounds (R214). -/
def CPart.lines (p : CPart) : List Nat :=
  match p.stage with
  | .ready => []
  | .moving => []
  | _ => (((p.elems.zip p.pas).filter (·.1.inb)).flatMap (fun x => [x.2.1 / 128, x.2.2 / 128])).dedup

/-- Outstanding global lines of the engine (R214). -/
def Core.engineLines (k : Core) : Nat :=
  (k.copy.map (fun q => (q.2.parts.map (fun p => p.lines.length)).foldl (· + ·) 0)).foldl (· + ·) 0

/-- The own line that an element of a DIR 2 request is read from; none for padding. -/
def Elem.ownLine (e : Elem) : Option Nat := if e.inb then some (e.gbit / 8 / 128) else none

/-- The elements at the front of a list that one move takes: those of one local line, and for DIR 2 also of one own line; an
element that lies in two lines is moved alone, in two cycles (R214). -/
def moveGroup (x : Local) (dir2 : Bool) (l : List Elem) : List Elem :=
  match l with
  | [] => []
  | e :: _ =>
    if x.oneLine dir2 e then
      let own := if dir2 then (l.filterMap Elem.ownLine).head? else none
      l.takeWhile (fun y => x.oneLine dir2 y && x.line y == x.line e
        && (!dir2 || y.ownLine.isNone || y.ownLine == own))
    else [e]

/-- The part of a request that is taken next: elements from a free place in what remains, as far as they stay
in one local line; in ascending order for a SCATTER (R214, R229; assumption 12). -/
def CReq.pick (q : CReq) (x : Local) (nonce : Nat) : Option (List (Nat × Nat) × List Elem) :=
  let ordered := q.op == .scatter || q.op == .scatterAdd
  let i := if ordered then 0 else Config.copyPick (3 * nonce) % q.todo.length
  match q.todo[i]? with
  | none => none
  | some (lo, hi) =>
    let start := if ordered then lo else lo + Config.copyPick (3 * nonce + 1) % (hi - lo)
    let cand := (List.range (min (hi - start) 1024)).map (fun j => q.elem (start + j))
    let es := moveGroup x (q.shape.dir == 2) cand
    let stop := start + es.length
    let left := (if lo < start then [(lo, start)] else []) ++ (if stop < hi then [(stop, hi)] else [])
    some (q.todo.take i ++ left ++ q.todo.drop (i + 1), es)

/-- A part's element is an atomic that the host or a peer page does not support (R371). -/
def addBad (op : CopyOp) (sh : Shape) (t : Tlb) : Bool := op == .scatterAdd && t.tgt == 1 && sh.atype

/-- A part of the request is taken: what remains, and the part on its way. -/
def CReq.take (q : CReq) (todo : List (Nat × Nat)) (p : CPart) : CReq :=
  { q with todo := todo, parts := q.parts ++ [p], begun := true }

/-- Translate the elements' global bytes for core c: tagged addresses of first and last bytes and the pages that
are missing, or a violation with its cause and address (R175, R241). -/
def State.placeElems (s : State) (c pasid : Nat) (op : CopyOp) (sh : Shape) (write : Bool) :
    List Elem → Except (Nat × Nat) (List (Nat × Nat) × List Nat)
  | [] => .ok ([], [])
  | e :: l =>
    match s.placeElems c pasid op sh write l with
    | .error x => .error x
    | .ok (pas, miss) =>
      let va := e.gbit / 8
      let vb := (e.gbit + e.bits - 1) / 8 % 2 ^ 64
      if !e.inb then .ok ((0, 0) :: pas, miss)
      else if !canonical va then .error (cAccess.toNat, va)
      else if !canonical vb then .error (cAccess.toNat, va)
      else
        match (s.core c).tlbHit pasid va write, (s.core c).tlbHit pasid vb write with
        | some t, some u =>
          if (write && (t.readOnly || u.readOnly)) || t.noRoute s.boot || u.noRoute s.boot || addBad op sh t then .error (cAccess.toNat, va)
          else .ok ((t.phys va, u.phys vb) :: pas, miss)
        | none, _ => .ok ((0, 0) :: pas, va :: miss)
        | _, none => .ok ((0, 0) :: pas, vb :: miss)

/-- The translations that elements within bounds are made with (R364). -/
def Core.elemTlbs (k : Core) (pasid : Nat) (write : Bool) (l : List Elem) : List Tlb :=
  ((l.filter (·.inb)).flatMap (fun e =>
    (k.tlbHit pasid (e.gbit / 8) write).toList ++ (k.tlbHit pasid ((e.gbit + e.bits - 1) / 8 % 2 ^ 64) write).toList)).dedup

/-- Store a request back in its slot. -/
def State.putReq (s : State) (c slot : Nat) (q : CReq) : State := s.modCore c (fun k => { k with copy := k.copy.put slot q })

/-- The asker of a request's walks. -/
def askCopy (slot : Nat) : Asker := .copy slot

/-- The pages of a miss are asked for, and the request waits for them. -/
def State.copyMiss (s : State) (c slot pasid : Nat) (write : Bool) (miss : List Nat) : State :=
  (s.modCore c (fun k => { k with copy := k.copy.map (fun q => if q.1 = slot then (q.1, { q.2 with paged := true }) else q) })).startWalks
    c pasid write false (askCopy slot) miss

/-- Can an index line be read next: the list is unfinished and its line is present? -/
def State.indexReady (s : State) (c : Nat) (q : CReq) : Bool :=
  q.op != .copy && q.op != .pfl2 && decide (q.idx.length < q.n)
    && s.presentFor c q (c, q.rix, (q.list + 4 * q.idx.length) / 128)

/-- Read the indices of one line of the list. -/
def State.readIndices (s : State) (c slot : Nat) (q : CReq) : State :=
  let at_ := q.list + 4 * q.idx.length
  let n := min (q.n - q.idx.length) ((128 - at_ % 128) / 4)
  let new := (List.range n).map (fun i => bytesNat (s.scratchRead c q.rix (at_ + 4 * i) 4))
  let q := { q with idx := q.idx ++ new, begun := true }.withReads c (s.localOf c q)
  let s := (s.putReq c slot q).bankWords c q.rix at_ (4 * n) 5 0 c 0
  (if q.n ≤ q.idx.length then s.modCore c (fun k => k.dropList slot q) else s).copySources c slot q

/-- Ask the banks of a window for the words that hold bytes, those of a second line a cycle later (R214, R240). -/
def State.askBytes (s : State) (c t r : Nat) (l : List Nat) : State :=
  let ws := (l.map (· / 4)).dedup
  let first := ws.headD 0 / 32
  s.modClock t (fun k => { k with words := k.words ++ ws.map (fun w =>
    if w / 32 = first then (⟨5, r * 2 ^ 17 + w, 0, none, 0, c, 0⟩ : BankReq) else ⟨5, r * 2 ^ 17 + w, 0, none, 1, c, 4⟩) })

/-- Ask the banks for the words that elements touch at a local end in scratchpad. -/
def State.askLocal (s : State) (c : Nat) (x : Local) (l : List Elem) : State :=
  match x with
  | .scr t r off z =>
    s.askBytes c t r (l.flatMap (fun e => [off + swizzle z (e.lbit / 8), off + swizzle z ((e.lbit + e.bits - 1) / 8)]))
  | _ => s

/-- Ask the banks for the own words that a DIR 2 request reads. -/
def State.askOwn (s : State) (c rix : Nat) (l : List Elem) : State :=
  s.askBytes c c rix ((l.filter (·.inb)).flatMap (fun e => [e.gbit / 8, (e.gbit + e.bits - 1) / 8]))

/-- Tagged address of byte i of memory, counted in virtual bytes, for an element with the addresses of its first
and last bytes. -/
def Elem.byteAt (e : Elem) (pa : Nat × Nat) (i : Nat) : Nat :=
  if i = (e.gbit + e.bits - 1) / 8 then pa.2 else pa.1 + (i - e.gbit / 8)

/-- An element's value in memory: with the core's own buffered stores (R210). -/
def State.globalGet (s : State) (c : Nat) (pa : Nat × Nat) (e : Elem) : Nat :=
  bitField (fun i => ((s.overlay (s.l1Wb c) (e.byteAt pa i) 1).headD 0)) e.gbit e.bits

/-- Perform an element's write in memory at device scope; the lines that the L1 holds go (R210). -/
def State.globalPut (s : State) (c : Nat) (pa : Nat × Nat) (e : Elem) : State :=
  let b := bitsPut (fun i => SMap.get 0 s.mem (e.byteAt pa i)) e.gbit e.bits e.val
  let s := (b.zipIdx).foldl (fun s p => s.write (e.byteAt pa (e.gbit / 8 + p.2)) [p.1]) s
  if isModule pa.1 then (s.l1Drop c pa.1).l1Drop c pa.2 else s

/-- An engine element's attribute violation is in the endpaper record; a non-canonical address is none (R352, R356). -/
def State.noteViolation (s : State) (c pasid va : Nat) : State :=
  if canonical va then s.noteFault c pasid cAccess.toNat 0 va else s

/-- Fetch a part of an inward request: its global bytes are asked for, or its pages. -/
def State.copyFetch (s : State) (c slot : Nat) (q : CReq) (pasid : Nat) : State :=
  match q.pick (s.localOf c q) s.nonce with
  | none => s
  | some (todo, es) =>
    match s.placeElems c pasid q.op q.shape false es with
    | .error x => (s.putReq c slot { q with err := some x }).noteViolation c pasid x.2
    | .ok (pas, []) =>
      (s.putReq c slot (q.take todo ⟨s.nonce, es, pas, .fetch (s.time + Config.latency s.nonce)⟩)).fly c
        ⟨s.nonce, s.nonce, s.nonce, (s.core c).elemTlbs pasid false es⟩ |>.tickNonce
    | .ok (_, miss) => (s.copyMiss c slot pasid false miss).tickNonce

/-- Take a part of an outward request, or of one between scratchpads, out of its local line. -/
def State.copyTake (s : State) (c slot : Nat) (q : CReq) (pasid : Nat) : State :=
  let x := s.localOf c q
  match q.pick x s.nonce with
  | none => s
  | some (todo, es) =>
    if q.shape.dir = 2 then
      if (ownLines c q.rix es).all (fun l => s.presentFor c q l) then
        let own (i : Nat) : Byte := (s.scratchRead c q.rix i 1).headD 0
        let es := es.map (fun e => { e with val := if e.inb then bitField own e.gbit e.bits else q.shape.padding })
        let q := (q.take todo ⟨s.nonce, es, [], .ready⟩).withReads c x
        ((s.putReq c slot q).askOwn c q.rix es).tickNonce.copySources c slot q
      else s.tickNonce
    else
      match s.placeElems c pasid q.op q.shape true es with
      | .error e => (s.putReq c slot { q with err := some e }).noteViolation c pasid e.2
      | .ok (pas, []) =>
        if (x.lines es).all (fun l => s.presentFor c q l) then
          let es := es.map (fun e => { e with val := s.localGet c x e })
          let q := (q.take todo ⟨s.nonce, es, pas, .store (s.time + Config.latency s.nonce)⟩).withReads c x
          (((s.putReq c slot q).askLocal c x es).fly c ⟨s.nonce, s.nonce, s.nonce, (s.core c).elemTlbs pasid true es⟩
            ).tickNonce.copySources c slot q
        else s.tickNonce
      | .ok (_, miss) => (s.copyMiss c slot pasid true miss).tickNonce

/-- A part's data is back: its elements take their values from global memory, or are padding; those that were lost are all ones
(R215, R371, R374). -/
def State.partBack (s : State) (c slot : Nat) (q : CReq) (p : CPart) (lost : Nat × Nat → Bool) : State :=
  let es := (p.elems.zip p.pas).map (fun x =>
    { x.1 with val :=
        if !x.1.inb then q.shape.padding else if lost x.2 then 2 ^ x.1.bits - 1 else s.globalGet c x.2 x.1 })
  let q := { q with parts := q.parts.map (fun y => if y.id = p.id then { y with elems := es, stage := .ready } else y) }
  (s.putReq c slot q).copySources c slot q

/-- Move a part whose data is there into its local line. -/
def State.copyMove (s : State) (c slot : Nat) (q : CReq) (p : CPart) : State :=
  let x := s.localOf c q
  let q := { q with parts := q.parts.map (fun y => if y.id == p.id then { y with stage := .moving } else y) }
  (s.putReq c slot q).askLocal c x p.elems

/-- Can the part be moved: no earlier request still needs its lines (R237)? -/
def State.moveReady (s : State) (c : Nat) (q : CReq) (p : CPart) : Bool :=
  p.stage == .ready && ((s.localOf c q).lines p.elems).all (fun l => (s.core c).lineFree q l)

/-- A page of the request is still being walked. -/
def Core.copyWaits (k : Core) (slot : Nat) : Bool := k.walks.any (fun w => w.who.contains (askCopy slot))

/-! ## Instructions (R223 to R233) -/

/-- A barrier operand: all ones names no object. -/
def barArg (x : W32) : Option Nat := if x = 0xFFFFFFFF then none else some x.toNat

/-- A signed number of n bits of a word. -/
def signedAt (x : W32) (lo n : Nat) : Int :=
  let y := x.toNat / 2 ^ lo % 2 ^ n
  if 2 ^ (n - 1) ≤ y then (y : Int) - 2 ^ n else y

/-- The coordinates of four words (R227). -/
def coordsOf (l : List W32) : List Int :=
  let w (i : Nat) : W32 := l.getD i 0
  [signedAt (w 0) 0 32, signedAt (w 1) 0 32, signedAt (w 2) 0 32, signedAt (w 3) 0 16, signedAt (w 3) 16 16]

/-- Hand a request to the engine: the issuer's accesses that do not go through the write buffer have been performed (R210), then the
acceptance steps, then a slot, now or later (R226). -/
def handOver (q : CReq) (lane : Nat) : Body := fun e s => do
  if e.path.granted.contains .engine then .ok s
  else
    e.settled s false
    match s.prep e.c q e.path.faults with
    | .bad cause va note =>
      .error (.trapWith cause (bit lane) (fun s =>
        match note with | some r => s.noteFault e.c e.blk.pasid cause.toNat r va | none => s))
    | .miss pages =>
      .error (.wait .translate (fun s => s.startWalks e.c e.blk.pasid false false (.path e.w e.alt) pages))
    | .ok q =>
      if (s.core e.c).caccept.isEmpty && s.acceptable e.c q then .ok (s.accept e.c q)
      else .error (.wait .engine (fun s => s.modCore e.c (fun k => { k with caccept := k.caccept ++ [q] })))

/-- COPY (R227). -/
def bodyCopy (f : F3) : Body := fun e s => do
  let d ← e.plainSrc 6 f.d
  let a ← e.pairSrc 6 f.a
  let b := f.b.toNat
  e.field (b == 480 || (decide (384 ≤ b ∧ b < 448) && b % 4 == 0))
  let cc ← e.plainSrc 6 f.c
  e.landed [d, a, cc]
  (if b ≠ 480 && e.blocked [] ((List.range 4).map (b - 384 + ·)) then .error (.wait .interlock id) else .ok ())
  match e.elected with
  | none => .ok s
  | some l =>
    let ws := if b = 480 then [] else (List.range 4).map (fun i => e.wread (b - 384 + i))
    handOver { (CReq.init .copy e.warp.rix e.w e.alt e.path.mask) with
      loc := (d.val32 e l).toNat, raddr := (a.val e l).toNat, bar := barArg (cc.val32 e l), coord := coordsOf ws } l e s

/-- GATHER and SCATTER (R228, R229). -/
def unitBody (op : CopyOp) (f : F3) : Body := fun e s => do
  let d ← e.plainSrc 6 f.d
  let a ← e.pairSrc 6 f.a
  e.field (isW f.b && f.b.toNat % 2 == 0)
  let cc ← e.plainSrc 6 f.c
  e.landed [d, a, cc]
  e.wLanded [f.b.toNat - 384, f.b.toNat - 383]
  match e.elected with
  | none => .ok s
  | some l =>
    handOver { (CReq.init op e.warp.rix e.w e.alt e.path.mask) with
      loc := (d.val32 e l).toNat, raddr := (a.val e l).toNat, bar := barArg (cc.val32 e l)
      list := (e.wread (f.b.toNat - 384)).toNat, n := (e.wread (f.b.toNat - 383)).toNat } l e s

def bodyGather (f : F3) : Body := unitBody .gather f
def bodyScatter (f : F3) : Body := unitBody .scatter f
def bodyScatterAdd (f : F3) : Body := unitBody .scatterAdd f

/-- The tag of a KICK list's clasp entry: no slot has it. -/
def kickTag : Nat := 255

/-- KICK (R230): the list becomes the core's pending list. -/
def bodyKick (f : F2) : Body := fun e s => do
  let a ← e.plainSrc 6 f.a
  let b ← e.plainSrc 6 f.b
  e.landed [a, b]
  match e.elected with
  | none => .ok s
  | some l => do
    let off := (a.val32 e l).toNat
    let n := (b.val32 e l).toNat
    need (decide (1 ≤ n ∧ n ≤ 64)) cIllegalOperand (bit l)
    need (off % 16 == 0) cDataAlign (bit l)
    need (decide (off + 48 * n ≤ e.blk.window)) cAccess (bit l)
    e.settled s false
    (if (s.core e.c).kick.extractLsb' 25 7 != 0 then .error (.wait .kick id) else .ok ())
    (if 64 ≤ (s.core e.c).clasp.length then .error (.wait .kick id) else .ok ())
    .ok (s.modCore e.c (fun k => { k with
      kick := BitVec.ofNat 32 (n * 2 ^ 25 + off), kickBy := some (e.warp.rix, e.w, e.path.mask), kfaults := []
      clasp := k.clasp ++ [⟨off, 48 * n, false, 1, false, kickTag, e.warp.rix, e.w⟩] }))

/-- A PFL2 of a block, with the barrier or the token it completes on (R232). -/
def pflReq (e : Env) (addr len : Nat) (bar token : Option Nat) (dreg : Nat) : CReq :=
  let lines := (addr + len - 1) / 128 - addr / 128 + 1
  { (CReq.init .pfl2 e.warp.rix e.w e.alt e.path.mask) with
    addr, len, bar, token, dreg, total := lines, todo := [(0, lines)], left := if bar.isSome then 128 * lines else 0 }

/-- A PFL2 gets its slot, now or later. -/
def pflOver (q : CReq) : Body := fun e s =>
  if (s.core e.c).caccept.isEmpty && s.acceptable e.c q then .ok (s.accept e.c q)
  else .error (.wait .engine (fun s => s.modCore e.c (fun k => { k with caccept := k.caccept ++ [q] })))

/-- PFL2 with a barrier object. -/
def bodyPfl2 (f : F2) : Body := fun e s => do
  let d ← e.plainSrc 6 f.d
  let a ← e.pairSrc 6 f.a
  let b ← e.plainSrc 6 f.b
  e.landed [d, a, b]
  if e.path.granted.contains .engine then .ok s
  else
    match e.elected with
    | none => .ok s
    | some l => do
      let n := (b.val32 e l).toNat
      need (decide (1 ≤ n ∧ n ≤ 2 ^ 28)) cIllegalOperand (bit l)
      let bar := barArg (d.val32 e l)
      need (match bar with | some x => x % 16 == 0 | none => true) cDataAlign (bit l)
      need (match bar with | some x => decide (x + 16 ≤ e.blk.window) | none => true) cAccess (bit l)
      need (s.objectOk e.c e.warp.rix e.blk.grid 0 bar) cFormat (bit l)
      pflOver (pflReq e (a.val e l).toNat n bar none 0) e s

/-- PFL2.TOK: the lowest free token of the block, whose bit is set as it is taken (R232; assumption 130). -/
def bodyPfl2Tok (f : F2) : Body := fun e s => do
  e.dstW f.d false
  let a ← e.pairSrc 6 f.a
  let b ← e.plainSrc 6 f.b
  e.landed [a, b]
  if e.path.granted.contains .engine then .ok s
  else
    match e.elected with
    | none => .ok s
    | some l => do
      let n := (b.val32 e l).toNat
      need (decide (1 ≤ n ∧ n ≤ 2 ^ 28)) cIllegalOperand (bit l)
      match lowest (~~~e.blk.cs.tokens) with
      | none => .error (.wait .token id)
      | some k =>
        let take (s : State) : State :=
          s.modBlock e.c e.warp.rix (fun x => { x with cs := { x.cs with tokens := x.cs.tokens ||| bit k } })
        match pflOver (pflReq e (a.val e l).toNat n none (some k) (f.d.toNat - 384)) e s with
        | .ok t => .ok (e.put 7 2 false .w [f.d.toNat - 384] (bit l) [BitVec.ofNat 32 k] (take t))
        | .error (.wait why ask) => .error (.wait why (fun s => take (ask s)))
        | .error x => .error x

/-- A status instruction: a selector in A, a value to v or w; w in a strand (R233, R314). -/
def statusBody (f : F2) (val : Env → State → Nat → Option W32) (clear : Dest) : Body := fun e s => do
  (if e.strand then e.dstW f.d false else e.dstVW f.d false)
  let a ← e.plainSrc 6 f.a
  e.landed [a]
  match lowest e.act with
  | none => .ok s
  | some l =>
    let sel := (a.val32 e l).toNat
    match val e s sel with
    | none => .error (.trap cIllegalOperand (bit l))
    | some x =>
      let t := e.putVW 7 2 false f.d false (x.setWidth 64) s
      .ok (if sel = 4 then e.put 7 2 false clear [] e.act [] t else t)

def bodyCstat (f : F2) : Body :=
  statusBody f
    (fun e s sel =>
      let cs := match (s.core e.c).blocks.find? e.warp.rix with | some b => b.cs | none => e.blk.cs
      match sel with
      | 0 => some ((s.core e.c).copyStatus e.warp.rix)
      | 1 => some (cs.va.extractLsb' 0 32)
      | 2 => some (cs.va.extractLsb' 32 32)
      | 3 => some cs.tokens
      | 4 => some ((s.core e.c).copyStatus e.warp.rix)
      | _ => none)
    .copyClear

/-! ## The KICK list (R230, R231) -/

/-- The list is abandoned or done. -/
def State.kickDone (s : State) (c : Nat) : State :=
  s.modCore c (fun k => { (k.dropClasp kickTag (fun _ => true)) with kick := k.kick &&& 0x7FFFF, kickBy := none, kfaults := [] })

/-- The request that 48 bytes of an entry describe; none when the entry is malformed. -/
def kickEntry (rix warp : Nat) (by_ : W32) (b : List Byte) : Option CReq :=
  let at_ (o n : Nat) : Nat := bytesNat ((b.drop o).take n)
  let op : Option CopyOp := match at_ 0 1 with
    | 0 => some .copy
    | 1 => some .gather
    | 2 => some .scatter
    | 3 => some .scatterAdd
    | _ => none
  match op with
  | none => none
  | some op =>
    if at_ 1 3 ≠ 0 ∨ at_ 20 4 ≠ 0 ∨ at_ 40 8 ≠ 0 ∨ (op ≠ .copy ∧ at_ 32 8 ≠ 0) then none
    else
      let word (i : Nat) : W32 := BitVec.ofNat 32 (at_ (24 + 4 * i) 4)
      some { (CReq.init op rix warp false by_) with
        loc := at_ 4 4, raddr := at_ 8 8, bar := barArg (BitVec.ofNat 32 (at_ 16 4))
        coord := if op == .copy then coordsOf [word 0, word 1, word 2, word 3] else []
        list := if op == .copy then 0 else at_ 24 4, n := if op == .copy then 0 else at_ 28 4 }

/-- Are the lines of the next entry present for the engine (R238)? -/
def State.kickReady (s : State) (c : Nat) : Bool :=
  match (s.core c).kickBy with
  | some (rix, _, _) => s.bytesPresent c rix (((s.core c).kick.extractLsb' 0 19).toNat) 48
  | none => false

/-- The next entry of core c's list is read and accepted, or ends the list (R231, R241). A page that is not yet
translated is asked for, and the entry waits. -/
def State.kickAccept (s : State) (c : Nat) : State :=
  match (s.core c).kickBy with
  | none => s
  | some (rix, warp, by_) =>
    let off := ((s.core c).kick.extractLsb' 0 19).toNat
    let s := s.bankWords c rix off 48 5 0 c 3
    let fail (cause va : Nat) : State := (s.copyStatusError c rix kickTag cause va).kickDone c
    match kickEntry rix warp by_ (s.scratchRead c rix off 48) with
    | none => fail cFormat.toNat off
    | some q =>
      match s.prep c q (s.core c).kfaults with
      | .bad cause va note =>
        let pasid := match (s.core c).blocks.find? rix with | some b => b.pasid | none => 0
        ((match note with | some r => s.noteFault c pasid cause.toNat r va | none => s).copyStatusError
          c rix kickTag cause.toNat va).kickDone c
      | .miss pages =>
        let pasid := match (s.core c).blocks.find? rix with | some b => b.pasid | none => 0
        s.startWalks c pasid false false (.copy 64) pages
      | .ok q =>
        if s.acceptable c q then
          let s := s.accept c q
          let n := ((s.core c).kick.extractLsb' 25 7).toNat
          let s := s.modCore c (fun k => { k with kick := BitVec.ofNat 32 ((n - 1) * 2 ^ 25 + (off + 48)) })
          if n = 1 then s.kickDone c else s
        else s

/-! ## PFL2 lines (R232) -/

/-- Bring the line of a virtual address into its home L2, unless it is to be skipped. -/
def State.pflBring (s : State) (c pasid va : Nat) : State :=
  if canonical va then
    match s.xlateNow c pasid va false with
    | .ok t =>
      let line := t.phys va / 128
      if t.tgt = 0 && !t.nc && (s.l2.find? line).isNone then { s with l2 := s.l2.put line 0 } else s
    | .error _ => s
  else s

/-- A line of a PFL2 is done: brought into its home L2, or skipped. -/
def State.pflLine (s : State) (c slot : Nat) (q : CReq) : State :=
  let i := Config.copyPick (3 * s.nonce) % q.todo.length
  match q.todo[i]? with
  | none => s
  | some (lo, hi) =>
    let j := lo + Config.copyPick (3 * s.nonce + 1) % (hi - lo)
    let left := (if lo < j then [(lo, j)] else []) ++ (if j + 1 < hi then [(j + 1, hi)] else [])
    let q := { q with todo := q.todo.take i ++ left ++ q.todo.drop (i + 1), begun := true }
    let va := (q.addr / 128 + j) * 128 % 2 ^ 64
    let pasid := match (s.core c).blocks.find? q.rix with | some b => b.pasid | none => 0
    let s := s.pflBring c pasid va
    ((s.putReq c slot q).tickNonce).copyLanded c slot q (if q.bar.isSome then 128 else 0) []

/-! ## Meanings of the constructors -/

/-- The meaning of copy (R227). -/
def execCopy (f : F3) (s : State) : Host.Outcome State Fault Refusal :=
  issue (costOf (.copy f)) f.g (bodyCopy f) s

/-- The meaning of kick (R230). -/
def execKick (f : F2) (s : State) : Host.Outcome State Fault Refusal :=
  issue (costOf (.kick f)) f.g (bodyKick f) s

/-- The meaning of gather (R228). -/
def execGather (f : F3) (s : State) : Host.Outcome State Fault Refusal :=
  issue (costOf (.gather f)) f.g (bodyGather f) s

/-- The meaning of scatter (R229). -/
def execScatter (f : F3) (s : State) : Host.Outcome State Fault Refusal :=
  issue (costOf (.scatter f)) f.g (bodyScatter f) s

/-- The meaning of scatterAdd (R229). -/
def execScatterAdd (f : F3) (s : State) : Host.Outcome State Fault Refusal :=
  issue (costOf (.scatterAdd f)) f.g (bodyScatterAdd f) s

/-- The meaning of pfl2 (R232). -/
def execPfl2 (f : F2) (s : State) : Host.Outcome State Fault Refusal :=
  issue (costOf (.pfl2 f)) f.g (bodyPfl2 f) s

/-- The meaning of pfl2Tok (R232). -/
def execPfl2Tok (f : F2) (s : State) : Host.Outcome State Fault Refusal :=
  issue (costOf (.pfl2Tok f)) f.g (bodyPfl2Tok f) s

/-- The meaning of cstat (R233). -/
def execCstat (f : F2) (s : State) : Host.Outcome State Fault Refusal :=
  issue (costOf (.cstat f)) f.g (bodyCstat f) s

end Sys2Proof.Machine
end

