-- ==== Sys2Proof/Machine/Iu.lean ====
section
/-! DEFINITION. The integer unit (R62 to R86): what every UNIT 0 instruction does. -/

namespace Sys2Proof.Machine

/-! ## Elements (R62, R63) -/

/-- Element width of an IU type. -/
def tyWidth (mod : BitVec 3) : Nat :=
  if mod.toNat ≥ 6 then 64 else if mod.toNat ≥ 4 then 8 else if mod.toNat ≥ 2 then 16 else 32

/-- Is the type read as signed? -/
def tySigned (mod : BitVec 3) : Bool := mod.toNat % 2 == 0

/-- Does the type take a pair? -/
def tyWide (mod : BitVec 3) : Bool := decide (6 ≤ mod.toNat)

/-- Number of elements. -/
def tyCount (mod : BitVec 3) : Nat := if tyWidth mod = 64 then 1 else 32 / tyWidth mod

/-- A w-bit pattern as a number, signed or not. -/
def asInt (w : Nat) (signed : Bool) (x : Nat) : Int :=
  if signed && decide (2 ^ (w - 1) ≤ x) then (x : Int) - 2 ^ w else x

/-- Element e of x as the type reads it. -/
def tyVal (mod : BitVec 3) (x : W64) (e : Nat) : Int :=
  asInt (tyWidth mod) (tySigned mod) (x.toNat / 2 ^ (tyWidth mod * e) % 2 ^ tyWidth mod)

/-- Elements placed in order, each modulo its width. -/
def packInts (w : Nat) : List Int → Nat
  | [] => 0
  | x :: l => (x % 2 ^ w).toNat + 2 ^ w * packInts w l

/-- F applied element by element (R63). -/
def elemwise (mod : BitVec 3) (F : Int → Int → Int → Int) (a b c : W64) : W64 :=
  BitVec.ofNat 64 (packInts (tyWidth mod)
    ((List.range (tyCount mod)).map (fun e => F (tyVal mod a e) (tyVal mod b e) (tyVal mod c e))))

/-! ## Operand lists -/

/-- Two sources of the type, in trigger form: G on the values of A and B (R63). -/
def iuBin (lat : Nat) (f : F2) (G : BitVec 3 → W64 → W64 → W64) : Body :=
  let a := f.srcA 0 (tyWide f.mod) false
  let b := f.srcB 0 (tyWide f.mod) false
  laneOp 0 lat [a, b] f.d (tyWide f.mod) (fun e l => G f.mod (a.val e l) (b.val e l))

/-- The immediate form of the same (R29, R63). -/
def iuBinI (lat : Nat) (f : FI) (G : BitVec 3 → W64 → W64 → W64) : Body :=
  let a := f.srcA 0 (tyWide f.mod) false
  laneOp 0 lat [a] f.d (tyWide f.mod) (fun e l => G f.mod (a.val e l) (immIU f.mod f.imm))

/-- One source of the type. -/
def iuUn (lat : Nat) (f : F2) (G : BitVec 3 → W64 → W64) : Body :=
  let a := f.srcA 0 (tyWide f.mod) false
  laneOp 0 lat [a] f.d (tyWide f.mod) (fun e l => G f.mod (a.val e l))

/-- Three sources of the type. -/
def iuTri (lat : Nat) (f : F3) (G : BitVec 3 → W64 → W64 → W64 → W64) : Body :=
  let a := f.srcA 0 (tyWide f.mod) false
  let b := f.srcB 0 (tyWide f.mod) false
  let c := f.srcC 0 (tyWide f.mod) false
  laneOp 0 lat [a, b, c] f.d (tyWide f.mod) (fun e l => G f.mod (a.val e l) (b.val e l) (c.val e l))

/-! ## Arithmetic (R66 to R69) -/

/-- a + b (R66). -/
def fnAdd (mod : BitVec 3) (a b : W64) : W64 := elemwise mod (fun x y _ => x + y) a b 0
/-- a - b (R66). -/
def fnSub (mod : BitVec 3) (a b : W64) : W64 := elemwise mod (fun x y _ => x - y) a b 0
/-- a · b, low half (R66). -/
def fnMul (mod : BitVec 3) (a b : W64) : W64 := elemwise mod (fun x y _ => x * y) a b 0
/-- a · b, high half (R66). -/
def fnMulh (mod : BitVec 3) (a b : W64) : W64 := elemwise mod (fun x y _ => (x * y).fdiv (2 ^ tyWidth mod)) a b 0
/-- a · b + c (R66). -/
def fnMad (mod : BitVec 3) (a b c : W64) : W64 := elemwise mod (fun x y z => x * y + z) a b c
/-- Division truncated toward zero, all ones for a zero divisor (R69). -/
def fnDiv (mod : BitVec 3) (a b : W64) : W64 := elemwise mod (fun x y _ => if y = 0 then -1 else x.tdiv y) a b 0
/-- Remainder with the dividend's sign, the dividend for a zero divisor (R69). -/
def fnRem (mod : BitVec 3) (a b : W64) : W64 := elemwise mod (fun x y _ => if y = 0 then x else x.tmod y) a b 0
/-- Minimum (R66). -/
def fnMin (mod : BitVec 3) (a b : W64) : W64 := elemwise mod (fun x y _ => min x y) a b 0
/-- Maximum (R66). -/
def fnMax (mod : BitVec 3) (a b : W64) : W64 := elemwise mod (fun x y _ => max x y) a b 0
/-- Absolute value, wrapping at the minimum (R66). -/
def fnAbs (mod : BitVec 3) (a : W64) : W64 := elemwise mod (fun x _ _ => if x < 0 then -x else x) a 0 0
/-- Negation, wrapping at the minimum (R66). -/
def fnNeg (mod : BitVec 3) (a : W64) : W64 := elemwise mod (fun x _ _ => -x) a 0 0
/-- Clamp to a type's range (R67). -/
def tyClamp (mod : BitVec 3) (x : Int) : Int :=
  let w := tyWidth mod
  if tySigned mod then min (max x (-(2 ^ (w - 1)))) (2 ^ (w - 1) - 1) else min (max x 0) (2 ^ w - 1)
/-- Saturating add (R67). -/
def fnAdds (mod : BitVec 3) (a b : W64) : W64 := elemwise mod (fun x y _ => tyClamp mod (x + y)) a b 0
/-- min(max(a, b), c) (R66). -/
def fnClamp (mod : BitVec 3) (a b c : W64) : W64 := elemwise mod (fun x y z => min (max x y) z) a b c
/-- Sum of absolute differences added to C (R68). -/
def fnSad (mod : BitVec 3) (a b c : W64) : W64 :=
  let l := (List.range (tyCount mod)).map (fun e => ((tyVal mod a e - tyVal mod b e).natAbs))
  BitVec.ofNat 64 ((c.toNat + l.foldl (· + ·) 0) % 2 ^ 32)
/-- Four-byte dot product added to C (R68). -/
def fnDot4 (mod : BitVec 3) (a b c : W64) : W64 :=
  let l := (List.range 4).map (fun e => tyVal mod a e * tyVal mod b e)
  BitVec.ofNat 64 (((c.toNat : Int) + l.foldl (· + ·) 0) % 2 ^ 32).toNat

def bodyIadd (f : F2) : Body := iuBin 2 f fnAdd
def bodyIaddI (f : FI) : Body := iuBinI 2 f fnAdd
def bodyIsub (f : F2) : Body := iuBin 2 f fnSub
def bodyIsubI (f : FI) : Body := iuBinI 2 f fnSub
def bodyImul (f : F2) : Body := iuBin 4 f fnMul
def bodyImulI (f : FI) : Body := iuBinI 4 f fnMul
def bodyImulh (f : F2) : Body := iuBin (if tyWide f.mod then 20 else 4) f fnMulh
def bodyImulhI (f : FI) : Body := iuBinI (if tyWide f.mod then 20 else 4) f fnMulh
def bodyImad (f : F3) : Body := iuTri 4 f fnMad
def bodyIdiv (f : F2) : Body := iuBin 20 f fnDiv
def bodyIdivI (f : FI) : Body := iuBinI 20 f fnDiv
def bodyIrem (f : F2) : Body := iuBin 20 f fnRem
def bodyIremI (f : FI) : Body := iuBinI 20 f fnRem
def bodyImin (f : F2) : Body := iuBin 2 f fnMin
def bodyIminI (f : FI) : Body := iuBinI 2 f fnMin
def bodyImax (f : F2) : Body := iuBin 2 f fnMax
def bodyImaxI (f : FI) : Body := iuBinI 2 f fnMax
def bodyIabs (f : F2) : Body := iuUn 2 f fnAbs
def bodyIneg (f : F2) : Body := iuUn 2 f fnNeg
def bodyIadds (f : F2) : Body := iuBin 2 f fnAdds
def bodyIaddsI (f : FI) : Body := iuBinI 2 f fnAdds
def bodyClamp (f : F3) : Body := iuTri 2 f fnClamp

/-- A and B of the type, C and D single registers (R64, R68). -/
def bodyIsad (f : F3) : Body :=
  let a := f.srcA 0 (tyWide f.mod) false
  let b := f.srcB 0 (tyWide f.mod) false
  let c := f.srcC 0 false false
  laneOp 0 4 [a, b, c] f.d false (fun e l => fnSad f.mod (a.val e l) (b.val e l) (c.val e l))

def bodyIdot4 (f : F3) : Body :=
  let a := f.srcA 0 false false
  let b := f.srcB 0 false false
  let c := f.srcC 0 false false
  laneOp 0 4 [a, b, c] f.d false (fun e l => fnDot4 f.mod (a.val e l) (b.val e l) (c.val e l))

/-! ## Logic, shifts and bit fields (R70 to R76) -/

def bodyAnd (f : F2) : Body := iuBin 2 f (fun _ a b => a &&& b)
def bodyAndI (f : FI) : Body := iuBinI 2 f (fun _ a b => a &&& b)
def bodyOr (f : F2) : Body := iuBin 2 f (fun _ a b => a ||| b)
def bodyOrI (f : FI) : Body := iuBinI 2 f (fun _ a b => a ||| b)
def bodyXor (f : F2) : Body := iuBin 2 f (fun _ a b => a ^^^ b)
def bodyXorI (f : FI) : Body := iuBinI 2 f (fun _ a b => a ^^^ b)
def bodyAndn (f : F2) : Body := iuBin 2 f (fun _ a b => a &&& ~~~b)
def bodyAndnI (f : FI) : Body := iuBinI 2 f (fun _ a b => a &&& ~~~b)
def bodyNot (f : F2) : Body := iuUn 2 f (fun _ a => ~~~a)

/-- Scalar operand width. -/
def tyBits (mod : BitVec 3) : Nat := if tyWide mod then 64 else 32

/-- Shift left; 0 from the width on (R71). -/
def fnShl (mod : BitVec 3) (a b : W64) : W64 :=
  if tyWide mod then (if b.toNat < 64 then a <<< b.toNat else 0)
  else if b.toNat < 32 then ((a.setWidth 32 : W32) <<< b.toNat).setWidth 64 else 0
/-- Logical shift right (R71). -/
def fnShr (mod : BitVec 3) (a b : W64) : W64 :=
  if tyWide mod then a >>> b.toNat else ((a.setWidth 32 : W32) >>> b.toNat).setWidth 64
/-- Arithmetic shift right; copies of the top bit from the width on (R71). -/
def fnSar (mod : BitVec 3) (a b : W64) : W64 :=
  if tyWide mod then a.sshiftRight (min b.toNat 63)
  else ((a.setWidth 32 : W32).sshiftRight (min b.toNat 31)).setWidth 64
/-- Rotate left by the count modulo the width (R71). -/
def fnRotl (mod : BitVec 3) (a b : W64) : W64 :=
  if tyWide mod then a.rotateLeft (b.toNat % 64)
  else ((a.setWidth 32 : W32).rotateLeft (b.toNat % 32)).setWidth 64

def bodyShl (f : F2) : Body := iuBin 2 f fnShl
def bodyShlI (f : FI) : Body := iuBinI 2 f fnShl
def bodyShr (f : F2) : Body := iuBin 2 f fnShr
def bodyShrI (f : FI) : Body := iuBinI 2 f fnShr
def bodySar (f : F2) : Body := iuBin 2 f fnSar
def bodySarI (f : FI) : Body := iuBinI 2 f fnSar
def bodyRotl (f : F2) : Body := iuBin 2 f fnRotl
def bodyRotlI (f : FI) : Body := iuBinI 2 f fnRotl

/-- Funnel shift of C:A (R72). -/
def fnFunnel (a b c : W64) : W64 :=
  let j : W64 := (c.setWidth 32 : W32) ++ (a.setWidth 32 : W32)
  ((j >>> (b.toNat % 64)).setWidth 32 : W32).setWidth 64

def bodyFunnel (f : F3) : Body :=
  let a := f.srcA 0 false false
  let b := f.srcB 0 false false
  let c := f.srcC 0 false false
  laneOp 0 2 [a, b, c] f.d false (fun e l => fnFunnel (a.val e l) (b.val e l) (c.val e l))

/-- Bit-field extract (R73). -/
def fnBfx (mod : BitVec 3) (a b c : W64) : W64 :=
  let w := tyBits mod
  let p := min (b.toNat % 256) w
  let n := min (c.toNat % 256) (w - p)
  let x := a.toNat % 2 ^ w / 2 ^ p % 2 ^ n
  if n = 0 then 0 else BitVec.ofNat 64 (asInt n (tySigned mod) x % 2 ^ w).toNat
/-- Bit-field insert (R73). -/
def fnBfi (mod : BitVec 3) (a b c : W64) : W64 :=
  let w := tyBits mod
  let p := min (c.toNat % 256) w
  let n := min (c.toNat / 256 % 256) (w - p)
  let m : W64 := BitVec.ofNat 64 ((2 ^ n - 1) * 2 ^ p)
  (a &&& ~~~m) ||| ((b <<< p) &&& m)

def bodyBfx (f : F3) : Body := iuTri 2 f fnBfx
def bodyBfi (f : F3) : Body := iuTri 2 f fnBfi

/-- The bits of a scalar of width w, lowest first. -/
def bitsOf (w : Nat) (a : W64) : List Bool := (List.range w).map (fun i => a.getLsbD i)
/-- The number whose bits, lowest first, are given. -/
def ofBits : List Bool → Nat
  | [] => 0
  | b :: l => (if b then 1 else 0) + 2 * ofBits l

/-- Population count (R74). -/
def fnPopc (mod : BitVec 3) (a : W64) : W64 := BitVec.ofNat 64 ((bitsOf (tyBits mod) a).filter id).length
/-- Leading zeros (R74). -/
def fnClz (mod : BitVec 3) (a : W64) : W64 := BitVec.ofNat 64 ((bitsOf (tyBits mod) a).reverse.takeWhile (!·)).length
/-- Trailing zeros (R74). -/
def fnCtz (mod : BitVec 3) (a : W64) : W64 := BitVec.ofNat 64 ((bitsOf (tyBits mod) a).takeWhile (!·)).length
/-- Bit reversal (R74). -/
def fnBrev (mod : BitVec 3) (a : W64) : W64 := BitVec.ofNat 64 (ofBits (bitsOf (tyBits mod) a).reverse)

def bodyPopc (f : F2) : Body := iuUn 2 f fnPopc
def bodyClz (f : F2) : Body := iuUn 2 f fnClz
def bodyCtz (f : F2) : Body := iuUn 2 f fnCtz
def bodyBrev (f : F2) : Body := iuUn 2 f fnBrev

/-- Byte shuffle: selection, then sign extension, then zero mask (R75). -/
def fnBshuf (a b c : W64) : W64 :=
  let src := natBytes 4 a.toNat ++ natBytes 4 b.toNat
  let st := c.toNat % 8
  let sx := c.toNat / 256 % 4
  let t := (List.range 4).map (fun k =>
    src.getD (if c.getLsbD 3 then (st + 8 - k) % 8 else (st + k) % 8) 0)
  let fill : Byte := if (t.getD (sx - 1) 0).getLsbD 7 then 0xFF else 0
  let u := (List.range 4).map (fun k => if sx ≠ 0 ∧ sx ≤ k then fill else t.getD k 0)
  BitVec.ofNat 64 (bytesNat ((List.range 4).map (fun k => if c.getLsbD (4 + k) then 0 else u.getD k 0)))

def bodyBshuf (f : F3) : Body :=
  let a := f.srcA 0 false false
  let b := f.srcB 0 false false
  let c := f.srcC 0 false false
  laneOp 0 2 [a, b, c] f.d false (fun e l => fnBshuf (a.val e l) (b.val e l) (c.val e l))

/-- Address formation (R76). -/
def fnLea (sh : Nat) (a : W64) (b : W32) : W64 := a + (b.signExtend 64 <<< sh)

def bodyLea (f : F2) : Body :=
  let a := f.srcA 0 true false
  let b := f.srcB 0 false false
  laneOp 0 2 [a, b] f.d true (fun e l => fnLea f.mod.toNat (a.val e l) (b.val32 e l))

def bodyLeaI (f : FI) : Body :=
  let a := f.srcA 0 true false
  laneOp 0 2 [a] f.d true (fun e l => fnLea f.mod.toNat (a.val e l) (f.imm.signExtend 32))

/-! ## Compare, select and predicate logic (R77 to R79) -/

/-- A condition that must hold in every element (R77). -/
def fnCmp (cond : Nat) (mod : BitVec 3) (a b : W64) : Bool :=
  (List.range (tyCount mod)).all (fun e => intCond cond (tyVal mod a e) (tyVal mod b e))

def bodyIcmp (f : F2) : Body :=
  let a := f.srcA 0 (tyWide f.mod) false
  let b := f.srcB 0 (tyWide f.mod) false
  predOp 0 2 [a, b] f.d (fun e l => fnCmp f.rnd.toNat f.mod (a.val e l) (b.val e l))

def bodyIcmpI (f : FI) : Body :=
  let a := f.srcA 0 (tyWide f.mod) false
  predOp 0 2 [a] f.d (fun e l => fnCmp (f.d.extractLsb' 4 3).toNat f.mod (a.val e l) (immIU f.mod f.imm))

def bodyIsel (f : F3) : Body :=
  let a := f.srcA 0 (tyWide f.mod) false
  let b := f.srcB 0 (tyWide f.mod) false
  laneOp 0 2 [a, b] f.d (tyWide f.mod) (fun e l => if (e.pred f.c).getLsbD l then a.val e l else b.val e l)

/-- Truth table lookup (R79). -/
def fnPlop (table : BitVec 12) (qa qb qd : Bool) : Bool :=
  table.getLsbD ((if qa then 4 else 0) + (if qb then 2 else 0) + (if qd then 1 else 0))

def bodyPlop (f : F2) : Body :=
  predOp 0 2 [] f.d (fun e l =>
    fnPlop f.amod ((e.pred f.a).getLsbD l) ((e.pred f.b).getLsbD l) ((e.pred f.d).getLsbD l))

/-! ## Constants and conversion (R80, R81) -/

/-- The low half of A under the low half of b (R80). -/
def fnMovh (a b : W64) : W64 := ((b.setWidth 16 : BitVec 16) ++ (a.setWidth 16 : BitVec 16) : W32).setWidth 64

def bodyMovh (f : F2) : Body := iuBin 2 f (fun _ a b => fnMovh a b)
def bodyMovhI (f : FI) : Body := iuBinI 2 f (fun _ a b => fnMovh a b)
def bodyMovi (f : FI) : Body := laneOp 0 2 [] f.d false (fun _ _ => (f.imm.signExtend 32 : W32).setWidth 64)

/-- Conversion with clamping, per element (R81). -/
def fnCvti (dst src : BitVec 3) (a : W64) : W64 :=
  BitVec.ofNat 64 (packInts (tyWidth dst)
    ((List.range (tyCount dst)).map (fun e => tyClamp dst (tyVal src a e))))

def bodyCvti (f : F2) : Body :=
  let st : BitVec 3 := f.b.extractLsb' 0 3
  let a := f.srcA 0 (tyWide st) false
  laneOp 0 2 [a] f.d (tyWide f.mod) (fun e l => fnCvti f.mod st (a.val e l))

/-! ## Cross-lane operations (R82 to R86) -/

/-- A cross-lane operation may not stand in a lane slot (R82). -/
def Env.notLane (e : Env) : Except Stop Unit := e.enc (!e.inLane)

/-- VOTE over the active lanes (R83). -/
def fnVote (mod : Nat) (act p : W32) (base : Nat) : W64 :=
  let q := act &&& p
  match mod with
  | 0 => if q = act then 1 else 0
  | 1 => if q ≠ 0 then 1 else 0
  | _ => (q >>> base).setWidth 64

def bodyVote (f : F2) : Body := fun e s => do
  e.notLane
  uniformOp 0 4 [] f.d false (fun e => fnVote f.mod.toNat e.act (e.pred f.a) e.base) e s

/-- The value of A in lane k of the lane space, whether or not it is active (R41, R84). -/
def laneOf (e : Env) (a : Opnd) (k : Nat) : W64 := a.val e (e.base + k % e.size)

/-- RDLANE: A is a v register or pair (R84). What B holds is read in the lowest active lane, also where it is a constant that
differs by lane or a port (assumption 107). -/
def bodyRdlane (f : F2) : Body := fun e s => do
  let wide := tyWide f.mod
  let a := f.srcA 0 wide false
  let b := f.srcB 0 false false
  e.notLane
  e.field (decide (f.a.toNat < 384))
  uniformOp 0 4 [a, b] f.d wide (fun e => laneOf e a (b.val32 e ((lowest e.act).getD e.base)).toNat) e s

/-- RDLANE with a lane index in IMM24: out of range it is a field that is illegal for the issuer (R56, R84; assumption 108). -/
def bodyRdlaneI (f : FI) : Body := fun e s => do
  let wide := tyWide f.mod
  let a := f.srcA 0 wide false
  e.notLane
  e.field (decide (f.a.toNat < 384) && decide (f.imm.toNat < e.size))
  uniformOp 0 4 [a] f.d wide (fun e => laneOf e a f.imm.toNat) e s

/-- The nearest lower active lane, i included, whose A is non-zero (R85). -/
def fnFind1 (act : W32) (base : Nat) (nz : Nat → Bool) (i : Nat) : W32 :=
  match ((lanesOf act).filter (fun j => j ≤ i && nz j)).getLast? with
  | some j => BitVec.ofNat 32 (j - base)
  | none => 0xFFFFFFFF

/-- FIND1: A is a v register or pair (R64, R85). -/
def bodyFind1 (f : F2) : Body := fun e s => do
  let a := f.srcA 0 (tyWide f.mod) false
  e.notLane
  e.field (decide (f.a.toNat < 384))
  laneOp 0 4 [a] f.d false (fun e l => (fnFind1 e.act e.base (fun j => a.val e j != 0) l).setWidth 64) e s

/-- The identity of a reduction (R86). -/
def redIdentity (mod : BitVec 3) (op : Nat) : Int :=
  let w := tyBits mod
  match op with
  | 1 => if tySigned mod then 2 ^ (w - 1) - 1 else 2 ^ w - 1
  | 2 => if tySigned mod then -(2 ^ (w - 1)) else 0
  | 3 => -1
  | _ => 0

/-- One combination of a reduction, on numbers read by the type (R86). -/
def redStep (mod : BitVec 3) (op : Nat) (x y : Int) : Int :=
  let w := tyBits mod
  let z (n : Int) : W64 := BitVec.ofInt 64 n
  match op with
  | 0 => x + y
  | 1 => min x y
  | 2 => max x y
  | 3 => asInt w (tySigned mod) ((z x &&& z y).toNat % 2 ^ w)
  | 4 => asInt w (tySigned mod) ((z x ||| z y).toNat % 2 ^ w)
  | _ => asInt w (tySigned mod) ((z x ^^^ z y).toNat % 2 ^ w)

def bodyIredw (f : F2) : Body := fun e s => do
  let a := f.srcA 0 (tyWide f.mod) false
  e.notLane
  uniformOp 0 8 [a] f.d (tyWide f.mod) (fun e =>
    BitVec.ofInt 64 ((lanesOf e.act).foldl (fun acc l => redStep f.mod f.b.toNat acc (tyVal f.mod (a.val e l) 0))
      (redIdentity f.mod f.b.toNat))) e s

/-! ## Moves (R30) -/

/-- The move fields fit the issuer: a warp's move has neither a lane source nor a port; a lane slot's has no modifier, and
names a lane only as a source; a vector slot's reads its own lanes (R30, R31). -/
def Env.moveForm (e : Env) (f : MV) : Bool :=
  if !e.strand then !f.xc && f.scl == 0 && f.sln == 0 && f.dport == 0
  else if e.inLane then f.amod == 0 && (f.xc || (f.scl == 0 && f.sln == 0))
  else !f.xc && f.scl == 0 && f.sln == 0

/-- The lane that a move reads for lane l (R30). -/
def moveLane (f : MV) (l : Nat) : Nat := if f.xc then 8 * ((l / 8 + f.scl.toNat) % 4) + f.sln.toNat else l

/-- Source A of a move. -/
def moveSrc (f : MV) : Opnd := ⟨9, 0, f.amod, f.a, false, false⟩

/-- Cycles of a move: two when it comes from another cluster (R30). -/
def moveLat (f : MV) : Nat := if f.scl == 0 then 1 else 2

/-- A lane source still waits for an interlocked result (R151). -/
def Env.moveWaits (e : Env) (f : MV) : Bool :=
  f.xc && (lanesOf e.act).any (fun l =>
    e.reaches (moveLane f l) && ((moveSrc f).vregs e).any (fun r => (pendingV e.inFlight r (moveLane f l)).isSome))

/-- The word that a move copies to lane l: of its own lane or of another (R30); a register of a cluster that the strand does
not own cannot be reached, and what reads in its place is free (R147; assumption 105). -/
def Env.moveVal (e : Env) (f : MV) (l : Nat) : W64 :=
  if f.xc && decide (f.a.toNat < 384) && !e.reaches (moveLane f l) then
    (Config.heldWord (e.nonce + 32 * f.a.toNat + moveLane f l)).setWidth 64
  else (moveSrc f).val e (moveLane f l)

/-- A warp's move copies A with its modifier; a lane slot's may read another lane; a vector slot's reads
each lane with the modifier; a move to a port latches the value (R30, R31). -/
def bodyMov (f : MV) : Body := fun e s => do
  e.enc (e.moveForm f)
  if e.moveWaits f then .error (.wait .interlock id)
  if f.dport == 0 then laneOp 9 (moveLat f) [moveSrc f] f.d false (fun e l => e.moveVal f l) e s
  else do
    e.sources [moveSrc f]
    e.landed [moveSrc f]
    .ok (e.put 9 (moveLat f) false .port [f.dport.toNat] e.act (laneVals e.act (fun l => [(e.moveVal f l).setWidth 32])) s)

/-! ## Meanings of the constructors -/

/-- The meaning of mov (R30). -/
def execMov (f : MV) (s : State) : Host.Outcome State Fault Refusal :=
  issue (costOf (.mov f)) f.g (bodyMov f) s

/-- The meaning of iadd (R66). -/
def execIadd (f : F2) (s : State) : Host.Outcome State Fault Refusal :=
  issue (costOf (.iadd f)) f.g (bodyIadd f) s

/-- The meaning of iaddI (R66). -/
def execIaddI (f : FI) (s : State) : Host.Outcome State Fault Refusal :=
  issue (costOf (.iaddI f)) f.g (bodyIaddI f) s

/-- The meaning of isub (R66). -/
def execIsub (f : F2) (s : State) : Host.Outcome State Fault Refusal :=
  issue (costOf (.isub f)) f.g (bodyIsub f) s

/-- The meaning of isubI (R66). -/
def execIsubI (f : FI) (s : State) : Host.Outcome State Fault Refusal :=
  issue (costOf (.isubI f)) f.g (bodyIsubI f) s

/-- The meaning of imul (R66). -/
def execImul (f : F2) (s : State) : Host.Outcome State Fault Refusal :=
  issue (costOf (.imul f)) f.g (bodyImul f) s

/-- The meaning of imulI (R66). -/
def execImulI (f : FI) (s : State) : Host.Outcome State Fault Refusal :=
  issue (costOf (.imulI f)) f.g (bodyImulI f) s

/-- The meaning of imulh (R66). -/
def execImulh (f : F2) (s : State) : Host.Outcome State Fault Refusal :=
  issue (costOf (.imulh f)) f.g (bodyImulh f) s

/-- The meaning of imulhI (R66). -/
def execImulhI (f : FI) (s : State) : Host.Outcome State Fault Refusal :=
  issue (costOf (.imulhI f)) f.g (bodyImulhI f) s

/-- The meaning of imad (R66). -/
def execImad (f : F3) (s : State) : Host.Outcome State Fault Refusal :=
  issue (costOf (.imad f)) f.g (bodyImad f) s

/-- The meaning of idiv (R69). -/
def execIdiv (f : F2) (s : State) : Host.Outcome State Fault Refusal :=
  issue (costOf (.idiv f)) f.g (bodyIdiv f) s

/-- The meaning of idivI (R69). -/
def execIdivI (f : FI) (s : State) : Host.Outcome State Fault Refusal :=
  issue (costOf (.idivI f)) f.g (bodyIdivI f) s

/-- The meaning of irem (R69). -/
def execIrem (f : F2) (s : State) : Host.Outcome State Fault Refusal :=
  issue (costOf (.irem f)) f.g (bodyIrem f) s

/-- The meaning of iremI (R69). -/
def execIremI (f : FI) (s : State) : Host.Outcome State Fault Refusal :=
  issue (costOf (.iremI f)) f.g (bodyIremI f) s

/-- The meaning of imin (R66). -/
def execImin (f : F2) (s : State) : Host.Outcome State Fault Refusal :=
  issue (costOf (.imin f)) f.g (bodyImin f) s

/-- The meaning of iminI (R66). -/
def execIminI (f : FI) (s : State) : Host.Outcome State Fault Refusal :=
  issue (costOf (.iminI f)) f.g (bodyIminI f) s

/-- The meaning of imax (R66). -/
def execImax (f : F2) (s : State) : Host.Outcome State Fault Refusal :=
  issue (costOf (.imax f)) f.g (bodyImax f) s

/-- The meaning of imaxI (R66). -/
def execImaxI (f : FI) (s : State) : Host.Outcome State Fault Refusal :=
  issue (costOf (.imaxI f)) f.g (bodyImaxI f) s

/-- The meaning of iabs (R66). -/
def execIabs (f : F2) (s : State) : Host.Outcome State Fault Refusal :=
  issue (costOf (.iabs f)) f.g (bodyIabs f) s

/-- The meaning of ineg (R66). -/
def execIneg (f : F2) (s : State) : Host.Outcome State Fault Refusal :=
  issue (costOf (.ineg f)) f.g (bodyIneg f) s

/-- The meaning of iadds (R67). -/
def execIadds (f : F2) (s : State) : Host.Outcome State Fault Refusal :=
  issue (costOf (.iadds f)) f.g (bodyIadds f) s

/-- The meaning of iaddsI (R67). -/
def execIaddsI (f : FI) (s : State) : Host.Outcome State Fault Refusal :=
  issue (costOf (.iaddsI f)) f.g (bodyIaddsI f) s

/-- The meaning of isad (R68). -/
def execIsad (f : F3) (s : State) : Host.Outcome State Fault Refusal :=
  issue (costOf (.isad f)) f.g (bodyIsad f) s

/-- The meaning of idot4 (R68). -/
def execIdot4 (f : F3) (s : State) : Host.Outcome State Fault Refusal :=
  issue (costOf (.idot4 f)) f.g (bodyIdot4 f) s

/-- The meaning of and (R70). -/
def execAnd (f : F2) (s : State) : Host.Outcome State Fault Refusal :=
  issue (costOf (.and f)) f.g (bodyAnd f) s

/-- The meaning of andI (R70). -/
def execAndI (f : FI) (s : State) : Host.Outcome State Fault Refusal :=
  issue (costOf (.andI f)) f.g (bodyAndI f) s

/-- The meaning of or (R70). -/
def execOr (f : F2) (s : State) : Host.Outcome State Fault Refusal :=
  issue (costOf (.or f)) f.g (bodyOr f) s

/-- The meaning of orI (R70). -/
def execOrI (f : FI) (s : State) : Host.Outcome State Fault Refusal :=
  issue (costOf (.orI f)) f.g (bodyOrI f) s

/-- The meaning of xor (R70). -/
def execXor (f : F2) (s : State) : Host.Outcome State Fault Refusal :=
  issue (costOf (.xor f)) f.g (bodyXor f) s

/-- The meaning of xorI (R70). -/
def execXorI (f : FI) (s : State) : Host.Outcome State Fault Refusal :=
  issue (costOf (.xorI f)) f.g (bodyXorI f) s

/-- The meaning of andn (R70). -/
def execAndn (f : F2) (s : State) : Host.Outcome State Fault Refusal :=
  issue (costOf (.andn f)) f.g (bodyAndn f) s

/-- The meaning of andnI (R70). -/
def execAndnI (f : FI) (s : State) : Host.Outcome State Fault Refusal :=
  issue (costOf (.andnI f)) f.g (bodyAndnI f) s

/-- The meaning of not (R70). -/
def execNot (f : F2) (s : State) : Host.Outcome State Fault Refusal :=
  issue (costOf (.not f)) f.g (bodyNot f) s

/-- The meaning of shl (R71). -/
def execShl (f : F2) (s : State) : Host.Outcome State Fault Refusal :=
  issue (costOf (.shl f)) f.g (bodyShl f) s

/-- The meaning of shlI (R71). -/
def execShlI (f : FI) (s : State) : Host.Outcome State Fault Refusal :=
  issue (costOf (.shlI f)) f.g (bodyShlI f) s

/-- The meaning of shr (R71). -/
def execShr (f : F2) (s : State) : Host.Outcome State Fault Refusal :=
  issue (costOf (.shr f)) f.g (bodyShr f) s

/-- The meaning of shrI (R71). -/
def execShrI (f : FI) (s : State) : Host.Outcome State Fault Refusal :=
  issue (costOf (.shrI f)) f.g (bodyShrI f) s

/-- The meaning of sar (R71). -/
def execSar (f : F2) (s : State) : Host.Outcome State Fault Refusal :=
  issue (costOf (.sar f)) f.g (bodySar f) s

/-- The meaning of sarI (R71). -/
def execSarI (f : FI) (s : State) : Host.Outcome State Fault Refusal :=
  issue (costOf (.sarI f)) f.g (bodySarI f) s

/-- The meaning of rotl (R71). -/
def execRotl (f : F2) (s : State) : Host.Outcome State Fault Refusal :=
  issue (costOf (.rotl f)) f.g (bodyRotl f) s

/-- The meaning of rotlI (R71). -/
def execRotlI (f : FI) (s : State) : Host.Outcome State Fault Refusal :=
  issue (costOf (.rotlI f)) f.g (bodyRotlI f) s

/-- The meaning of funnel (R72). -/
def execFunnel (f : F3) (s : State) : Host.Outcome State Fault Refusal :=
  issue (costOf (.funnel f)) f.g (bodyFunnel f) s

/-- The meaning of bfx (R73). -/
def execBfx (f : F3) (s : State) : Host.Outcome State Fault Refusal :=
  issue (costOf (.bfx f)) f.g (bodyBfx f) s

/-- The meaning of bfi (R73). -/
def execBfi (f : F3) (s : State) : Host.Outcome State Fault Refusal :=
  issue (costOf (.bfi f)) f.g (bodyBfi f) s

/-- The meaning of popc (R74). -/
def execPopc (f : F2) (s : State) : Host.Outcome State Fault Refusal :=
  issue (costOf (.popc f)) f.g (bodyPopc f) s

/-- The meaning of clz (R74). -/
def execClz (f : F2) (s : State) : Host.Outcome State Fault Refusal :=
  issue (costOf (.clz f)) f.g (bodyClz f) s

/-- The meaning of ctz (R74). -/
def execCtz (f : F2) (s : State) : Host.Outcome State Fault Refusal :=
  issue (costOf (.ctz f)) f.g (bodyCtz f) s

/-- The meaning of brev (R74). -/
def execBrev (f : F2) (s : State) : Host.Outcome State Fault Refusal :=
  issue (costOf (.brev f)) f.g (bodyBrev f) s

/-- The meaning of bshuf (R75). -/
def execBshuf (f : F3) (s : State) : Host.Outcome State Fault Refusal :=
  issue (costOf (.bshuf f)) f.g (bodyBshuf f) s

/-- The meaning of lea (R76). -/
def execLea (f : F2) (s : State) : Host.Outcome State Fault Refusal :=
  issue (costOf (.lea f)) f.g (bodyLea f) s

/-- The meaning of leaI (R76). -/
def execLeaI (f : FI) (s : State) : Host.Outcome State Fault Refusal :=
  issue (costOf (.leaI f)) f.g (bodyLeaI f) s

/-- The meaning of icmp (R77). -/
def execIcmp (f : F2) (s : State) : Host.Outcome State Fault Refusal :=
  issue (costOf (.icmp f)) f.g (bodyIcmp f) s

/-- The meaning of icmpI (R77). -/
def execIcmpI (f : FI) (s : State) : Host.Outcome State Fault Refusal :=
  issue (costOf (.icmpI f)) f.g (bodyIcmpI f) s

/-- The meaning of isel (R78). -/
def execIsel (f : F3) (s : State) : Host.Outcome State Fault Refusal :=
  issue (costOf (.isel f)) f.g (bodyIsel f) s

/-- The meaning of plop (R79). -/
def execPlop (f : F2) (s : State) : Host.Outcome State Fault Refusal :=
  issue (costOf (.plop f)) f.g (bodyPlop f) s

/-- The meaning of movh (R80). -/
def execMovh (f : F2) (s : State) : Host.Outcome State Fault Refusal :=
  issue (costOf (.movh f)) f.g (bodyMovh f) s

/-- The meaning of movhI (R80). -/
def execMovhI (f : FI) (s : State) : Host.Outcome State Fault Refusal :=
  issue (costOf (.movhI f)) f.g (bodyMovhI f) s

/-- The meaning of movi (R80). -/
def execMovi (f : FI) (s : State) : Host.Outcome State Fault Refusal :=
  issue (costOf (.movi f)) f.g (bodyMovi f) s

/-- The meaning of vote (R83). -/
def execVote (f : F2) (s : State) : Host.Outcome State Fault Refusal :=
  issue (costOf (.vote f)) f.g (bodyVote f) s

/-- The meaning of rdlane (R84). -/
def execRdlane (f : F2) (s : State) : Host.Outcome State Fault Refusal :=
  issue (costOf (.rdlane f)) f.g (bodyRdlane f) s

/-- The meaning of rdlaneI (R84). -/
def execRdlaneI (f : FI) (s : State) : Host.Outcome State Fault Refusal :=
  issue (costOf (.rdlaneI f)) f.g (bodyRdlaneI f) s

/-- The meaning of find1 (R85). -/
def execFind1 (f : F2) (s : State) : Host.Outcome State Fault Refusal :=
  issue (costOf (.find1 f)) f.g (bodyFind1 f) s

/-- The meaning of cvti (R81). -/
def execCvti (f : F2) (s : State) : Host.Outcome State Fault Refusal :=
  issue (costOf (.cvti f)) f.g (bodyCvti f) s

/-- The meaning of iredw (R86). -/
def execIredw (f : F2) (s : State) : Host.Outcome State Fault Refusal :=
  issue (costOf (.iredw f)) f.g (bodyIredw f) s

/-- The meaning of clamp (R66). -/
def execClamp (f : F3) (s : State) : Host.Outcome State Fault Refusal :=
  issue (costOf (.clamp f)) f.g (bodyClamp f) s

end Sys2Proof.Machine
end

