-- ==== Sys2Proof/Machine/Sf.lean ====
section
/-! DEFINITION. The special-function unit (R112, R113): what every UNIT 2 instruction does. Roots and
quotients are exact integer computations with a remainder. The transcendental functions are evaluated in
fixed point with 320 fractional bits; the result is known to lie strictly between two neighbouring values
of that grid, and is rounded from there (assumption 10). -/

namespace Sys2Proof.Machine

/-! ## Quotients and roots -/

/-- num / den · 2^e as a number with at least 80 significant bits. -/
def quot (neg : Bool) (num den : Nat) (e : Int) : Res :=
  let k := Nat.log2 den + 80
  let n := num * 2 ^ k
  .num neg (n / den) (e - k) (n % den != 0) 0

/-- √(m · 2^e) with at least 80 significant bits. -/
def root (m : Nat) (e : Int) : Res :=
  let m' := if e % 2 = 0 then m else 2 * m
  let e' := if e % 2 = 0 then e else e - 1
  let n := m' * 2 ^ 160
  let r := isqrt n
  .num false r (e' / 2 - 80) (r * r != n) 0

/-- 1 / √(m · 2^e) with at least 80 significant bits. -/
def invRoot (m : Nat) (e : Int) : Res :=
  let m' := if e % 2 = 0 then m else 2 * m
  let e' := if e % 2 = 0 then e else e - 1
  let k := Nat.log2 m' + 100
  let n := 2 ^ (2 * k) / m'
  let r := isqrt n
  .num false r (-(e' / 2) - k) (r * r * m' != 2 ^ (2 * k)) 0

/-! ## Fixed point with 320 fractional bits -/

/-- 1.0. -/
def fixOne : Nat := 2 ^ 320
/-- π. -/
def fixPi : Nat := 0x3243f6a8885a308d313198a2e03707344a4093822299f31d0082efa98ec4e6c89452821e638d01377
/-- ln 2. -/
def fixLn2 : Nat := 0xb17217f7d1cf79abc9e3b39803f2f6af40f343267298b62d8a0d175b8baafa2be7b876206debac98
/-- The product of two fixed-point numbers. -/
def fixMul (a b : Nat) : Nat := a * b / fixOne
/-- m · 2^e in fixed point, truncated. -/
def toFix (m : Nat) (e : Int) : Nat := if e + 320 < 0 then m / 2 ^ (-(e + 320)).toNat else m * 2 ^ (e + 320).toNat

/-- Σ y^k / k! from k on, with the term y^(k-1)/(k-1)! given. -/
def expSeries (y : Nat) : Nat → Nat → Nat → Nat
  | 0, _, t => t
  | n + 1, k, t => t + expSeries y n (k + 1) (fixMul t y / k)

/-- e^y for 0 ≤ y < 1. -/
def fixExp (y : Nat) : Nat := expSeries y 90 1 fixOne

/-- e^(-y) for 0 ≤ y. -/
def fixExpNeg (y : Nat) : Nat :=
  let k := y / fixLn2 + 1
  fixExp (k * fixLn2 - y) / 2 ^ k

/-- Σ of z^(2k+1) / (2k+1), with the power given. -/
def atanhSeries (z2 : Nat) : Nat → Nat → Nat → Nat
  | 0, _, _ => 0
  | n + 1, k, t => t / k + atanhSeries z2 n (k + 2) (fixMul t z2)

/-- ln c for 1 ≤ c < 2, from 2 atanh((c - 1) / (c + 1)). -/
def fixLn (c : Nat) : Nat :=
  let z := (c - fixOne) * fixOne / (c + fixOne)
  2 * atanhSeries (fixMul z z) 110 1 z

/-- The alternating series of sine in y, with the term given: pairs of terms. -/
def sinSeries (y2 : Nat) : Nat → Nat → Nat → Nat
  | 0, _, _ => 0
  | n + 1, k, t =>
    let u := fixMul t y2 / (k * (k + 1))
    t - u + sinSeries y2 n (k + 4) (fixMul u y2 / ((k + 2) * (k + 3)))

/-- sin(π r) for 0 ≤ r ≤ 1/2. -/
def fixSinPi (r : Nat) : Nat :=
  let y := fixMul r fixPi
  sinSeries (fixMul y y) 50 2 y

/-- A positive fixed-point result that is not exact. -/
def inexact (neg : Bool) (v : Nat) : Res := .num neg v (-320) true 0

/-! ## The functions (R113) -/

/-- 1/x. -/
def fnRcp (f : Fmt) (x : FV) : Res :=
  match x with
  | .nan _ => nanRes f [x]
  | .inf n => .bits (f.signBit n) 0
  | .fin n m e => if m = 0 then .bits (f.infBits n) flDZ else quot n 1 m (-e)

/-- 1/√x. -/
def fnRsq (f : Fmt) (x : FV) : Res :=
  match x with
  | .nan _ => nanRes f [x]
  | .inf n => if n then .bits f.nanBits flIV else .bits (f.signBit false) 0
  | .fin n m e => if m = 0 then .bits (f.infBits n) flDZ else if n then .bits f.nanBits flIV else invRoot m e

/-- √x. -/
def fnSqrt (f : Fmt) (x : FV) : Res :=
  match x with
  | .nan _ => nanRes f [x]
  | .inf n => if n then .bits f.nanBits flIV else .bits (f.infBits false) 0
  | .fin n m e => if m = 0 then .bits (f.signBit n) 0 else if n then .bits f.nanBits flIV else root m e

/-- a/b. -/
def fnFdiv (f : Fmt) (a b : FV) : Res :=
  match a, b with
  | .fin n1 m1 e1, .fin n2 m2 e2 =>
    if m2 = 0 then (if m1 = 0 then .bits f.nanBits flIV else .bits (f.infBits (n1 != n2)) flDZ)
    else if m1 = 0 then .num (n1 != n2) 0 0 false 0
    else quot (n1 != n2) m1 m2 (e1 - e2)
  | .inf _, .inf _ => .bits f.nanBits flIV
  | .inf n1, .fin n2 _ _ => .bits (f.infBits (n1 != n2)) 0
  | .fin n1 _ _, .inf n2 => .bits (f.signBit (n1 != n2)) 0
  | _, _ => nanRes f [a, b]

/-- 2^x. -/
def fnEx2 (f : Fmt) (x : FV) : Res :=
  match x with
  | .nan _ => nanRes f [x]
  | .inf n => if n then .bits (f.signBit false) 0 else .bits (f.infBits false) 0
  | .fin n m e =>
    if magLt 1 10 m e then .num false 1 (if n then -1100 else 1100) true 0
    else
      let v : Int := numOf n (toFix m e)
      let k := v.fdiv fixOne
      let r := (v - k * fixOne).toNat
      if r = 0 then .num false 1 k false 0
      else .num false (fixExp (fixMul r fixLn2)) (k - 320) true 0

/-- log2 x. -/
def fnLg2 (f : Fmt) (x : FV) : Res :=
  match x with
  | .nan _ => nanRes f [x]
  | .inf n => if n then .bits f.nanBits flIV else .bits (f.infBits false) 0
  | .fin n m e =>
    if m = 0 then .bits (f.infBits true) flDZ
    else if n then .bits f.nanBits flIV
    else
      let k := Nat.log2 m
      let ex : Int := e + k
      if m = 2 ^ k then .num (decide (ex < 0)) ex.natAbs 0 false 0
      else
        let c := m * 2 ^ (320 - k)
        let v : Int := ex * fixOne + ((fixLn c * fixOne / fixLn2 : Nat) : Int)
        inexact (decide (v < 0)) v.natAbs

/-- The fraction of |x| modulo 2 in fixed point. -/
def mod2 (m : Nat) (e : Int) : Nat := toFix m e % (2 * fixOne)

/-- sin(πx). -/
def fnSinpi (f : Fmt) (x : FV) : Res :=
  match x with
  | .nan _ => nanRes f [x]
  | .inf _ => .bits f.nanBits flIV
  | .fin n m e =>
    let r := mod2 m e
    if m = 0 ∨ r % fixOne = 0 then .bits (f.signBit n) 0
    else
      let neg := n != decide (fixOne < r)
      let h := r % fixOne
      let h := if 2 * h ≤ fixOne then h else fixOne - h
      if 2 * h = fixOne then .num neg 1 0 false 0 else inexact neg (fixSinPi h)

/-- cos(πx). -/
def fnCospi (f : Fmt) (x : FV) : Res :=
  match x with
  | .nan _ => nanRes f [x]
  | .inf _ => .bits f.nanBits flIV
  | .fin _ m e =>
    let r := mod2 m e
    let r := if r ≤ fixOne then r else 2 * fixOne - r
    if r = 0 then .num false 1 0 false 0
    else if r = fixOne then .num true 1 0 false 0
    else if 2 * r = fixOne then .bits (f.signBit false) 0
    else if 2 * r < fixOne then inexact false (fixSinPi (fixOne / 2 - r))
    else inexact true (fixSinPi (r - fixOne / 2))

/-- tanh x. -/
def fnTanh (f : Fmt) (x : FV) : Res :=
  match x with
  | .nan _ => nanRes f [x]
  | .inf n => .num n 1 0 false 0
  | .fin n m e =>
    if m = 0 then .bits (f.signBit n) 0
    else if magLt 1 6 m e then inexact n (fixOne - 1)
    else
      let t := fixExpNeg (2 * toFix m e)
      inexact n ((fixOne - t) * fixOne / (fixOne + t))

/-- 1 / (1 + e^(-x)). -/
def fnSigm (f : Fmt) (x : FV) : Res :=
  match x with
  | .nan _ => nanRes f [x]
  | .inf n => if n then .bits (f.signBit false) 0 else .num false 1 0 false 0
  | .fin n m e =>
    if m = 0 then .num false 1 (-1) false 0
    else if magLt 1 7 m e then (if n then .num false 1 (-1100) true 0 else inexact false (fixOne - 1))
    else
      let t := fixExpNeg (toFix m e)
      if n then inexact false (t * fixOne / (fixOne + t)) else inexact false (fixOne * fixOne / (fixOne + t))

/-! ## The instructions -/

/-- One source: the function of each flushed element, rounded by RND (SQRT) or to nearest even. -/
def sfOp (lat : Nat) (f : F2) (rnd : BitVec 3) (g : Fmt → FV → Res) : Body :=
  let t := fmtOf f.mod.toNat
  let a := fpOpnd 0 2 f.amod f.a t
  elemsOp 2 lat t [a] f.d rnd f.nf (fun e l _ i => g t (t.read (flushedElem e t (a.val e l) i)))

def bodyRcp (f : F2) : Body := sfOp 12 f 1 fnRcp
def bodyRsq (f : F2) : Body := sfOp 12 f 1 fnRsq
def bodySqrt (f : F2) : Body := sfOp 12 f f.rnd fnSqrt
def bodyEx2 (f : F2) : Body := sfOp 12 f 1 fnEx2
def bodyLg2 (f : F2) : Body := sfOp 12 f 1 fnLg2
def bodySinpi (f : F2) : Body := sfOp 16 f 1 fnSinpi
def bodyCospi (f : F2) : Body := sfOp 16 f 1 fnCospi
def bodyTanh (f : F2) : Body := sfOp 16 f 1 fnTanh
def bodySigm (f : F2) : Body := sfOp 16 f 1 fnSigm

def bodyFdiv (f : F2) : Body :=
  let t := fmtOf f.mod.toNat
  let a := fpOpnd 0 2 f.amod f.a t
  let b := fpOpnd 1 2 0 f.b t
  elemsOp 2 24 t [a, b] f.d f.rnd f.nf (fun e l _ i =>
    fnFdiv t (t.read (flushedElem e t (a.val e l) i)) (t.read (flushedElem e t (b.val e l) i)))

/-! ## Meanings of the constructors -/

/-- The meaning of rcp (R113). -/
def execRcp (f : F2) (s : State) : Host.Outcome State Fault Refusal :=
  issue (costOf (.rcp f)) f.g (bodyRcp f) s

/-- The meaning of rsq (R113). -/
def execRsq (f : F2) (s : State) : Host.Outcome State Fault Refusal :=
  issue (costOf (.rsq f)) f.g (bodyRsq f) s

/-- The meaning of sqrt (R113). -/
def execSqrt (f : F2) (s : State) : Host.Outcome State Fault Refusal :=
  issue (costOf (.sqrt f)) f.g (bodySqrt f) s

/-- The meaning of ex2 (R113). -/
def execEx2 (f : F2) (s : State) : Host.Outcome State Fault Refusal :=
  issue (costOf (.ex2 f)) f.g (bodyEx2 f) s

/-- The meaning of lg2 (R113). -/
def execLg2 (f : F2) (s : State) : Host.Outcome State Fault Refusal :=
  issue (costOf (.lg2 f)) f.g (bodyLg2 f) s

/-- The meaning of sinpi (R113). -/
def execSinpi (f : F2) (s : State) : Host.Outcome State Fault Refusal :=
  issue (costOf (.sinpi f)) f.g (bodySinpi f) s

/-- The meaning of cospi (R113). -/
def execCospi (f : F2) (s : State) : Host.Outcome State Fault Refusal :=
  issue (costOf (.cospi f)) f.g (bodyCospi f) s

/-- The meaning of tanh (R113). -/
def execTanh (f : F2) (s : State) : Host.Outcome State Fault Refusal :=
  issue (costOf (.tanh f)) f.g (bodyTanh f) s

/-- The meaning of sigm (R113). -/
def execSigm (f : F2) (s : State) : Host.Outcome State Fault Refusal :=
  issue (costOf (.sigm f)) f.g (bodySigm f) s

/-- The meaning of fdiv (R113). -/
def execFdiv (f : F2) (s : State) : Host.Outcome State Fault Refusal :=
  issue (costOf (.fdiv f)) f.g (bodyFdiv f) s

end Sys2Proof.Machine
end

