-- ==== Sys2Proof/Machine/Paths.lean ====
section
/-! DEFINITION. Paths, divergence records, hardware loops and rotation (R129 to R145). -/

namespace Sys2Proof.Machine

/-! ## Divergence records (R130, R140) -/

/-- The 16 bytes of a record (R140). -/
def DivRec.bytes (d : DivRec) : List Byte :=
  natBytes 4 d.r.toNat ++ natBytes 4 d.m.toNat ++ natBytes 4 d.dpc.toNat ++ natBytes 4 d.dmask.toNat

/-- The reconvergence offset NONE. -/
def noReconv : W32 := 0xFFFFFFFF

/-- Warps of a block's record (R321). -/
def LRec.warps (l : LRec) : Nat := (l.roles.map (·.warps)).foldl (· + ·) 0

/-- Where the spill area of a block's warp stands (R140, R338). -/
def Block.spillBase (b : Block) (idx : Nat) : Nat :=
  b.lr.ctx + 4096 * b.lr.ctxstr * b.bno + 256 + 4096 * b.lr.warps + 4096 * idx + 256

/-- All records of a warp, those of the program below a handler's included, the oldest first. -/
def Warp.allRecs (w : Warp) : List DivRec :=
  (w.recs ++ (match w.hand with | some h => h.recs | none => [])).reverse

/-- Write the records beyond depth 16 that a path's instruction leaves in t to the warp's spill area, under the block's PASID;
a page that is missing parks the path first, and a translation fault ends the block (R140). -/
def Env.spill (e : Env) (t : State) : Except Stop State :=
  match (t.core e.c).warps.find? e.w with
  | none => .ok t
  | some x =>
    let deep := x.allRecs.drop 16
    if deep.isEmpty then .ok t
    else
      let bytes := deep.flatMap DivRec.bytes
      match t.plan e.c e.blk.pasid (e.blk.spillBase x.idx) bytes.length true e.path.faults with
      | .ok ps => .ok (t.writePieces ps bytes)
      | .fault cause r a =>
        .ok ((t.killBlock e.c e.warp.rix cause.toNat 0 (e.blk.lr.code + e.pc.setWidth 64)).noteFault e.c e.blk.pasid cause.toNat r a)
      | .miss pages => .error (.wait .translate (fun s => s.startWalks e.c e.blk.pasid true false (.path e.w e.alt) pages))

/-- Is offset p within the body of a loop? -/
def LoopEntry.inside (l : LoopEntry) (p : W32) : Bool := decide ((p - l.q).toNat < 8 * l.len)

/-! ## Loops: one stack for a warp, one for a strand (R141, R142) -/

/-- The innermost loop first. -/
def Env.loops (e : Env) : List LoopEntry :=
  if e.strand then (match e.core.strand with | some t => t.loops | none => []) else e.warp.loops

/-- Change the loop stack of the issuer. -/
def Env.setLoops (e : Env) (f : List LoopEntry → List LoopEntry) (s : State) : State :=
  if e.strand then s.modStrand e.c (fun t => { t with loops := f t.loops })
  else s.modWarp e.c e.w (fun w => { w with loops := f w.loops })

/-- A taken non-divergent branch out of the innermost body closes that loop (R142, R424); a pipelined one does not rotate for
it (assumption 125). -/
def Env.leave (e : Env) (t : W32) (s : State) : State :=
  match e.loops with
  | l :: _ => if l.inside t then s else (e.setLoops List.tail s).loopClosed e.c
  | [] => s

/-! ## Branches (R131, R132) -/

/-- The reconvergence table's match for the instruction at an offset, in the folio that holds it (R131). -/
def Block.reconv (b : Block) (pc : W32) : W32 :=
  match b.slotOf pc with
  | some sl =>
    match b.folio sl with
    | some f => (match f.recs.find? (fun p => p.1 == pc) with | some p => p.2 | none => noReconv)
    | none => noReconv
  | none => noReconv

/-- The path goes to an offset. -/
def Env.goto (e : Env) (t : W32) (s : State) : State := s.modPath e.c e.w e.alt (fun p => p.jump t)

/-- Open a region: the other slot's live path is deferred, the record is pushed, the rest stays on the
issuing slot and the taken set goes to the other (R132). -/
def Warp.openRegion (w : Warp) (alt : Bool) (taken rest t r fpc : W32) : Warp :=
  let x := w.path alt
  let y := w.path (!alt)
  let recs := if y.live then
      (match w.recs with | d :: l => { d with dpc := y.pc, dmask := y.mask } :: l | [] => [])
    else w.recs
  let w := { w with recs := ⟨r, x.mask, 0, 0⟩ :: recs }
  let f := if fpc = x.pc then { x with mask := rest } else { (x.jump fpc) with mask := rest }
  (w.setPath alt f).setPath (!alt) { (Path.none.jump t) with live := true, mask := taken }

/-- The other path of a warp is deferred: an instruction that it waits at is withdrawn, and issues again when the path goes
on (R132; assumption 44). -/
def State.deferOther (s : State) (c w : Nat) (alt : Bool) (rix : Nat) : State :=
  match (s.core c).warps.find? w with
  | some x => if (x.path alt).live && (x.path alt).park.isSome then s.withdraw c w alt rix else s
  | none => s

/-- Split (R132). The issuing path already stands at what follows it in sequence. leave says that a taken
branch out of the innermost loop closes it. -/
def Env.split (e : Env) (taken : W32) (t r fpc : W32) (leave : Bool) (s : State) : Except Stop State :=
  let x := e.path
  let rest := x.mask &&& ~~~taken
  if taken = 0 then .ok s
  else if e.strand || rest = 0 then .ok (e.goto t (if leave then e.leave t s else s))
  else do
    (match e.loops with
      | l :: _ => need (r != noReconv && l.inside r) cIllegalOperand x.mask
      | [] => .ok ())
    need (decide (e.warp.allRecs.length < 256)) cDivergeOverflow x.mask
    e.spill ((s.deferOther e.c e.w (!e.alt) e.warp.rix).modWarp e.c e.w (fun w => w.openRegion e.alt taken rest t r fpc))

/-! ## Reconvergence (R133, R138) -/

/-- One step of R133 for a warp: an arrival, a slot filled from the deferred path, or a merge; none when
there is nothing to do. With both slots free it is the primary one that takes a deferred path (assumption 118). -/
def Warp.mergeStep (w : Warp) : Option Warp :=
  match w.recs with
  | [] => none
  | d :: rest =>
    if d.m = 0 then some { w with recs := rest }
    else if w.pri.live && w.pri.park.isNone && w.pri.pc == d.r then some { w with pri := { w.pri with live := false } }
    else if w.alt.live && w.alt.park.isNone && w.alt.pc == d.r then some { w with alt := { w.alt with live := false } }
    else if !w.pri.live && d.dmask != 0 then
      some { w with pri := { (Path.none.jump d.dpc) with live := true, mask := d.dmask },
                    recs := { d with dpc := 0, dmask := 0 } :: rest }
    else if !w.alt.live && d.dmask != 0 then
      some { w with alt := { (Path.none.jump d.dpc) with live := true, mask := d.dmask },
                    recs := { d with dpc := 0, dmask := 0 } :: rest }
    else if !w.pri.live && !w.alt.live then
      let w := { w with pri := { (Path.none.jump d.r) with live := true, mask := d.m }, recs := rest }
      match rest with
      | n :: more =>
        if n.dmask != 0 then
          some { w with alt := { (Path.none.jump n.dpc) with live := true, mask := n.dmask },
                        recs := { n with dpc := 0, dmask := 0 } :: more }
        else some w
      | [] => some w
    else none

/-- Remove threads from a record. -/
def DivRec.without (d : DivRec) (m : W32) : DivRec :=
  { d with m := d.m &&& ~~~m, dmask := d.dmask &&& ~~~m, dpc := if d.dmask &&& ~~~m = 0 then 0 else d.dpc }

/-- EXIT of threads: out of their path, every record and every deferred path, those kept aside by a
handler included (R139). -/
def Warp.exitThreads (w : Warp) (m : W32) : Warp :=
  { w with
    exited := w.exited ||| m
    pri := w.pri.without m, alt := w.alt.without m
    recs := w.recs.map (·.without m)
    hand := w.hand.map (fun h => { h with pri := h.pri.without m, alt := h.alt.without m,
                                          recs := h.recs.map (·.without m) }) }

/-- A warp is converged: one live path and no record (R124). -/
def Warp.converged (w : Warp) : Bool := (w.pri.live != w.alt.live) && w.recs.isEmpty

/-! ## Rotation (R143, R144) -/

/-- The register rotation count after a rotation. -/
def rotNext (rb : W32) : W32 :=
  let size := (rb.extractLsb' 14 9).toNat
  if size = 0 then rb
  else (rb &&& 0xFFFFFE00) ||| BitVec.ofNat 32 (((rb.extractLsb' 0 9).toNat + size - 1) % size)

/-- Set a predicate in the lanes of a mask. -/
def putQ (q : SMap W32) (k : Nat) (lanes x : W32) : SMap W32 :=
  SMap.set 0 q k ((SMap.get 0 q k &&& ~~~lanes) ||| (x &&& lanes))

/-- Shift the stage predicates in the lanes of a mask: q(k+1) := q(k) for k 8 to 13, and q8 the new stage. -/
def shiftStages (q : SMap W32) (lanes : W32) (first : Bool) : SMap W32 :=
  let q' := [13, 12, 11, 10, 9, 8].foldl (fun m k => putQ m (k + 1) lanes (SMap.get 0 m k)) q
  putQ q' 8 lanes (if first then 0xFFFFFFFF else 0)

/-- A rotation with the innermost loop (R143, R144): the registers, and the stage predicates in the lanes of
the warp or strand while the innermost loop is a pipelined one (assumption 120). -/
def Warp.rotateWith (w : Warp) (lanes : W32) (l : List LoopEntry) : Warp × List LoopEntry :=
  let w := { w with rotbase := rotNext w.rotbase }
  match l with
  | x :: rest =>
    if x.pipe then ({ w with q := shiftStages w.q lanes (decide (0 < x.k)) }, { x with k := x.k - 1 } :: rest)
    else (w, l)
  | [] => (w, l)

/-- The offset after a loop's body. -/
def LoopEntry.stop (l : LoopEntry) : W32 := l.q + BitVec.ofNat 32 (8 * l.len)

end Sys2Proof.Machine
end

