-- ==== Sys2Proof/Machine/Sq.lean ====
section
/-! DEFINITION. The sequencer's instructions (R120, R121, R124 to R148, R161, R163): what every UNIT 4
instruction does to the path or strand that issues it. -/

namespace Sys2Proof.Machine

/-! ## Checks (R124, R142) -/

/-- The mask of the issuing path: all owned lanes in a strand. -/
def Env.pathMask (e : Env) : W32 := if e.strand then e.dec else e.path.mask

/-- The instruction does not end the body of a loop of its warp (R142). -/
def Env.midLoop (e : Env) : Bool := e.strand || !(e.warp.loops.any (fun l => e.pc == l.stop - 8))

/-- The last instruction of a warp's loop body is no SQ instruction (R142). -/
def Env.notLast (e : Env) : Except Stop Unit := need e.midLoop cIllegalOperand e.path.mask

/-- The warp is converged; a strand always is (R124). -/
def Env.single (e : Env) : Bool := e.strand || e.warp.converged

/-- Trap unless the warp is converged. -/
def Env.conv (e : Env) : Except Stop Unit := need e.single cIllegalOperand e.path.mask

/-- A register in A: v in a warp, w in a strand (R124). -/
def Env.jumpOk (e : Env) (a : Code) (wide : Bool) : Bool := if e.strand then wOk a wide else e.vOk a wide

/-- Trap unless A names such a register. -/
def Env.jumpReg (e : Env) (a : Code) (wide : Bool) : Except Stop Unit := e.field (e.jumpOk a wide)

/-- An offset is in some resident folio of the block. -/
def Env.inFolio (e : Env) (t : W32) : Bool := (e.blk.slotOf t).isSome

/-- The path stands at its instruction while it waits for it to complete; a strand has left its bundle. -/
def Env.holdAt (e : Env) (why : Park) (s : State) : State :=
  s.modPath e.c e.w e.alt (fun p =>
    if e.strand then { p with park := some why } else { e.path with park := some why })

/-! ## Branches (R132 to R137) -/

/-- Write the return offset in the link register of the taken lanes, or in the strand's w register (R136). -/
def Env.link (e : Env) (reg : Nat) (taken : W32) (s : State) : State :=
  s.modWarp e.c e.w (fun w =>
    if e.strand then (if taken = 0 then w else w.setW [reg - 384] [e.next])
    else w.setLanes [rotate e.warp.rotbase reg] (lanesOf taken) ((lanesOf taken).map (fun _ => e.next)))

/-- A direct target is resident (R122). -/
def Env.resident (e : Env) (imm : BitVec 32) (lanes : W32) : Except Stop W32 := do
  need (lanes == 0 || e.inFolio (e.pc + imm)) cFolioMiss lanes
  .ok (e.pc + imm)

/-- A displacement is aligned (R124). -/
def Env.straight (_ : Env) (imm : BitVec 32) (lanes : W32) : Except Stop Unit :=
  need (lanes == 0 || imm.extractLsb' 0 3 == 0) cTargetAlign lanes

def bodyBra (f : FC) : Body := fun e s => do
  let t ← e.resident f.imm e.act
  e.notLast
  e.straight f.imm e.act
  e.split e.act t (e.blk.reconv e.pc) e.next true s

/-- The threads that BRA.U takes: the whole path when the guard holds in its lowest thread, else none (R134). -/
def Env.wholePath (e : Env) : W32 :=
  if e.strand then e.act
  else match lowest e.path.mask with
    | some l => if e.act.getLsbD l then e.path.mask else 0
    | none => 0

/-- BRA.U: the whole path follows the guard of its lowest thread (R134). -/
def bodyBraU (f : FC) : Body := fun e s => do
  let t ← e.resident f.imm e.wholePath
  e.notLast
  e.straight f.imm e.wholePath
  .ok (if e.wholePath = 0 then s else e.goto t (e.leave t s))

/-- The offset that register A holds in a lane. -/
def Env.target (e : Env) (a : Code) (lane : Nat) : W32 := (⟨4, 9, 0, a, false, false⟩ : Opnd).val32 e lane

/-- Lanes whose indirect target fails a check. -/
def Env.badLanes (e : Env) (a : Code) (ok : W32 → Bool) : W32 :=
  lanesOf e.act |>.foldl (fun m l => if ok (e.target a l) then m else m ||| bit l) 0

/-- The target is a landing point of its folio (R135). -/
def Block.lands (b : Block) (t : W32) : Bool :=
  match b.slotOf t with
  | some sl => (match b.folio sl with | some f => f.lands.contains t | none => false)
  | none => false

/-- The checks of an indirect branch, before any lane moves; it does not end a loop's body (R56, R135, R142). -/
def Env.indirect (e : Env) (a : Code) (landing : Bool) : Except Stop Unit := do
  let m1 := e.badLanes a e.inFolio
  need (m1 == 0) cFolioMiss m1
  e.notLast
  let m2 := e.badLanes a (fun t => t.extractLsb' 0 3 == 0)
  need (m2 == 0) cTargetAlign m2
  let m3 := if landing then e.badLanes a e.blk.lands else 0
  need (m3 == 0) cLanding m3

/-- Every active lane's target is resident and aligned, and a landing point where one is asked for (R135). -/
def Env.targetsOk (e : Env) (a : Code) (landing : Bool) : Bool :=
  e.badLanes a e.inFolio == 0 && e.badLanes a (fun t => t.extractLsb' 0 3 == 0) == 0
    && (!landing || e.badLanes a e.blk.lands == 0)

/-- The target register has landed (R151). -/
def Env.jumpQuiet (e : Env) (a : Code) : Bool :=
  if e.strand then !e.blocked [] [a.toNat - 384] else !e.blocked [rotate e.warp.rotbase a.toNat] []

/-- The lanes that go with the lowest active lane, and its target (R132). -/
def Env.group (e : Env) (a : Code) : W32 × W32 :=
  match lowest e.act with
  | none => (0, 0)
  | some l =>
    let t := e.target a l
    (e.act &&& maskOf (fun i => e.act.getLsbD i && e.target a i == t), t)

/-- An indirect transfer: the lanes of the lowest lane's target go, the others issue the branch again. -/
def indirectBody (f : FC) (wide landing leave : Bool) (fin : Env → W32 → State → State) (dflt : Env → W32) : Body :=
  fun e s => do
  e.jumpReg f.a wide
  (if e.jumpQuiet f.a then .ok () else .error (.wait .interlock id))
  e.indirect f.a landing
  let g := e.group f.a
  let r := let x := e.blk.reconv e.pc; if x == noReconv then dflt e else x
  let s ← e.split g.1 g.2 r e.pc leave s
  .ok (fin e g.1 s)

def bodyBrx (f : FC) : Body := indirectBody f false true true (fun _ _ s => s) (fun _ => noReconv)
def bodyRet (f : FC) : Body := indirectBody f false false false (fun _ _ s => s) (fun _ => noReconv)

/-- CALLX: target in vk, link in vk+1; without a table entry threads reconverge after the call (R131). -/
def bodyCallx (f : FC) : Body :=
  indirectBody f true true false (fun e m s => e.link (f.a.toNat + 1) m s) (fun e => e.pc + 8)

def bodyCall (f : FC) : Body := fun e s => do
  let t ← e.resident f.imm e.act
  e.jumpReg f.a false
  e.notLast
  e.straight f.imm e.act
  let r := let x := e.blk.reconv e.pc; if x == noReconv then e.pc + 8 else x
  let s ← e.split e.act t r e.next false s
  .ok (e.link f.a.toNat e.act s)

/-- The n-th record from the innermost exists and has an offset at which its threads meet again (R137). -/
def Env.breakOk (e : Env) (n : Nat) : Bool := match e.warp.recs[n - 1]? with | some d => d.r != noReconv | none => false

/-- BRK n: the active threads leave n regions and wait in the n-th (R137, R138). -/
def bodyBrk (f : FC) : Body := fun e s => do
  e.enc (!e.strand)
  e.notLast
  if e.act = 0 then .ok s
  else do
    let n := f.mod.toNat + 1
    need (e.breakOk n) cIllegalOperand e.act
    e.spill (s.modWarp e.c e.w (fun w =>
      { (w.modPath e.alt (fun p => p.without e.act)) with
        recs := (w.recs.take (n - 1)).map (fun d => { d with m := d.m &&& ~~~e.act }) ++ w.recs.drop (n - 1) }))

/-! ## Loops and rotation (R141, R143, R144) -/

/-- Open a loop of n executions, or skip its body when n is 0 (R141, R143). -/
def loopBody (pipe : Bool) (f : FC) : Body := fun e s => do
  e.field (f.a == 480 || isW f.a)
  (if isW f.a then e.wLanded [f.a.toNat - 384] else .ok ())
  e.notLast
  e.conv
  let n := if f.a == 480 then (f.imm.extractLsb' 16 16).toNat else (e.wread (f.a.toNat - 384)).toNat
  need (e.loops.length < (if e.strand then 16 else 4)) cLoopStack e.pathMask
  let len := (f.imm.extractLsb' 0 12).toNat
  let lanes := if e.strand then e.dec else 0xFFFFFFFF
  let s := if pipe then
      s.modWarp e.c e.w (fun w => { w with
        q := (List.range 6).foldl (fun q i => putQ q (9 + i) lanes 0)
          (putQ w.q 8 lanes (if n = 0 then 0 else 0xFFFFFFFF)) })
    else s
  let x : LoopEntry := ⟨e.next, if pipe then n + (f.imm.extractLsb' 13 3).toNat else n, n - 1, pipe, len⟩
  .ok (if n = 0 then s.modPath e.c e.w e.alt (fun p => { p with pc := x.stop })
    else e.setLoops (x :: ·) s)

def bodyLoop (f : FC) : Body := loopBody false f
def bodyLoopPipe (f : FC) : Body := loopBody true f

/-- ROTSET base, size (R144). -/
def bodyRotset (f : FC) : Body := fun e s => do
  let base := (f.imm.extractLsb' 23 9).toNat
  let size := (f.imm.extractLsb' 14 9).toNat
  e.field (base % 8 == 0 && size % 8 == 0 && decide (base + size ≤ 8 * e.role.regs))
  e.notLast
  e.conv
  .ok (s.modWarp e.c e.w (fun w => { w with rotbase := f.imm &&& 0xFFFFC000 }))

/-! ## Collapse and expand (R146, R148) -/

/-- MODE.COLLAPSE: the warp waits at the instruction until the clusters are free. -/
def bodyModeCollapse (f : FC) : Body := fun e s => do
  e.enc (!e.strand)
  let t := e.pc + (f.imm &&& 0xFFFFFFF8)
  need (e.inFolio t) cFolioMiss e.path.mask
  e.notLast
  e.conv
  need (e.path.mask == ~~~e.warp.exited && e.warp.loops.isEmpty && e.warp.hand.isNone) cIllegalOperand e.path.mask
  .ok (e.holdAt (.collapse (2 ^ (f.imm.extractLsb' 0 2).toNat) t) s)

/-- Nothing of a core's strand is in flight: no result, and every access has been performed (R148). -/
def State.strandIdle (s : State) (c w : Nat) : Bool :=
  (match (s.core c).warps.find? w with | some x => x.results.isEmpty | none => true)
    && (match (s.core c).strand with | some t => t.deferred.isEmpty | none => true) && s.performed c w s.nonce true

/-- MODE.EXPAND: the strand issues nothing further. -/
def bodyModeExpand (f : FC) : Body := fun e s => do
  e.enc e.strand
  let t := e.pc + f.imm
  need (e.inFolio t) cFolioMiss e.pathMask
  need e.loops.isEmpty cIllegalOperand e.pathMask
  .ok (s.modStrand e.c (fun x => { x with st := .expand (s.strandIdle e.c e.w), cont := t }))

/-! ## SYNC, EXIT, TRAP, ERET and the small ones (R125, R139, R161, R163) -/

/-- The scope of a SYNC's level: gathering, quire, or device for the module (R197). -/
def syncScope (level : Nat) : Nat := level + 2

/-- SYNC: results land, earlier accesses are released at the level's scope, then the warp waits for the
kettle line (R163, R197). -/
def bodySync (f : FC) : Body := fun e s => do
  e.enc (!e.strand)
  e.notLast
  e.conv
  let level := f.imm.toNat
  need (e.core.domain.getLsbD (level - 1)) cIllegalOperand e.path.mask
  (if e.warp.results.isEmpty then .ok () else .error (.wait .switch id))
  e.settled s (s.drains e.c (syncScope level))
  .ok (e.holdAt (.sync level) s)

/-- EXIT ends the active threads; in a strand the strand and its warp (R125, R139). -/
def bodyExit (_f : FC) : Body := fun e s => do
  e.notLast
  if e.act = 0 then .ok s
  else if e.strand then
    .ok ((s.modWarp e.c e.w (fun w => w.exitThreads 0xFFFFFFFF)).modPath e.c e.w e.alt (fun p => { p with park := some .exit }))
  else e.spill (s.modWarp e.c e.w (fun w => w.exitThreads e.act))

/-- TRAP code: a software cause with the active lanes (R125, R160). -/
def bodyTrap (f : FC) : Body := fun e s => do
  e.field (decide (0x80 ≤ f.imm.toNat ∧ f.imm.toNat ≤ 0xFF))
  e.notLast
  need (e.act == 0) (f.imm.extractLsb' 0 8) e.act
  .ok s

/-- ERET: once the handler's results have landed, back to the program (R161). -/
def bodyEret (_f : FC) : Body := fun e s => do
  e.field (!e.strand)
  e.notLast
  e.conv
  match e.warp.hand with
  | none => .error (.trap cIllegalOperand e.path.mask)
  | some h => do
    need (e.path.mask == h.mask &&& ~~~(e.warp.exited &&& ~~~h.gone)) cIllegalOperand e.path.mask
    (if e.warp.results.isEmpty && (e.warp.keepsPc e.core || e.warp.snapLanded e.core) then .ok () else .error (.wait .eret id))
    .ok (s.leaveTrap e.c e.w)

/-- NOP n: nothing for n cycles after it, which the end of its own cycle precedes. -/
def bodyNop (f : FC) : Body := fun e s => do
  e.notLast
  let n := (f.imm.extractLsb' 0 16).toNat
  .ok (if n = 0 then s else s.modPath e.c e.w e.alt (fun p => { p with park := some (.nop (n + 1)) }))

/-- YIELD: last in the order for the next issue; NOP 0 in a strand. -/
def bodyYield (_f : FC) : Body := fun e s => do
  e.notLast
  .ok (if e.strand then s else s.modPath e.c e.w e.alt (fun p => { p with yielded := true }))

/-- ELECT: true in the lowest active lane, at issue. -/
def bodyElect (f : F2) : Body := fun e s => do
  e.enc (!e.strand)
  e.dstQ f.d
  e.notLast
  let x := match lowest e.act with | some l => bit l | none => 0
  .ok (s.modWarp e.c e.w (fun w => { w with q := putQ w.q (f.d.extractLsb' 0 4).toNat e.act x }))

/-! ## Folios and the domain register (R120, R121, R125, R333) -/

/-- Folio slots that a block owns (R117). -/
def Block.slots (b : Block) : Nat := b.lr.nfol + b.lr.novl

/-- A non-canonical image address traps with ACCESS, and leaves the slot empty (R120). -/
def Env.folldCanonical (e : Env) (sl : Nat) (va : W64) : Except Stop Unit :=
  if canonical va.toNat then .ok ()
  else .error (.trapWith cAccess e.pathMask (fun s => s.modBlock e.c e.warp.rix (fun b => { b with folios := KMap.del b.folios sl })))

/-- FOLLD: the slot is emptied and the read of the image begins. -/
def bodyFolld (f : FC) : Body := fun e s => do
  let sl := (f.imm.extractLsb' 0 4).toNat
  e.dstW f.a true
  e.field (decide (sl < e.blk.slots))
  e.wLanded [f.a.toNat - 384, f.a.toNat - 383]
  e.notLast
  let va : W64 := e.wread (f.a.toNat - 383) ++ e.wread (f.a.toNat - 384)
  need (va.extractLsb' 0 6 == 0) cDataAlign e.pathMask
  e.folldCanonical sl va
  let s := (s.modBlock e.c e.warp.rix (fun b =>
    { b with folios := KMap.del b.folios sl, loading := b.loading ++ [sl] })).modCore e.c (fun k =>
      { k with floads := k.floads ++ [⟨e.w, e.alt, sl, va.toNat, s.time + Config.walkDelay s.nonce, none, e.pc, none⟩] })
  .ok (e.holdAt .folld s.tickNonce)

/-- FOLFREE: the slot is emptied and stays the block's. -/
def bodyFolfree (f : FC) : Body := fun e s => do
  let sl := (f.imm.extractLsb' 0 4).toNat
  e.field (decide (sl < e.blk.slots))
  e.notLast
  .ok (s.modBlock e.c e.warp.rix (fun b => { b with folios := KMap.del b.folios sl }))

/-- Is some warp or the strand of the core waiting in a SYNC? -/
def Core.syncWaiting (k : Core) : Bool :=
  let w (p : Path) : Bool := match p.park with | some (.sync _) => true | _ => false
  k.warps.any (fun p => (p.2.pri.live && w p.2.pri) || (p.2.alt.live && w p.2.alt))

/-- The value that a write of x to %domain stores: zero fields are ignored (R333). -/
def domainStore (x : W32) : W32 := x &&& 0x787

/-- DOMSET: privileged; it waits until no SYNC of the core is waiting. -/
def bodyDomset (f : FC) : Body := fun e s => do
  need e.warp.priv cPrivilege e.dec
  e.dstW f.a false
  e.wLanded [f.a.toNat - 384]
  e.notLast
  e.conv
  let v := domainStore (e.wread (f.a.toNat - 384))
  need (!v.getLsbD 7 || (e.core.blocks.find? (v.extractLsb' 8 3).toNat).isSome) cIllegalOperand
    e.pathMask
  (if (s.core e.c).syncWaiting then .error (.wait .domset id) else .ok ())
  .ok { (s.modCore e.c (fun k => { k with
          domain := v
          member := if v.getLsbD 7 then (k.blocks.find? (v.extractLsb' 8 3).toNat).map (fun b => (b.grid, b.bno)) else none })) with
        grids := s.grids.map (fun g => (g.1, { g.2 with doms := g.2.doms.filter (fun d => d.1 ≠ e.c) })) }

/-! ## Meanings of the constructors -/

/-- The meaning of bra (R132). -/
def execBra (f : FC) (s : State) : Host.Outcome State Fault Refusal :=
  issue (costOf (.bra f)) f.g (bodyBra f) s

/-- The meaning of braU (R134). -/
def execBraU (f : FC) (s : State) : Host.Outcome State Fault Refusal :=
  issue (costOf (.braU f)) f.g (bodyBraU f) s

/-- The meaning of brx (R132). -/
def execBrx (f : FC) (s : State) : Host.Outcome State Fault Refusal :=
  issue (costOf (.brx f)) f.g (bodyBrx f) s

/-- The meaning of call (R136). -/
def execCall (f : FC) (s : State) : Host.Outcome State Fault Refusal :=
  issue (costOf (.call f)) f.g (bodyCall f) s

/-- The meaning of callx (R136). -/
def execCallx (f : FC) (s : State) : Host.Outcome State Fault Refusal :=
  issue (costOf (.callx f)) f.g (bodyCallx f) s

/-- The meaning of ret (R136). -/
def execRet (f : FC) (s : State) : Host.Outcome State Fault Refusal :=
  issue (costOf (.ret f)) f.g (bodyRet f) s

/-- The meaning of brk (R137). -/
def execBrk (f : FC) (s : State) : Host.Outcome State Fault Refusal :=
  issue (costOf (.brk f)) f.g (bodyBrk f) s

/-- The meaning of loop (R141). -/
def execLoop (f : FC) (s : State) : Host.Outcome State Fault Refusal :=
  issue (costOf (.loop f)) f.g (bodyLoop f) s

/-- The meaning of loopPipe (R143). -/
def execLoopPipe (f : FC) (s : State) : Host.Outcome State Fault Refusal :=
  issue (costOf (.loopPipe f)) f.g (bodyLoopPipe f) s

/-- The meaning of rotset (R144). -/
def execRotset (f : FC) (s : State) : Host.Outcome State Fault Refusal :=
  issue (costOf (.rotset f)) f.g (bodyRotset f) s

/-- The meaning of modeCollapse (R146). -/
def execModeCollapse (f : FC) (s : State) : Host.Outcome State Fault Refusal :=
  issue (costOf (.modeCollapse f)) f.g (bodyModeCollapse f) s

/-- The meaning of modeExpand (R148). -/
def execModeExpand (f : FC) (s : State) : Host.Outcome State Fault Refusal :=
  issue (costOf (.modeExpand f)) f.g (bodyModeExpand f) s

/-- The meaning of sync (R163). -/
def execSync (f : FC) (s : State) : Host.Outcome State Fault Refusal :=
  issue (costOf (.sync f)) f.g (bodySync f) s

/-- The meaning of exit (R139). -/
def execExit (f : FC) (s : State) : Host.Outcome State Fault Refusal :=
  issue (costOf (.exit f)) f.g (bodyExit f) s

/-- The meaning of trap (R125). -/
def execTrap (f : FC) (s : State) : Host.Outcome State Fault Refusal :=
  issue (costOf (.trap f)) f.g (bodyTrap f) s

/-- The meaning of eret (R161). -/
def execEret (f : FC) (s : State) : Host.Outcome State Fault Refusal :=
  issue (costOf (.eret f)) f.g (bodyEret f) s

/-- The meaning of nop (R125). -/
def execNop (f : FC) (s : State) : Host.Outcome State Fault Refusal :=
  issue (costOf (.nop f)) f.g (bodyNop f) s

/-- The meaning of yield (R125). -/
def execYield (f : FC) (s : State) : Host.Outcome State Fault Refusal :=
  issue (costOf (.yield f)) f.g (bodyYield f) s

/-- The meaning of elect (R125). -/
def execElect (f : F2) (s : State) : Host.Outcome State Fault Refusal :=
  issue (costOf (.elect f)) f.g (bodyElect f) s

/-- The meaning of folld (R120). -/
def execFolld (f : FC) (s : State) : Host.Outcome State Fault Refusal :=
  issue (costOf (.folld f)) f.g (bodyFolld f) s

/-- The meaning of folfree (R121). -/
def execFolfree (f : FC) (s : State) : Host.Outcome State Fault Refusal :=
  issue (costOf (.folfree f)) f.g (bodyFolfree f) s

/-- The meaning of domset (R125). -/
def execDomset (f : FC) (s : State) : Host.Outcome State Fault Refusal :=
  issue (costOf (.domset f)) f.g (bodyDomset f) s

end Sys2Proof.Machine
end

