-- ==== Sys2Proof/Machine/Ls.lean ====
section
/-! DEFINITION. The load/store unit (R165 to R194, R211): what every UNIT 3 instruction does. -/

namespace Sys2Proof.Machine

/-! ## Operands (R165, R166, R176) -/

/-- The address operand at position pos: a pair for a global address (R165). -/
def lsAddr (space : BitVec 2) (pos : Nat) (code : Code) : Opnd := ⟨3, pos, 0, code, space == 0, false⟩

/-- A global address is an even v or w code (R165). -/
def addrClass (space : BitVec 2) (code : Code) : Bool := space != 0 || decide (code.toNat < 448)

/-- The operand that a position may not latch stands at position 9. -/
def noPort : Nat := 9

/-- Data registers of a store: v or w, one, a pair, or a group of four or eight v registers (R34, R181); one
register may be the latched port. -/
def Env.dataOk (e : Env) (code : Code) (k : Nat) : Bool :=
  let c := code.toNat
  if c < 384 then c % k == 0 && e.rangeOk c k
  else if c < 448 then decide (k ≤ 2) && c % k == 0
  else k == 1 && c == 511 && e.strand

/-- The words of a store's data in a lane, as read at issue. -/
def Env.dataWords (e : Env) (code : Code) (k lane : Nat) : List W32 :=
  let c := code.toNat
  if c < 384 then (e.phys c k).map (fun r => e.vread r lane)
  else if c < 448 then (List.range k).map (fun i => e.wread (c - 384 + i))
  else [e.latched 9 lane]

/-- The registers that a load's group names, all v and aligned (R34, R181). -/
def Env.groupOk (e : Env) (code : Code) (k : Nat) : Bool :=
  decide (code.toNat < 384) && code.toNat % k == 0 && e.rangeOk code.toNat k

/-- No register of a data group waits for an interlocked result (R151). -/
def Env.dataQuiet (e : Env) (code : Code) (k : Nat) : Bool :=
  let c := code.toNat
  let vr := if c < 384 then e.phys c k else []
  let wr := if 384 ≤ c ∧ c < 448 then (List.range k).map (fun i => c - 384 + i) else []
  !e.blocked vr wr

/-- A strand waits until the v and w registers of a data group have landed (R151). -/
def Env.dataLanded (e : Env) (code : Code) (k : Nat) : Except Stop Unit :=
  if e.dataQuiet code k then .ok () else .error (.wait .interlock id)

/-- The effective address (R166). -/
def effAddr (space : BitVec 2) (a off : W64) : Nat :=
  if space == 0 then (a + off).toNat else (a.setWidth 32 + off.setWidth 32 : W32).toNat

/-- The words of an operand of n bytes. -/
def Opnd.wordsOf (o : Opnd) (e : Env) (lane n : Nat) : List W32 := words (n == 8) (o.val e lane)

/-! ## The frame of R179 -/

/-- The mask of lanes. -/
def lanesMask (l : List Nat) : W32 := l.foldl (fun m i => m ||| bit i) 0

/-- Write accesses. -/
def AccKind.writes (k : AccKind) : Bool := k != .load

/-- What one lane's address meets before it is performed. -/
inductive Meets where
  | at (p : Place)
  | missing
  | trap (cause : BitVec 8) (reason : Nat)

/-- An attribute violation of a translated access, or a peer without a route (R175, R371, R373). -/
def attrBad (b : Boot) (kind : AccKind) (n : Nat) (t : Tlb) : Bool :=
  (kind.writes && t.readOnly) || t.noRoute b || (t.sc && decide (16 ≤ n))
    || (t.tgt == 1 && (match kind with
      | .atom op => !(op == 0 || op == 6 || (n == 8 && op == 3))
      | .red op => !(op == 0 || op == 6)
      | _ => false))

/-- Look up one lane of a global access, given the faults that walks for it have found (R352, R356). -/
def State.meetGlobal (s : State) (c pasid : Nat) (kind : AccKind) (n lane ea : Nat) (faults : List (Nat × Nat)) : Meets :=
  if !canonical ea then .trap cAccess 0
  else
    match (s.core c).lookup lane pasid ea kind.writes with
    | some t =>
      if attrBad s.boot kind n t then .trap cAccess 0
      else if s.claspHit c kind.writes ea n (.glob (t.phys ea) t) then .trap cClasp 0
      else .at (.glob (t.phys ea) t)
    | none =>
      match faults.find? (fun f => f.1 = page4K ea) with
      | some f => .trap (if f.2 = rRefused then cAccess else cPageFault) f.2
      | none => .missing

/-- Where n bytes at a scratchpad or remote address lie, when a window holds them (R167). -/
def State.scratchPlace (s : State) (c grid rix space n ea : Nat) : Option (Nat × Nat × Nat) :=
  if space = 1 then
    match (s.core c).blocks.find? rix with
    | some b => if ea + n ≤ b.window then some (c, rix, ea) else none
    | none => none
  else s.remoteTarget c grid ea n

/-- Check one lane of a scratchpad or remote access (R167, R208). -/
def State.meetScratch (s : State) (c grid rix space : Nat) (kind : AccKind) (n ea : Nat) : Meets :=
  match s.scratchPlace c grid rix space n ea with
  | none => .trap cAccess 0
  | some (tc, r, off) =>
    if s.claspHit c kind.writes ea n (.scr tc r off) then .trap cClasp 0 else .at (.scr tc r off)

/-- The first cause in the order of R56 that some lane meets, with its lanes. -/
def firstCause (l : List (Nat × Meets)) : Option (BitVec 8 × W32) :=
  let has (c : BitVec 8) : List Nat :=
    (l.filter (fun p => match p.2 with | .trap d _ => d == c | _ => false)).map (·.1)
  if has cPageFault ≠ [] then some (cPageFault, lanesMask (has cPageFault))
  else if has cAccess ≠ [] then some (cAccess, lanesMask (has cAccess))
  else if has cClasp ≠ [] then some (cClasp, lanesMask (has cClasp))
  else none

/-- The endpaper event of a translation fault or an attribute violation of a global access: the address and
reason of the lowest lane that met it (R356, R430). A non-canonical address is neither (R352). -/
def faultEvent (c pasid : Nat) (cause : BitVec 8) (l : List (LaneAcc × Meets)) (s : State) : State :=
  match l.find? (fun p => match p.2 with | .trap d _ => d == cause && canonical p.1.ea | _ => false) with
  | some (a, .trap _ r) => if cause == cClasp then s else s.noteFault c pasid cause.toNat r a.ea
  | _ => s

/-- The outstanding-request entries that a warp's results hold, those in a strand's snapshot among them (R156, R180). -/
def Warp.heldEntries (w : Warp) : Nat :=
  ((w.results ++ (match w.hand with | some h => h.snap | none => [])).map (·.lines)).foldl (· + ·) 0

/-- The core's free outstanding-request entries (R180). -/
def Core.freeEntries (k : Core) : Nat := 1024 - (k.warps.map (fun p => p.2.heldEntries)).foldl (· + ·) 0

/-- Distinct 128-byte lines of the places. -/
def placeLines (l : List Place) : Nat :=
  (l.filterMap (fun p => match p with | .glob pa _ => some (pa / 128) | _ => none)).dedup.length

/-- The LS port and the processing cycle of a lane (R13). -/
def Env.bankPort (e : Env) (lane : Nat) : Nat × Nat :=
  let n := e.core.simtClusters
  if e.strand || e.warp.strand || n = 0 then (lane / 8, 0) else (lane % (8 * n) / 8, lane / (8 * n))

/-- The words that a scratchpad access asks its banks for; a bank serves each atomic alone (R168, R174). -/
def Env.askBanks (e : Env) (a : Access) (l : List (LaneAcc × Place)) (s : State) : State :=
  l.foldl (fun s p =>
    match p.2 with
    | .scr tc r off =>
      let pd := e.bankPort p.1.lane
      s.bankWords tc r off a.n (if a.space = 2 then 4 else pd.1) pd.2 e.c (if a.kind.atomic then 16 + 32 * a.id + p.1.lane else 0)
    | _ => s) s

/-- A barrier operation of a lane asks the banks of an object for it (R16, R168, R188). -/
def Env.askObject (e : Env) (space : BitVec 2) (lane : Nat) (p : Nat × Nat × Nat) (s : State) : State :=
  s.askBar p.1 p.2.1 p.2.2 (if space == 2 then 4 else (e.bankPort lane).1) e.c

/-- What the instruction's destination is. -/
structure LsDest where
  dest : Dest
  regs : List Nat
  lat : Nat
  lock : Bool

/-- Put the result of a load or atomic, to be filled lane by lane (R128, R180). -/
def Env.putDue (e : Env) (d : LsDest) (lanes : List Nat) (lines : Nat) (s : State) : State :=
  let id := s.nonce
  (e.put 3 d.lat d.lock d.dest d.regs (lanesMask lanes) (List.replicate (lanes.length * d.regs.length) 0) s).modWarp
    e.c e.w (fun w => w.modResult id (fun r => { r with due := lanes.length, lines := lines }))

/-- What each lane of an access meets. -/
def Env.lsMeets (e : Env) (a : Access) (s : State) : List (LaneAcc × Meets) :=
  a.lanes.map (fun l =>
    (l, if a.space = 0 then s.meetGlobal e.c e.blk.pasid a.kind a.n l.lane l.ea e.path.faults
        else s.meetScratch e.c e.blk.grid e.warp.rix a.space a.kind a.n l.ea))

/-- The addresses that are not yet translated. -/
def meetsMissing (l : List (LaneAcc × Meets)) : List Nat :=
  l.filterMap (fun p => match p.2 with | .missing => some p.1.ea | _ => none)

/-- The lanes that have their places. -/
def meetsPlaces (l : List (LaneAcc × Meets)) : List (LaneAcc × Place) :=
  l.filterMap (fun p => match p.2 with | .at q => some (p.1, q) | _ => none)

/-- Accesses of the issuing strand wait for a translation. -/
def Env.behindWalk (e : Env) (s : State) : Bool :=
  e.strand && (match (s.core e.c).strand with | some t => !t.deferred.isEmpty | none => false)

/-- A strand's global access queues behind those that wait for a translation (R158). -/
def Env.lsQueued (e : Env) (a : Access) (s : State) : Bool := a.space == 0 && e.behindWalk s

/-- Every lane is aligned (R179). -/
def Access.aligned (a : Access) : Bool := a.lanes.all (fun l => l.ea % a.n == 0)

/-- Every lane has its place at once. -/
def Env.lsHits (e : Env) (a : Access) (s : State) : Bool :=
  (e.lsMeets a s).all (fun p => match p.2 with | .at _ => true | _ => false) && !e.lsQueued a s

/-- A load's line is absent (R169). -/
def lsAbsent (a : Access) (l : List (LaneAcc × Place)) (s : State) : Bool :=
  a.space != 0 && a.kind == .load &&
    l.any (fun p => match p.2 with | .scr tc r off => !s.bytesPresent tc r off a.n | _ => false)

/-- Outstanding-request entries that an access needs (R180): the write buffer takes over those of a store or RED at once, the
others are held with the result. -/
def lsLines (l : List (LaneAcc × Place)) : Nat := placeLines (l.map (·.2))

/-- Some lane meets an SC page (R203). -/
def lsSc (l : List (LaneAcc × Place)) : Bool := l.any (fun p => match p.2 with | .glob _ t => t.sc | _ => false)

/-- The issuing path waits for the completion of the access (R203): an atomic on an SC page, and a store to one of the host or
of a peer; others on an SC page are complete as they are performed. -/
def scWaits (kind : AccKind) (l : List (LaneAcc × Place)) : Bool :=
  l.any (fun p => match p.2 with | .glob _ t => t.sc && (kind.atomic || (kind == .store && t.tgt != 0)) | _ => false)

/-- A strand's acquire waits for its translation: what follows it is performed after it (R182). -/
def Env.acqBehind (e : Env) (s : State) : Bool :=
  e.strand && (match (s.core e.c).strand with | some t => t.deferred.any (fun x => x.acc.acq) | none => false)

/-- A write stands behind a FENCE.REL or FENCE.ENG whose earlier accesses are still to be performed: with drain at their homes,
else those that do not go through the write buffer (R186, R197). -/
def Env.relBehind (e : Env) (s : State) (drain : Bool) : Bool :=
  e.warp.relSeq != 0 && !s.performed e.c e.w e.warp.relSeq drain

/-- What must have been performed first, in order: each a drain of the write buffer or not (R182, R186, R197, R203). A global
write follows the core's earlier stores through the write buffer anyway. -/
def Env.lsFences (e : Env) (a : Access) (l : List (LaneAcc × Place)) (s : State) : List Bool :=
  let away := a.space != 0
  (if lsSc l then [true] else []) ++ (if a.rel then [away && s.drains e.c a.scope] else [])
    ++ (if away && e.acqBehind s then [false] else []) ++ (if a.kind.writes && e.relBehind s away then [away] else [])

/-- Some lane's bytes have others to be performed on them at their homes first (R199 to R201). -/
def Env.lsHome (e : Env) (a : Access) (l : List (LaneAcc × Place)) (s : State) : Bool :=
  l.any (fun p => s.homeFirst e.c e.w e.nonce a p.2)

/-- Nothing keeps an access from being performed now. -/
def Env.lsReady (e : Env) (a : Access) (l : List (LaneAcc × Place)) (s : State) : Bool :=
  !lsAbsent a l s && decide (lsLines l ≤ (s.core e.c).freeEntries) && (e.lsFences a l s).all (e.settledNow s) && !e.lsHome a l s

/-- The last-page registers that the lookups of an access load (R353). -/
def Env.lsLprs (e : Env) (a : Access) (s : State) : State :=
  a.lanes.foldl (fun s l =>
    match (s.core e.c).lookup l.lane e.blk.pasid l.ea a.kind.writes with
    | some t => s.loadLpr e.c l.lane t
    | none => s) s

/-- The result of an access is put, when it has one. -/
def Env.lsPut (e : Env) (a : Access) (d : Option LsDest) (lines : Nat) (s : State) : State :=
  match d with
  | some d => e.putDue d (a.lanes.map (·.lane)) lines s
  | none => s.tickNonce

/-- The access is performed at its places; on an SC page the path waits for its completion (R179, R203). -/
def Env.lsDone (e : Env) (a : Access) (d : Option LsDest) (l : List (LaneAcc × Place)) (s : State) : State :=
  let s := e.lsPut a d (lsLines l) s
  let s := if a.space = 0 then e.lsLprs a s else e.askBanks a l s
  let s := s.perform e.c e.w a l (e.warp.relSeq != 0)
  if scWaits a.kind l then
    s.modPath e.c e.w e.alt (fun p => { p with park := some (.sc s.nonce) })
  else s

/-- Every lane is aligned and has its place, and nothing keeps the access from being performed now. -/
def Env.lsNow (e : Env) (a : Access) (s : State) : Bool :=
  let a := { a with id := s.nonce }
  a.aligned && e.lsHits a s && e.lsReady a (meetsPlaces (e.lsMeets a s)) s

/-- The access is performed now, at the places that its lanes find. -/
def Env.lsEffect (e : Env) (a : Access) (d : Option LsDest) (s : State) : State :=
  let a := { a with id := s.nonce }
  e.lsDone a d (meetsPlaces (e.lsMeets a s)) s

/-- Execute an access in the frame of R179 for the lanes given, their sources already read. -/
def lsExec (e : Env) (a : Access) (d : Option LsDest) (s : State) : Except Stop State := do
  let a := { a with id := s.nonce }
  need a.aligned cDataAlign (lanesMask ((a.lanes.filter (fun l => l.ea % a.n != 0)).map (·.lane)))
  let pasid := e.blk.pasid
  let ms := e.lsMeets a s
  let miss := meetsMissing ms
  if e.strand && (miss ≠ [] || (e.lsQueued a s && (firstCause (ms.map (fun p => (p.1.lane, p.2)))).isNone)) then
    .ok (((e.lsLprs a (e.lsPut a d 0 s)).modStrand e.c (fun t => { t with deferred := t.deferred ++ [⟨a, e.warp.rix, e.pc, false⟩] })).startWalks
      e.c pasid a.kind.writes false .strand miss)
  else if miss ≠ [] then
    .error (.wait .translate (fun s => s.startWalks e.c pasid a.kind.writes false (.path e.w e.alt) miss))
  else
    match firstCause (ms.map (fun p => (p.1.lane, p.2))) with
    | some (c, m) =>
      .error (.trapWith c m (fun s => if a.space = 0 then faultEvent e.c pasid c ms (e.lsLprs a s) else s))
    | none =>
      let l := meetsPlaces ms
      if lsAbsent a l s then .error (.wait .presence id)
      else if (s.core e.c).freeEntries < lsLines l then .error (.wait (.requests (lsLines l)) id)
      else
        match (e.lsFences a l s).find? (fun d => !e.settledNow s d) with
        | some d => .error (.wait (.fence s.nonce d) id)
        | none => if e.lsHome a l s then .error (.wait .home id) else .ok (e.lsDone a d l s)

/-! ## Loads and stores (R181 to R183) -/

/-- Registers of n bytes. -/
def regsOf (n : Nat) : Nat := if n < 4 then 1 else n / 4

/-- An access of some lanes with their addresses and data; it gets its identity when it is executed. -/
def accessOf (kind : AccKind) (space : BitVec 2) (scope n : Nat) (acq rel : Bool) (hint : Nat) (lanes : List Nat)
    (ea : Nat → Nat) (data cmp : Nat → List W32) : Access :=
  ⟨kind, space.toNat, scope, n, acq, rel, hint, 0, lanes.map (fun l => ⟨l, ea l, data l, cmp l⟩)⟩

/-- The latency of a load's result: 12 from a scratchpad, free otherwise (R54). -/
def loadDest (space : BitVec 2) (regs : List Nat) (varAlways : Bool) : LsDest :=
  ⟨.v, regs, if space == 0 || varAlways then 0 else 12, space == 0 || varAlways⟩

/-- LD and LD.ACQ: address in A, offset from the index or the immediate, registers from D. -/
def loadBody (mod : BitVec 3) (space : BitVec 2) (scope hint : Nat) (acq : Bool) (d a : Code) (idx : List Opnd)
    (off : Env → Nat → W64) : Body := fun e s => do
  let n := 2 ^ mod.toNat
  let k := regsOf n
  let ad := lsAddr space 0 a
  e.field (addrClass space a)
  e.sources (ad :: idx)
  e.field (e.groupOk d k)
  e.landed (ad :: idx)
  let lanes := lanesOf e.act
  if lanes = [] then .ok s
  else lsExec e (accessOf .load space scope n acq false hint lanes (fun l => effAddr space (ad.val e l) (off e l))
      (fun _ => []) (fun _ => [])) (some (loadDest space (e.phys d.toNat k) acq)) s

/-- ST: address in D, data registers in A (R176). -/
def storeBody (mod : BitVec 3) (space : BitVec 2) (scope hint : Nat) (d a : Code) (idx : List Opnd)
    (off : Env → Nat → W64) : Body := fun e s => do
  let n := 2 ^ mod.toNat
  let k := regsOf n
  let ad := lsAddr space noPort d
  e.field (addrClass space d)
  e.sources (ad :: idx)
  e.field (e.dataOk a k)
  e.landed (ad :: idx)
  e.dataLanded a k
  let lanes := lanesOf e.act
  if lanes = [] then .ok s
  else lsExec e (accessOf .store space scope n false false hint lanes (fun l => effAddr space (ad.val e l) (off e l))
      (e.dataWords a k) (fun _ => [])) none s

/-- ST.REL's data operand, which R33 lets be any source: a register or a pair, a constant or a port (R176). -/
def storeRelData (mod : BitVec 3) (a : Code) : Opnd := ⟨3, 0, 0, a, 2 ^ mod.toNat == 8, false⟩

/-- ST.REL: address in D, a source operand of 4 or 8 bytes in A (R176). -/
def storeRelBody (mod : BitVec 3) (space : BitVec 2) (scope hint : Nat) (d a : Code) (idx : List Opnd)
    (off : Env → Nat → W64) : Body := fun e s => do
  let n := 2 ^ mod.toNat
  let ad := lsAddr space noPort d
  let o := storeRelData mod a
  e.field (addrClass space d)
  e.sources (ad :: o :: idx)
  e.landed (ad :: o :: idx)
  let lanes := lanesOf e.act
  if lanes = [] then .ok s
  else lsExec e (accessOf .store space scope n false true hint lanes (fun l => effAddr space (ad.val e l) (off e l))
      (fun l => o.wordsOf e l n) (fun _ => [])) none s

/-- In a strand an instruction that acts once is legal in a lane slot only (R178). -/
def Env.notVector (e : Env) : Except Stop Unit :=
  e.enc (!e.inVector)

/-- LDW: once, for the lowest active lane, into w registers (R181). -/
def ldwBody (mod : BitVec 3) (space : BitVec 2) (scope hint : Nat) (d a : Code) (idx : List Opnd)
    (off : Env → Nat → W64) : Body := fun e s => do
  let n := 2 ^ mod.toNat
  let k := regsOf n
  let ad := lsAddr space 0 a
  e.notVector
  e.field (addrClass space a)
  e.sources (ad :: idx)
  e.dstW d (k == 2)
  e.landed (ad :: idx)
  match lowest e.act with
  | none => .ok s
  | some l =>
    lsExec e (accessOf .load space scope n false false hint [l] (fun l => effAddr space (ad.val e l) (off e l))
        (fun _ => []) (fun _ => []))
      (some ⟨.w, (List.range k).map (fun i => d.toNat - 384 + i), 0, true⟩) s

/-- The offset that a trigger form takes from B (R166). -/
def idxOff (b : Code) (e : Env) (l : Nat) : W64 := ((⟨3, 1, 0, b, false, false⟩ : Opnd).val32 e l).signExtend 64

/-- B of a trigger form as an operand. -/
def idxOpnd (b : Code) : List Opnd := [⟨3, 1, 0, b, false, false⟩]

/-- The offset of an immediate form (R166). -/
def immOff (i : BitVec 20) (_ : Env) (_ : Nat) : W64 := i.signExtend 64

def bodyLd (f : L2) : Body :=
  loadBody f.mod f.space f.scope.toNat f.hint.toNat false f.d f.a (idxOpnd f.b) (idxOff f.b)
def bodyLdI (f : LI) : Body :=
  loadBody f.mod f.space f.scope.toNat 0 false f.d f.a [] (immOff f.imm)
def bodySt (f : L2) : Body :=
  storeBody f.mod f.space f.scope.toNat f.hint.toNat f.d f.a (idxOpnd f.b) (idxOff f.b)
def bodyStI (f : LI) : Body :=
  storeBody f.mod f.space f.scope.toNat 0 f.d f.a [] (immOff f.imm)
def bodyLdw (f : L2) : Body :=
  ldwBody f.mod f.space f.scope.toNat f.hint.toNat f.d f.a (idxOpnd f.b) (idxOff f.b)
def bodyLdwI (f : LI) : Body :=
  ldwBody f.mod f.space f.scope.toNat 0 f.d f.a [] (immOff f.imm)
def bodyLdAcq (f : L2) : Body :=
  loadBody f.mod f.space f.scope.toNat f.hint.toNat true f.d f.a (idxOpnd f.b) (idxOff f.b)
def bodyLdAcqI (f : LI) : Body :=
  loadBody f.mod f.space f.scope.toNat 0 true f.d f.a [] (immOff f.imm)
def bodyStRel (f : L2) : Body :=
  storeRelBody f.mod f.space f.scope.toNat f.hint.toNat f.d f.a (idxOpnd f.b) (idxOff f.b)
def bodyStRelI (f : LI) : Body :=
  storeRelBody f.mod f.space f.scope.toNat 0 f.d f.a [] (immOff f.imm)

/-- LD.RACQ: the core that B's w register names drains its write buffer at device scope first (R183). -/
def bodyLdRacq (f : L2) : Body := fun e s => do
  e.notVector
  let n := 2 ^ f.mod.toNat
  let k := regsOf n
  let ad := lsAddr f.space 0 f.a
  let b : Opnd := ⟨3, 1, 0, f.b, false, false⟩
  e.field (addrClass f.space f.a && isW f.b)
  e.sources [ad, b]
  e.field (e.groupOk f.d k)
  e.landed [ad, b]
  let lanes := lanesOf e.act
  if lanes = [] then .ok s
  else do
    let c := (b.val32 e 0).toNat
    need (c < 576) cIllegalOperand e.act
    let acc := accessOf .load 0 f.scope.toNat n true false f.hint.toNat lanes
      (fun l => effAddr f.space (ad.val e l) 0) (fun _ => []) (fun _ => [])
    let t ← lsExec e acc (some (loadDest f.space (e.phys f.d.toNat k) true)) s
    if c = e.c then .ok t
    else do
      e.await .racq (fun s => s.modCore c (fun x => { x with promo := x.promo ++ [⟨e.c, e.w, e.alt, s.nonce⟩] }))
      .ok t

/-! ## Atomics (R184, R185) -/

/-- ATOM, ATOM.X, CAS and CAS.X: address in A, operands in B and C, old value in D. -/
def atomBody (kind : AccKind) (n : Nat) (space : BitVec 2) (scope hint : Nat) (d a : Code) (data cmp : List Opnd) : Body :=
  fun e s => do
  let ad := lsAddr space 0 a
  let k := regsOf n
  e.field (addrClass space a)
  e.sources (ad :: (data ++ cmp))
  e.field (e.groupOk d k)
  e.landed (ad :: (data ++ cmp))
  let lanes := lanesOf e.act
  if lanes = [] then .ok s
  else lsExec e (accessOf kind space scope n false false hint lanes (fun l => effAddr space (ad.val e l) 0)
      (fun l => data.flatMap (fun o => o.wordsOf e l n)) (fun l => cmp.flatMap (fun o => o.wordsOf e l n)))
        (some ⟨.v, e.phys d.toNat k, 0, true⟩) s

def bodyAtom (f : L2) : Body :=
  atomBody (.atom f.mod.toNat) 4 f.space f.scope.toNat f.hint.toNat f.d f.a [⟨3, 1, 0, f.b, false, false⟩] []
def bodyAtomX (f : L2) : Body :=
  atomBody (.atom f.mod.toNat) 8 f.space f.scope.toNat f.hint.toNat f.d f.a [⟨3, 1, 0, f.b, true, false⟩] []

/-- CAS: B is compared, C is new. -/
def bodyCas (f : L3) : Body :=
  atomBody .cas 4 f.space f.scope.toNat 0 f.d f.a [⟨3, 1, 0, f.b, false, false⟩] [⟨3, 2, 0, f.c, false, false⟩]
def bodyCasX (f : L3) : Body :=
  atomBody .cas 8 f.space f.scope.toNat 0 f.d f.a [⟨3, 1, 0, f.b, true, false⟩] [⟨3, 2, 0, f.c, true, false⟩]

/-- RED: address in D, operand in A, no result (R176, R184). -/
def bodyRed (f : L2) : Body := fun e s => do
  let ad := lsAddr f.space noPort f.d
  let o : Opnd := ⟨3, 0, 0, f.a, false, false⟩
  e.field (addrClass f.space f.d)
  e.sources [ad, o]
  e.landed [ad, o]
  let lanes := lanesOf e.act
  if lanes = [] then .ok s
  else lsExec e (accessOf (.red f.mod.toNat) f.space f.scope.toNat 4 false false f.hint.toNat lanes
      (fun l => effAddr f.space (ad.val e l) 0) (fun l => [o.val32 e l]) (fun _ => [])) none s

/-! ## Fences (R186, R211) -/

/-- Everything earlier has been performed, then the cache action of the acquire. -/
def bodyFenceFull (f : L2) : Body := fun e s => do
  e.notVector
  e.settled s (s.drains e.c f.scope.toNat)
  .ok (s.acquire e.c f.scope.toNat)

/-- The earlier reads have been performed, then the cache action. -/
def bodyFenceAcq (f : L2) : Body := fun e s => do
  e.notVector
  e.settled s false
  .ok (s.acquire e.c f.scope.toNat)

/-- Later writes of the warp wait behind what is pending now (R186, R197). -/
def Env.release (e : Env) (scope : Nat) (s : State) : State :=
  if s.performed e.c e.w s.nonce (s.drains e.c scope) then s
  else (s.modWarp e.c e.w (fun w => { w with relSeq := s.nonce })).tickNonce

/-- The path goes on at once; later writes wait behind what is pending now. -/
def bodyFenceRel (f : L2) : Body := fun e s => do
  e.notVector
  .ok (e.release f.scope.toNat s)

/-- Has every copy and marbling request that threads of a warp issued as a path been released (R211)? A PFL2 has no entry of
the clasp table. -/
def Core.enginesDone (k : Core) (w : Nat) (threads : W32) : Bool :=
  k.copy.all (fun q => q.2.op == .pfl2 || !(q.2.warp == w && q.2.by_ &&& threads != 0))
    && k.mar.slots.all (fun q => !(q.2.warp == w && q.2.by_ &&& threads != 0))
    && !(k.kick != 0 && (match k.kickBy with | some (_, x, m) => x == w && m &&& threads != 0 | none => false))

/-- The path's engine requests have released their clasp entries; then as FENCE.ACQ, and as the release that R197 names. -/
def bodyFenceEng (f : L2) : Body := fun e s => do
  e.notVector
  if (s.core e.c).enginesDone e.w e.path.mask then .ok () else e.await .engines id
  e.settled s false
  .ok (e.release f.scope.toNat (s.acquire e.c f.scope.toNat))

/-! ## Barrier objects (R187 to R191) -/

/-- The address of an object in the lowest active lane, checked in the order of R179; it need not be an
object yet for BARINIT. -/
def Env.barPlace (e : Env) (s : State) (space : BitVec 2) (ad : Opnd) (lane : Nat) (write init : Bool) :
    Except Stop (Nat × Nat × Nat) := do
  let ea := effAddr space (ad.val e lane) 0
  need (ea % 16 == 0) cDataAlign (bit lane)
  match s.meetScratch e.c e.blk.grid e.warp.rix space.toNat (if write then .store else .load) 16 ea with
  | .at (.scr tc r off) => do
    need (init || (Bar.read (s.scratchRead tc r off 16)).2) cFormat (bit lane)
    .ok (tc, r, off)
  | .trap c _ => .error (.trap c (bit lane))
  | _ => .error (.trap cAccess (bit lane))

/-- Earlier accesses of the issuer that an operation on an object must follow: a strand's acquire, and for a write what stands
before a FENCE.REL (R182, R186). -/
def Env.barOrder (e : Env) (write : Bool) (s : State) : Except Stop Unit := do
  if e.acqBehind s then e.settled s false else .ok ()
  if write && e.relBehind s true then e.settled s true else .ok ()

/-- A count of 1 to 65,535 (R189, R190). -/
def countOk (n : Nat) : Bool := decide (1 ≤ n ∧ n ≤ 65535)

/-- An arrival of a strand follows its accesses that wait for a translation, in their order (R190, R198). -/
def Env.laterArrive (e : Env) (space : BitVec 2) (scope lane ea : Nat) (n : W32) (s : State) : State :=
  (s.modStrand e.c (fun t => { t with deferred := t.deferred ++
    [⟨⟨.store, space.toNat, scope, 16, false, true, 0, s.nonce, [⟨lane, ea, [n], []⟩]⟩, e.warp.rix, e.pc, false⟩] })).tickNonce

def bodyArrive (f : L2) : Body := fun e s => do
  e.notVector
  let ad := lsAddr f.space 0 f.a
  let b : Opnd := ⟨3, 1, 0, f.b, false, false⟩
  e.sources [ad, b]
  e.dstW f.d false
  e.landed [ad, b]
  match lowest e.act with
  | none => .ok s
  | some l => do
    let n := (b.val32 e l).toNat
    need (countOk n) cIllegalOperand (bit l)
    let p ← e.barPlace s f.space ad l true false
    let ph := (Bar.read (s.scratchRead p.1 p.2.1 p.2.2 16)).1.ph
    e.barOrder false s
    let s := e.askObject f.space l p (e.put 3 2 false .w [f.d.toNat - 384] (bit l) [if ph then 1 else 0] s)
    if e.behindWalk s then
      .ok (e.laterArrive f.space f.scope.toNat l (effAddr f.space (ad.val e l) 0) (BitVec.ofNat 32 n) s)
    else if s.performed e.c e.w s.nonce (s.drains e.c f.scope.toNat) && !e.relBehind s true then
      .ok (s.barOp p.1 p.2.1 p.2.2 (Bar.arrive n))
    else .ok (s.wbPush e.c e.w 0 (.arrive p.1 p.2.1 p.2.2 n) true)

/-- WAITPH: the phase differs from the token, then the acquire. -/
def bodyWaitph (f : L2) : Body := fun e s => do
  e.notVector
  let ad := lsAddr f.space 0 f.a
  let b : Opnd := ⟨3, 1, 0, f.b, false, false⟩
  e.sources [ad, b]
  e.landed [ad, b]
  match lowest e.act with
  | none => .ok s
  | some l => do
    let tok := (b.val32 e l).getLsbD 0
    let p ← e.barPlace s f.space ad l false false
    e.barOrder false s
    if (Bar.read (s.scratchRead p.1 p.2.1 p.2.2 16)).1.ph != tok then
      .ok (e.askObject f.space l p (s.acquire e.c f.scope.toNat))
    else do
      e.await (.phase p.1 p.2.1 p.2.2 tok) (e.askObject f.space l p)
      .ok (s.acquire e.c f.scope.toNat)

/-- TRYPH: one look at the phase, and the acquire when it differs. -/
def bodyTryph (f : L2) : Body := fun e s => do
  e.notVector
  let ad := lsAddr f.space 0 f.a
  let b : Opnd := ⟨3, 1, 0, f.b, false, false⟩
  e.sources [ad, b]
  e.dstQ f.d
  e.landed [ad, b]
  match lowest e.act with
  | none => .ok s
  | some l => do
    let tok := (b.val32 e l).getLsbD 0
    let p ← e.barPlace s f.space ad l false false
    e.barOrder false s
    let yes := (Bar.read (s.scratchRead p.1 p.2.1 p.2.2 16)).1.ph != tok
    let s := e.askObject f.space l p (if yes then s.acquire e.c f.scope.toNat else s)
    .ok (e.put 3 12 false .pred [(f.d.extractLsb' 0 4).toNat] e.act [if yes then e.act else 0] s)

def bodyBarinit (f : L2) : Body := fun e s => do
  e.notVector
  let ad := lsAddr f.space 0 f.a
  let b : Opnd := ⟨3, 1, 0, f.b, false, false⟩
  e.sources [ad, b]
  e.landed [ad, b]
  match lowest e.act with
  | none => .ok s
  | some l => do
    let n := (b.val32 e l).toNat
    need (countOk n) cIllegalOperand (bit l)
    let p ← e.barPlace s f.space ad l true true
    e.barOrder true s
    .ok (((e.askObject f.space l p s).scratchPut p.1 p.2.1 p.2.2 (Bar.init n).write).recheck p.1 p.2.1 p.2.2 16)

/-! ## PRES and CCTL (R193, R194) -/

/-- Where the byte of a lane of PRES lies; none when its address is in no window. -/
def Env.presPlace (e : Env) (s : State) (space : BitVec 2) (ad : Opnd) (l : Nat) : Option (Nat × Nat × Nat) :=
  let ea := effAddr space (ad.val e l) 0
  if space == 1 then (if ea < e.blk.window then some (e.c, e.warp.rix, ea) else none)
  else s.remoteTarget e.c e.blk.grid ea 1

/-- PRES: the presence of each lane's line; it never parks and meets no clasp entry. -/
def bodyPres (f : L2) : Body := fun e s => do
  let ad := lsAddr f.space 0 f.a
  e.sources [ad]
  e.dstQ f.d
  e.landed [ad]
  let at_ := e.presPlace s f.space ad
  let bad := (lanesOf e.act).filter (fun l => (at_ l).isNone)
  need (bad == []) cAccess (lanesMask bad)
  .ok (e.put 3 2 false .pred [(f.d.extractLsb' 0 4).toNat] e.act
    [maskOf (fun l => e.act.getLsbD l &&
      (match at_ l with | some p => s.linePresent p.1 p.2.1 (p.2.2 / 128) | none => false))] s)

/-- The physical address of a lane for CCTL: none when the address has no valid translation. -/
def Env.cctlPa (e : Env) (s : State) (ad : Opnd) (l : Nat) : Option Nat :=
  let ea := effAddr 0 (ad.val e l) 0
  if !canonical ea then none
  else
    match (match (s.core e.c).lookup l e.blk.pasid ea false with
      | some t => Except.ok t
      | none => s.xlateNow e.c e.blk.pasid ea false) with
    | .ok t => if t.tgt = 0 then some (t.phys ea) else none
    | .error _ => none

/-- The frame of the CCTL forms that name a line. -/
def cctlBody (f : L2) (g : Env → Nat → State → State) : Body := fun e s => do
  let ad := lsAddr 0 0 f.a
  e.field (addrClass 0 f.a)
  e.sources [ad]
  e.landed [ad]
  .ok ((lanesOf e.act).foldl (fun s l => match e.cctlPa s ad l with | some pa => g e pa s | none => s) s)

def bodyCctlInvl (f : L2) : Body := cctlBody f (fun e pa s => s.l1Drop e.c pa)

/-- Every line of the L1, or of every slice of a fused one (R194). -/
def bodyCctlInvall (_f : L2) : Body := fun e s => .ok (if e.act = 0 then s else s.acquire e.c 5)

/-- The line is fetched into its home L2 and into the L1. -/
def bodyCctlPref (f : L2) : Body := cctlBody f (fun e pa s =>
  let s := { s with l2 := if (s.l2.find? (pa / 128)).isSome then s.l2 else s.l2.put (pa / 128) 0 }
  (s.l1Read e.c pa 1 0).2)

/-- The line is first to be evicted in its home L2. -/
def bodyCctlEvf (f : L2) : Body := cctlBody f (fun _ pa s => { s with l2 := s.l2.put (pa / 128) 1 })

/-! ## Meanings of the constructors -/

/-- The meaning of ld (R181). -/
def execLd (f : L2) (s : State) : Host.Outcome State Fault Refusal :=
  issue (costOf (.ld f)) f.g (bodyLd f) s

/-- The meaning of ldI (R181). -/
def execLdI (f : LI) (s : State) : Host.Outcome State Fault Refusal :=
  issue (costOf (.ldI f)) f.g (bodyLdI f) s

/-- The meaning of st (R181). -/
def execSt (f : L2) (s : State) : Host.Outcome State Fault Refusal :=
  issue (costOf (.st f)) f.g (bodySt f) s

/-- The meaning of stI (R181). -/
def execStI (f : LI) (s : State) : Host.Outcome State Fault Refusal :=
  issue (costOf (.stI f)) f.g (bodyStI f) s

/-- The meaning of ldw (R181). -/
def execLdw (f : L2) (s : State) : Host.Outcome State Fault Refusal :=
  issue (costOf (.ldw f)) f.g (bodyLdw f) s

/-- The meaning of ldwI (R181). -/
def execLdwI (f : LI) (s : State) : Host.Outcome State Fault Refusal :=
  issue (costOf (.ldwI f)) f.g (bodyLdwI f) s

/-- The meaning of ldAcq (R182). -/
def execLdAcq (f : L2) (s : State) : Host.Outcome State Fault Refusal :=
  issue (costOf (.ldAcq f)) f.g (bodyLdAcq f) s

/-- The meaning of ldAcqI (R182). -/
def execLdAcqI (f : LI) (s : State) : Host.Outcome State Fault Refusal :=
  issue (costOf (.ldAcqI f)) f.g (bodyLdAcqI f) s

/-- The meaning of stRel (R182). -/
def execStRel (f : L2) (s : State) : Host.Outcome State Fault Refusal :=
  issue (costOf (.stRel f)) f.g (bodyStRel f) s

/-- The meaning of stRelI (R182). -/
def execStRelI (f : LI) (s : State) : Host.Outcome State Fault Refusal :=
  issue (costOf (.stRelI f)) f.g (bodyStRelI f) s

/-- The meaning of atom (R184). -/
def execAtom (f : L2) (s : State) : Host.Outcome State Fault Refusal :=
  issue (costOf (.atom f)) f.g (bodyAtom f) s

/-- The meaning of cas (R185). -/
def execCas (f : L3) (s : State) : Host.Outcome State Fault Refusal :=
  issue (costOf (.cas f)) f.g (bodyCas f) s

/-- The meaning of red (R184). -/
def execRed (f : L2) (s : State) : Host.Outcome State Fault Refusal :=
  issue (costOf (.red f)) f.g (bodyRed f) s

/-- The meaning of atomX (R184). -/
def execAtomX (f : L2) (s : State) : Host.Outcome State Fault Refusal :=
  issue (costOf (.atomX f)) f.g (bodyAtomX f) s

/-- The meaning of casX (R185). -/
def execCasX (f : L3) (s : State) : Host.Outcome State Fault Refusal :=
  issue (costOf (.casX f)) f.g (bodyCasX f) s

/-- The meaning of fenceFull (R186). -/
def execFenceFull (f : L2) (s : State) : Host.Outcome State Fault Refusal :=
  issue (costOf (.fenceFull f)) f.g (bodyFenceFull f) s

/-- The meaning of fenceAcq (R186). -/
def execFenceAcq (f : L2) (s : State) : Host.Outcome State Fault Refusal :=
  issue (costOf (.fenceAcq f)) f.g (bodyFenceAcq f) s

/-- The meaning of fenceRel (R186). -/
def execFenceRel (f : L2) (s : State) : Host.Outcome State Fault Refusal :=
  issue (costOf (.fenceRel f)) f.g (bodyFenceRel f) s

/-- The meaning of fenceEng (R211). -/
def execFenceEng (f : L2) (s : State) : Host.Outcome State Fault Refusal :=
  issue (costOf (.fenceEng f)) f.g (bodyFenceEng f) s

/-- The meaning of ldRacq (R183). -/
def execLdRacq (f : L2) (s : State) : Host.Outcome State Fault Refusal :=
  issue (costOf (.ldRacq f)) f.g (bodyLdRacq f) s

/-- The meaning of arrive (R190). -/
def execArrive (f : L2) (s : State) : Host.Outcome State Fault Refusal :=
  issue (costOf (.arrive f)) f.g (bodyArrive f) s

/-- The meaning of waitph (R191). -/
def execWaitph (f : L2) (s : State) : Host.Outcome State Fault Refusal :=
  issue (costOf (.waitph f)) f.g (bodyWaitph f) s

/-- The meaning of tryph (R191). -/
def execTryph (f : L2) (s : State) : Host.Outcome State Fault Refusal :=
  issue (costOf (.tryph f)) f.g (bodyTryph f) s

/-- The meaning of barinit (R189). -/
def execBarinit (f : L2) (s : State) : Host.Outcome State Fault Refusal :=
  issue (costOf (.barinit f)) f.g (bodyBarinit f) s

/-- The meaning of pres (R193). -/
def execPres (f : L2) (s : State) : Host.Outcome State Fault Refusal :=
  issue (costOf (.pres f)) f.g (bodyPres f) s

/-- The meaning of cctlInvl (R194). -/
def execCctlInvl (f : L2) (s : State) : Host.Outcome State Fault Refusal :=
  issue (costOf (.cctlInvl f)) f.g (bodyCctlInvl f) s

/-- The meaning of cctlInvall (R194). -/
def execCctlInvall (f : L2) (s : State) : Host.Outcome State Fault Refusal :=
  issue (costOf (.cctlInvall f)) f.g (bodyCctlInvall f) s

/-- The meaning of cctlPref (R194). -/
def execCctlPref (f : L2) (s : State) : Host.Outcome State Fault Refusal :=
  issue (costOf (.cctlPref f)) f.g (bodyCctlPref f) s

/-- The meaning of cctlEvf (R194). -/
def execCctlEvf (f : L2) (s : State) : Host.Outcome State Fault Refusal :=
  issue (costOf (.cctlEvf f)) f.g (bodyCctlEvf f) s

end Sys2Proof.Machine
end

