-- ==== Sys2Proof/Machine/Image.lean ====
section
/-! DEFINITION. The module image: the header of a copy, when a copy is valid, and the copy that the boot ROM selects (R437). -/

namespace Sys2Proof.Machine

/-- n bytes of a copy of the image from a byte on: f is what has been written to the flash window, b is copy B. -/
def imageBytes (f : SMap W32) (b : Bool) (at_ n : Nat) : List Byte := (List.range n).map (fun i => Config.imageByte f b (at_ + i))

/-- Word k of the header of a copy: 0 MAGIC, 1 IVER, 2 SIZE, 3 SOFF, 4 and 5 SERIAL, 8 to 15 DIGEST. -/
def imageWord (f : SMap W32) (b : Bool) (k : Nat) : W32 := BitVec.ofNat 32 (bytesNat (imageBytes f b (4 * k) 4))

/-- Bytes of an LMS signature with LMS_SHA256_M32_H15 and LMOTS_SHA256_N32_W4: leaf number, one-time signature of 67 chains, type
and path (RFC 8554). -/
def lmsBytes : Nat := 4 + (4 + 32 + 67 * 32) + 4 + 15 * 32

/-- A copy is valid: magic, size, digest and signature all check. -/
def imageValid (f : SMap W32) (b : Bool) : Bool :=
  let size := (imageWord f b 2).toNat
  imageWord f b 0 == 0x594D4245 && size % 4096 == 0 && Config.sha256 (imageBytes f b 64 size) == imageBytes f b 32 32
    && Config.lmsVerifies (imageBytes f b 0 (64 + size)) (imageBytes f b (imageWord f b 3).toNat lmsBytes)

/-- The copy that is booted: the valid one of higher IVER, A when the two are equal; none when neither is valid. -/
def imageChosen (f : SMap W32) : Option Bool :=
  match imageValid f false, imageValid f true with
  | true, true => some (decide ((imageWord f false 1).toNat < (imageWord f true 1).toNat))
  | true, false => some false
  | false, true => some true
  | false, false => none

/-- Word k of the booted copy's header (R438, R441). -/
def Boot.header (b : Boot) (k : Nat) : W32 :=
  match b.image with
  | some x => imageWord x.2 x.1 k
  | none => Config.unbooted b.resets k

end Sys2Proof.Machine
end

