-- ==== Sys2Proof/Machine/Gov.lean ====
section
/-! DEFINITION. The governor of a core: ceilings, budgets, requests, the effective point and its settling
(R381 to R391), and the instructions PCLASS, OPSEL and GRANT (R385 to R387). -/

namespace Sys2Proof.Machine

/-! ## The grant register in force (R383, R384) -/

/-- Entry k of the class map. -/
def Gov.pmap (g : Gov) (k : Nat) : Nat := (g.grant.extractLsb' (24 + 3 * k) 3).toNat

/-- The energy budget that the manager grants, in units of 8 pJ; 0 = none. -/
def Gov.ebudget (g : Gov) : Nat := (g.grant.extractLsb' 8 16).toNat

/-- Every block of the core has permission. -/
def Gov.opperm (g : Gov) : Bool := g.grant.getLsbD 3

/-- The ceiling granted by the manager. -/
def Gov.mceil (g : Gov) : Nat := (g.grant.extractLsb' 0 3).toNat

/-- The ceiling (R381). -/
def Gov.ceil (g : Gov) : Nat := min g.mceil g.clim

/-- The energy budget B (R384); 0 = none. -/
def Gov.budget (g : Gov) : Nat :=
  if g.ebudget = 0 then g.blim else if g.blim = 0 then g.ebudget else min g.ebudget g.blim

/-! ## The effective point and its settling (R381, R389, R390) -/

/-- The highest request of the resident blocks; none when no block is resident. -/
def Core.request (k : Core) : Option Nat :=
  k.blocks.foldl (fun acc b =>
    let r := b.2.opreq.getD 7
    match acc with | some x => some (max x r) | none => some r) none

/-- EFF (R381). -/
def Core.effPoint (k : Core) : Nat :=
  match k.request with
  | some r => min k.gov.ceil r
  | none => 0

/-- EFF becomes e: a rise begins or changes; a fall waits for the next cycle edge (R389). -/
def Gov.follow (g : Gov) (e : Nat) (held : Bool) : Gov :=
  if e ≤ g.run then { g with eff := e }
  else if g.set && decide (g.run < g.eff) then
    let n := ((g.srem : Int) + 192 * ((e : Int) - g.eff)).toNat
    { g with eff := e, srem := n, pending := g.pending && n == 0 }
  else if held then { g with eff := e, deferred := true, pending := false }
  else { g with eff := e, set := true, srem := 192 * (e - g.run), pending := false }

/-- EFF is recomputed: at a request, a placement, an end of a block, a change of a grant or a self-limit
(R381); between the rise of a kettle line and its release a rise is deferred (R390). -/
def Core.recompute (k : Core) : Core := { k with gov := k.gov.follow k.effPoint k.ck.align.isSome }

/-- EFF is recomputed at a time in the core's cycle, whose end the state has counted already when the next one is still to begin:
what that end brings about is then made up for, a fall and a completion at the coming edge, and the first decrement of a
rise (R389). -/
def Core.recomputeAt (k : Core) (time : Nat) : Core :=
  let k' := k.recompute
  let g := k'.gov
  if k.ck.edge ≤ time then k'
  else if g.eff ≤ g.run then { k' with gov := { g with pending := g.set || decide (g.eff < g.run) } }
  else if k.gov.set && decide (k.gov.run < k.gov.eff) then { k' with gov := { g with pending := g.set && g.srem == 0 } }
  else { k' with gov := { g with srem := g.srem - 1 } }

/-- A deferred rise begins in the first cycle after the release (R390). -/
def Gov.release (g : Gov) : Gov :=
  if g.deferred then { g with deferred := false }.follow g.eff false else g

/-- RUN follows a fall at a cycle edge, and a settling that has counted down is complete there (R389). -/
def Gov.edge (g : Gov) : Gov :=
  if g.eff ≤ g.run then { g with run := g.eff, set := false, srem := 0, deferred := false, pending := false }
  else if g.set && g.srem == 0 then { g with pending := true } else g

/-- The end of a cycle: a settling count falls by one (R389). -/
def Core.govEdge (k : Core) : Core := { k with gov := { k.gov with srem := k.gov.srem - 1 }.edge }

/-- The self-limit register with what a GRANT has written to it. -/
def Gov.limited (g : Gov) : Gov :=
  match g.slim with | some x => { g with clim := x.1, blim := x.2, slim := none } | none => g

/-- At a core's cycle edge the grant register's value and a GRANT's take effect (R383, R387). -/
def Core.grantEdge (k : Core) (cgrant : W64) : Core :=
  let k := { k with gov := { k.gov.limited with grant := cgrant } }.recompute
  { k with gov := k.gov.edge }

/-- The settling is complete: RUN := EFF (R389). -/
def Gov.settle (g : Gov) : Gov := { g with run := g.eff, set := false, srem := 0, pending := false }

/-- `%oppoint` (R388). -/
def Gov.oppoint (g : Gov) : W32 :=
  BitVec.ofNat 32 (g.srem % 2 ^ 12 * 2 ^ 16 + (if g.set then 2 ^ 11 else 0) + g.ceil * 2 ^ 8 + g.eff * 2 ^ 4 + g.run)

/-! ## Instructions (R385 to R387) -/

/-- The path may name an operating point itself (R382). -/
def Env.opPerm (e : Env) : Bool := e.core.gov.opperm || e.warp.priv

/-- A block's request (R381). -/
def State.requestPoint (s : State) (c rix n : Nat) : State :=
  (s.modBlock c rix (fun b => { b with opreq := some n })).modCore c (·.recompute)

/-- The value of an instruction that acts once, in its elected lane; nothing acts when there is none
(R385, R411). -/
def Env.once (e : Env) (a : Opnd) (f : Nat → W32 → Except Stop State) (s : State) : Except Stop State :=
  match e.elected with
  | none => .ok s
  | some l => f l (a.val32 e l)

/-- PCLASS k: the point of class-map entry k. -/
def bodyPclass (f : F2) : Body := fun e s => do
  let a ← e.plainSrc 7 f.a
  e.landed [a]
  e.once a (fun l x => do
    need (decide (x.toNat < 8)) cIllegalOperand (bit l)
    .ok (s.requestPoint e.c e.warp.rix (e.core.gov.pmap x.toNat))) s

def bodyPclassI (f : FI) : Body := fun e s => do
  e.field (decide (f.imm.toNat < 8))
  .ok (if e.elected.isNone then s else s.requestPoint e.c e.warp.rix (e.core.gov.pmap f.imm.toNat))

/-- OPSEL n: point n, with permission. -/
def bodyOpsel (f : F2) : Body := fun e s => do
  need e.opPerm cPrivilege e.dec
  let a ← e.plainSrc 7 f.a
  e.landed [a]
  e.once a (fun l x => do
    need (decide (x.toNat < 8)) cIllegalOperand (bit l)
    .ok (s.requestPoint e.c e.warp.rix x.toNat)) s

def bodyOpselI (f : FI) : Body := fun e s => do
  need e.opPerm cPrivilege e.dec
  e.field (decide (f.imm.toNat < 8))
  .ok (if e.elected.isNone then s else s.requestPoint e.c e.warp.rix f.imm.toNat)

/-- The SLIM word of GRANT has its zero bits zero (R387). -/
def slimOk (x : W32) : Bool := x.extractLsb' 24 7 == 0 && x.extractLsb' 3 5 == 0

/-- Write SLIM from the next cycle edge on (R384, R387). -/
def Gov.setSlim (g : Gov) (x : W32) : Gov :=
  { g with slim := some ((x.extractLsb' 0 3).toNat, (x.extractLsb' 8 16).toNat) }

/-- The grant view, with what has been written to SLIM (R387). -/
def Gov.view (g : Gov) : W32 :=
  let g := g.limited
  BitVec.ofNat 32 (g.budget * 2 ^ 8 + (if g.opperm then 2 ^ 6 else 0) + g.mceil * 2 ^ 3 + g.ceil)

/-- GRANT: write SLIM when WR is 1, then read the view (R387). -/
def bodyGrant (f : F2) : Body := fun e s => do
  need e.warp.priv cPrivilege e.dec
  e.dstVW f.d false
  let a ← e.plainSrc 7 f.a
  e.landed [a]
  e.once a (fun l x => do
    need (slimOk x) cIllegalOperand (bit l)
    let s := if x.getLsbD 31 then
        s.modCore e.c (fun k => { k with gov := k.gov.setSlim x })
      else s
    .ok (e.putVW 7 0 true f.d false ((s.core e.c).gov.view.setWidth 64) s)) s

/-! ## Meanings of the constructors -/

/-- The meaning of pclass (R386). -/
def execPclass (f : F2) (s : State) : Host.Outcome State Fault Refusal :=
  issue (costOf (.pclass f)) f.g (bodyPclass f) s

/-- The meaning of pclassI (R386). -/
def execPclassI (f : FI) (s : State) : Host.Outcome State Fault Refusal :=
  issue (costOf (.pclassI f)) f.g (bodyPclassI f) s

/-- The meaning of opsel (R386). -/
def execOpsel (f : F2) (s : State) : Host.Outcome State Fault Refusal :=
  issue (costOf (.opsel f)) f.g (bodyOpsel f) s

/-- The meaning of opselI (R386). -/
def execOpselI (f : FI) (s : State) : Host.Outcome State Fault Refusal :=
  issue (costOf (.opselI f)) f.g (bodyOpselI f) s

/-- The meaning of grant (R387). -/
def execGrant (f : F2) (s : State) : Host.Outcome State Fault Refusal :=
  issue (costOf (.grant f)) f.g (bodyGrant f) s

end Sys2Proof.Machine
end

