-- ==== Sys2Proof/Machine/Marble.lean ====
section
/-! DEFINITION. The marbling engine (R294 to R315): seed trials, fits, scans and projections, and what its
instructions do. -/

namespace Sys2Proof.Machine

/-! ## Exact targets (R298, R303) -/

/-- Is a target element NaN or infinite? -/
def badF32 (w : W32) : Bool := w.extractLsb' 23 8 == 0xFF

/-- A finite FP32 value in units of 2^-149. -/
def unitsF32 (w : W32) : Int :=
  match fmtF32.read w.toNat with
  | .fin n m e => numOf n (m * 2 ^ (e + 149).toNat)
  | _ => 0

/-- The 4,096 elements of the target buffer. -/
def Marble.elems (m : Marble) : List W32 := SMap.getMany 0 m.target 0 4096

/-- Basis j of a seed as the number of its 4,096 bits (R286). -/
def basis (seed : W32) (j : Nat) : Nat := srBits seed (4096 * j) 4096

/-- Ones in the low n bits of a number. -/
def ones (n x : Nat) : Nat := ((List.range n).filter (fun i => x / 2 ^ i % 2 == 1)).length

/-! ## Trial blocks (R302, R303, R305) -/

/-- A trial block: seed, c, NF, exponent, projections, Gram matrix by 16 i + j. -/
structure Trial where
  seed : W32
  c : Nat
  nf : Bool
  ex : Int
  proj : List Int
  gram : List Int
deriving DecidableEq, Repr

/-- The Gram matrix of c bases. -/
def gramOf (bs : List Nat) : List Int :=
  (List.range 16).flatMap (fun i => (List.range 16).map (fun j =>
    match bs[i]?, bs[j]? with
    | some x, some y => if i = j then 4096 else 4096 - 2 * (ones 4096 (x ^^^ y) : Int)
    | _, _ => 0))

/-- Sum of the target against a basis, in units of 2^-149. -/
def projectOn (t : List Int) (b : Nat) : Int :=
  (t.zipIdx).foldl (fun acc p => if b / 2 ^ p.2 % 2 = 1 then acc - p.1 else acc + p.1) 0

/-- SeedTry (R303). -/
def seedTry (seed : W32) (c : Nat) (target : List W32) : Trial :=
  let bs := (List.range c).map (basis seed)
  let g := gramOf bs
  if target.any badF32 then ⟨seed, c, true, 0, List.replicate 16 0, g⟩
  else
    let t := target.map unitsF32
    let ps := bs.map (projectOn t)
    let top := (ps.filter (· ≠ 0)).foldl (fun (acc : Option Nat) p =>
      match acc with | some x => some (max x (Nat.log2 p.natAbs)) | none => some (Nat.log2 p.natAbs)) none
    match top with
    | none => ⟨seed, c, false, 0, List.replicate 16 0, g⟩
    | some k =>
      let ex : Int := (k : Int) - 149 - 29
      let sh : Int := -149 - ex
      let ms := ps.map (fun p => if 0 ≤ sh then p * 2 ^ sh.toNat else p.tdiv (2 ^ (-sh).toNat))
      ⟨seed, c, false, ex, ms ++ List.replicate (16 - c) 0, g⟩

/-- A number of n bytes in two's complement. -/
def intBytes (n : Nat) (x : Int) : List Byte := natBytes n (x % 2 ^ (8 * n)).toNat

/-- The 640 bytes of a trial block. -/
def Trial.bytes (t : Trial) : List Byte :=
  natBytes 4 t.seed.toNat ++ natBytes 1 t.c ++ natBytes 1 (if t.nf then 1 else 0) ++ intBytes 2 t.ex ++ natBytes 8 0
    ++ (t.proj.take 16).flatMap (intBytes 4) ++ (t.gram.take 256).flatMap (intBytes 2) ++ natBytes 48 0

/-- Read a trial block; none when it is malformed (R305). -/
def Trial.read (b : List Byte) : Option Trial :=
  let at_ (o n : Nat) : Nat := bytesNat ((b.drop o).take n)
  let int (o n : Nat) : Int := signedBytes n (at_ o n)
  let c := at_ 4 1
  let proj := (List.range 16).map (fun j => int (16 + 4 * j) 4)
  let gram := (List.range 256).map (fun i => int (80 + 2 * i) 2)
  let g (i j : Nat) : Int := gram.getD (16 * i + j) 0
  let idx := List.range 16
  if at_ 5 1 / 2 ≠ 0 ∨ at_ 8 8 ≠ 0 ∨ at_ 592 48 ≠ 0 ∨ c = 0 ∨ 16 < c then none
  else if idx.all (fun i => idx.all (fun j =>
      if i < c ∧ j < c then g i j == g j i && decide ((g i j).natAbs ≤ 4096) && (i != j || g i j == 4096)
      else g i j == 0)) && idx.all (fun j => j < c || proj.getD j 0 == 0) then
    some ⟨BitVec.ofNat 32 (at_ 0 4), c, at_ 5 1 % 2 == 1, int 6 2, proj, gram⟩
  else none

/-! ## The fit (R304, R306, R307) -/

/-- Clamp to w bits, and whether the value changed. -/
def satTo (w : Nat) (x : Int) : Int × Bool := (clampBits w x, clampBits w x != x)

/-- State of the solve: D, drops, W and L by 16 i + j, overflow. -/
structure Solve where
  d : SMap Int
  drop : SMap Bool
  w : SMap Int
  l : SMap Int
  ovf : Bool

/-- A sum of terms over k below n. -/
def sumTo (n : Nat) (f : Nat → Int) : Int := (List.range n).foldl (fun acc k => acc + f k) 0

/-- Column j of the decomposition. -/
def solveColumn (h : Nat → Nat → Int) (c : Nat) (st : Solve) (j : Nat) : Solve :=
  let lk (i k : Nat) : Int := SMap.get 0 st.l (16 * i + k)
  let wk (i k : Nat) : Int := SMap.get 0 st.w (16 * i + k)
  let dj := satTo 32 ((h j j * 2 ^ 30 - sumTo j (fun k => wk j k * lk j k)).tdiv (2 ^ 30))
  if dj.1 < 2 ^ 10 then { st with drop := SMap.set false st.drop j true, ovf := st.ovf || dj.2 }
  else
    let st := { st with d := SMap.set 0 st.d j dj.1, ovf := st.ovf || dj.2 }
    ((List.range c).drop (j + 1)).foldl (fun st i =>
      let w := satTo 32 ((h i j * 2 ^ 30 - sumTo j (fun k => wk i k * lk j k)).tdiv (2 ^ 30))
      let l := satTo 32 ((w.1 * 2 ^ 30).tdiv dj.1)
      { st with w := SMap.set 0 st.w (16 * i + j) w.1, l := SMap.set 0 st.l (16 * i + j) l.1, ovf := st.ovf || w.2 || l.2 }) st

/-- What a fit finds: FP32 solution, drops, overflow. -/
structure Fit where
  a : List W32
  drop : Nat
  ovf : Bool

/-- FitSolve (R306). -/
def fitSolve (t : Trial) : Fit :=
  let c := t.c
  let h (i j : Nat) : Int := t.gram.getD (16 * i + j) 0 * 2 ^ 18
  let st := (List.range c).foldl (solveColumn h c) ⟨[], [], [], [], false⟩
  let lk (i k : Nat) : Int := SMap.get 0 st.l (16 * i + k)
  let dropped (i : Nat) : Bool := SMap.get false st.drop i
  let y := (List.range c).foldl (fun (acc : SMap Int × Bool) i =>
    let v := satTo 32 (t.proj.getD i 0 - (sumTo i (fun k => lk i k * SMap.get 0 acc.1 k)).tdiv (2 ^ 30))
    (SMap.set 0 acc.1 i v.1, acc.2 || v.2)) ([], st.ovf)
  let z := (List.range c).foldl (fun (acc : SMap Int × Bool) i =>
    if dropped i then acc
    else
      let v := satTo 64 ((SMap.get 0 y.1 i * 2 ^ 40).tdiv (SMap.get 0 st.d i))
      (SMap.set 0 acc.1 i v.1, acc.2 || v.2)) ([], y.2)
  let x := (List.range c).reverse.foldl (fun (acc : SMap Int × Bool) i =>
    if dropped i then acc
    else
      let sum := sumTo c (fun k => if i < k then lk k i * SMap.get 0 acc.1 k else 0)
      let v := satTo 64 (SMap.get 0 z.1 i - sum.tdiv (2 ^ 30))
      (SMap.set 0 acc.1 i v.1, acc.2 || v.2)) ([], z.2)
  let as := (List.range c).map (fun i =>
    let v := SMap.get 0 x.1 i
    let p := ((Res.num (decide (v < 0)) v.natAbs (t.ex - 22) false 0).round fmtF32 1 1 false 0).1
    if p % 2 ^ 31 = 0x7F800000 then (BitVec.ofNat 32 (fmtF32.maxBits (decide (v < 0))), true) else (BitVec.ofNat 32 p, false))
  ⟨as.map (·.1), (List.range c).foldl (fun acc i => if dropped i then acc + 2 ^ i else acc) 0,
    x.2 || as.any (·.2)⟩

/-- The exact gain Σ a m 2^E as m · 2^e (R307). -/
def gainOf (t : Trial) (a : List W32) : Int × Int :=
  (sumTo t.c (fun j => unitsF32 (a.getD j 0) * t.proj.getD j 0), t.ex - 149)

/-- Round m · 2^e to FP32. -/
def roundPair (x : Int × Int) : W32 :=
  BitVec.ofNat 32 ((Res.num (decide (x.1 < 0)) x.1.natAbs x.2 false 0).round fmtF32 1 1 false 0).1

/-- Does the first exact number exceed the second? -/
def pairGt (x y : Int × Int) : Bool :=
  let e := min x.2 y.2
  decide (y.1 * 2 ^ (y.2 - e).toNat < x.1 * 2 ^ (x.2 - e).toNat)

/-- The 192 bytes that FIT writes (R304, R305, R307). -/
def fitBytes (t : Trial) (fp16 : Bool) : List Byte :=
  let rec_ (coef : List Nat) (scale : Nat) : List Byte :=
    (⟨t.seed, t.c, fp16, coef, BitVec.ofNat 32 scale⟩ : Tile).bytes
  if t.nf then rec_ [] 0x3F800000 ++ natBytes 64 0 ++ natBytes 2 0 ++ natBytes 1 2 ++ natBytes 61 0
  else
    let f := fitSolve t
    let lead := (f.a.filterMap (fun w => (fmtF32.read w.toNat).lead)).foldl
      (fun (acc : Option Int) x => match acc with | some y => some (max x y) | none => some x) none
    let sc := lead.getD 0
    let fm := if fp16 then fmtF16 else fmtBF16
    let coef := f.a.map (fun w => match fmtF32.read w.toNat with
      | .fin n m e => ((Res.num n m (e - sc) false 0).round fm 1 1 false 0).1
      | _ => 0)
    let scale := ((Res.num false 1 sc false 0).round fmtF32 1 1 false 0).1
    rec_ coef scale
      ++ (List.range 16).flatMap (fun j => natBytes 4 (f.a.getD j 0).toNat)
      ++ natBytes 2 f.drop ++ natBytes 1 (if f.ovf then 1 else 0) ++ natBytes 1 0
      ++ natBytes 4 (roundPair (gainOf t f.a)).toNat ++ natBytes 56 0

/-- PROJ's 64 bytes (R312). -/
def projBytes (r : Tile) (target : List W32) : List Byte :=
  let sc := fmtF32.read r.scale.toNat
  (List.range 16).flatMap (fun j =>
    if j < r.c then
      let b := basis r.seed j
      let terms := (target.zipIdx).map (fun p =>
        let v := mulVal sc (fmtF32.read p.1.toNat)
        if b / 2 ^ p.2 % 2 = 1 then v.neg else v)
      natBytes 4 (accumulateF32 (.fin false 0 0 :: terms)).toNat
    else natBytes 4 0)

/-! ## Scans (R308 to R310) -/

/-- A scan descriptor: first seed, count, deadline; none when malformed. -/
def scanDesc (b : List Byte) : Option (Nat × Nat × Nat) :=
  let at_ (o n : Nat) : Nat := bytesNat ((b.drop o).take n)
  if at_ 4 4 = 0 ∨ at_ 12 4 ≠ 0 then none else some (at_ 0 4, at_ 4 4, at_ 8 4)

/-- Run time of one candidate. -/
def candidateTime (c : Nat) : Nat := 32 * c + c * c + 16

/-- The next index after passing seed-0 candidates. -/
def passZero (seed0 count i : Nat) : Nat := if i < count ∧ (seed0 + i) % 2 ^ 32 = 0 then i + 1 else i

/-- The 64 bytes of a scan result. -/
def scanBytes (r : MRun) (count cause : Nat) (nf : Bool) (target : List W32) : List Byte :=
  let tn : Int := if nf then 0 else (target.map (fun w => unitsF32 w * unitsF32 w)).foldl (· + ·) 0
  let resid : W32 := match r.best with
    | some (_, _, m, e) =>
      let ex := min e (-298)
      roundPair (tn * 2 ^ (-298 - ex).toNat - m * 2 ^ (e - ex).toNat, ex)
    | none => 0x7F800000
  let gain : W32 := match r.best with | some (_, _, m, e) => roundPair (m, e) | none => 0
  natBytes 4 (match r.best with | some (s, _, _, _) => s | none => 0)
    ++ natBytes 4 (match r.best with | some (_, i, _, _) => i | none => 0xFFFFFFFF)
    ++ natBytes 4 (if nf then 0 else if cause = 0 then count else r.next) ++ natBytes 4 r.doneN
    ++ natBytes 4 resid.toNat ++ natBytes 4 gain.toNat ++ natBytes 1 cause ++ natBytes 1 (if nf then 1 else 0) ++ natBytes 38 0

/-- The candidate in progress completes (R309). -/
def MRun.candidate (r : MRun) (seed0 count c : Nat) (target : List W32) : MRun :=
  let seed := (seed0 + r.next) % 2 ^ 32
  let t := seedTry (BitVec.ofNat 32 seed) c target
  let g := gainOf t (fitSolve t).a
  let better := match r.best with | some (_, _, m, e) => pairGt g (m, e) | none => true
  { r with
    best := if better then some (seed, r.next, g.1, g.2) else r.best
    next := passZero seed0 count (r.next + 1), doneN := r.doneN + 1, since := r.since + candidateTime c }

/-! ## Acceptance (R296 to R299) -/

/-- Bytes of the destination and of the scratchpad source of a request. -/
def MReq.dstLen (q : MReq) : Nat :=
  match q.op with
  | 0 => 640
  | 2 => 192
  | _ => 64
def MReq.srcLen (q : MReq) : Nat :=
  match q.op with
  | 0 => 0
  | 1 => 16
  | 2 => 640
  | _ => 64

/-- Its clasp entries (R299). -/
def MReq.clasps (q : MReq) (slot : Nat) : List Clasp :=
  (if q.srcLen = 0 then [] else [⟨q.src, q.srcLen, true, 1, false, slot, q.rix, q.warp⟩])
    ++ [⟨q.dst, q.dstLen, true, 1, true, slot, q.rix, q.warp⟩]

/-- Its destination lines. -/
def MReq.lines (q : MReq) (c : Nat) : List (Nat × Nat × Nat) :=
  (List.range ((q.dst + q.dstLen - 1) / 128 - q.dst / 128 + 1)).map (fun i => (c, q.rix, q.dst / 128 + i))

/-- The lowest free slot of the marbling queue. -/
def Marble.freeSlot (m : Marble) : Option Nat := firstBelow (fun i => (m.slots.find? i).isNone) 16 0

/-- May the request be accepted now: target buffer, slot and clasp entries (R297, R298)? -/
def Core.marbleFits (k : Core) (q : MReq) : Bool :=
  !(q.target && k.mar.slots.any (fun p => p.2.target)) && k.mar.freeSlot.isSome
    && decide (k.clasp.length + (q.clasps 0).length ≤ 64)

/-- Subtract bytes from a request's barrier object. -/
def State.marbleCount (s : State) (c : Nat) (q : MReq) (n : Int) : State :=
  match q.bar with
  | some a => if n = 0 then s else (s.askBar c q.rix a 6 c).barOp c q.rix a (Bar.addBytes n)
  | none => s

/-- Accept a marbling request (R297). -/
def State.marbleAccept (s : State) (c : Nat) (q : MReq) : State :=
  match (s.core c).mar.freeSlot with
  | none => s
  | some slot =>
    let q := { q with seq := s.nonce }
    let s := s.modCore c (fun k => { k with
      mar := { k.mar with slots := k.mar.slots.put slot q, order := k.mar.order ++ [slot] }
      clasp := k.clasp ++ q.clasps slot })
    let s := if q.target then
        s.modMx c (fun m => { m with queue := m.queue ++ [⟨s.nonce, none, slot, q.rix, q.warp, q.alt, false, false, [q.bank]⟩] })
      else s
    ((s.absentLines (q.lines c) true).marbleCount c q q.dstLen).tickNonce.progress c

/-- Its destination, source and barrier object are aligned (R297). -/
def MReq.aligned (q : MReq) : Bool :=
  q.dst % 64 == 0 && (q.srcLen == 0 || q.src % (if q.op = 1 then 16 else 64) == 0)
    && (match q.bar with | some a => a % 16 == 0 | none => true)

/-- They lie in a window of n bytes (R297). -/
def MReq.inside (q : MReq) (n : Nat) : Bool :=
  decide (q.dst + q.dstLen ≤ n) && (q.srcLen == 0 || decide (q.src + q.srcLen ≤ n))
    && (match q.bar with | some a => decide (a + 16 ≤ n) | none => true)

/-- The parked requests that wait for a queue slot and clasp entries, in their order: those of running blocks that do not wait
for the target buffer before (R297). -/
def Core.marbleWaiting (k : Core) : List MReq :=
  k.mar.accepting.filter (fun q => k.rixRuns q.rix && !(q.target && k.mar.slots.any (fun p => p.2.target)))

/-- The request's checks of alignment and ranges, then its acceptance, now or later. -/
def marbleOver (q : MReq) (lane : Nat) : Body := fun e s =>
  if e.path.granted.contains .engine then .ok s
  else do
    need q.aligned cDataAlign (bit lane)
    need (q.inside e.blk.window) cAccess (bit lane)
    need (s.objectOk e.c e.warp.rix e.blk.grid 0 q.bar) cFormat (bit lane)
    e.settled s false
    if (s.core e.c).marbleWaiting.isEmpty && (s.core e.c).marbleFits q then .ok (s.marbleAccept e.c q)
    else .error (.wait .engine (fun s => s.modCore e.c (fun k => { k with mar := { k.mar with accepting := k.mar.accepting ++ [q] } })))

/-- An empty request of an issuer. -/
def MReq.init (e : Env) (op : Nat) : MReq := ⟨op, e.warp.rix, e.w, e.alt, e.path.mask, 0, 0, 0, 0, 0, 0, false, none, false, false⟩

/-- Is a logical bank held by the issuer's block? -/
def Env.holds (e : Env) (a : Nat) : Bool := (KMap.find? e.blk.banks a).isSome

/-- A legal control word (R296). -/
def Env.ctlOk (e : Env) (x : W32) : Bool :=
  let c := x.toNat / 16 % 32
  decide (x.toNat < 512) && decide (1 ≤ c ∧ c ≤ 16) && e.holds (x.toNat % 16)

/-! ## Instructions (R295, R303, R304, R308, R312 to R314) -/

/-- SEEDTRY and SEEDSCAN. -/
def trialBody (f : F3) (scan : Bool) : Body := fun e s => do
  let d ← e.plainSrc 6 f.d
  let a ← e.plainSrc 6 f.a
  let b ← e.plainSrc 6 f.b
  let cc ← e.plainSrc 6 f.c
  e.landed [d, a, b, cc]
  match e.elected with
  | none => .ok s
  | some l => if e.path.granted.contains .engine then .ok s else do
    let w := b.val32 e l
    need ((scan || a.val32 e l != 0) && e.ctlOk w) cIllegalOperand (bit l)
    marbleOver { (MReq.init e (if scan then 1 else 0)) with
      dst := (d.val32 e l).toNat, src := if scan then (a.val32 e l).toNat else 0
      seed := if scan then 0 else a.val32 e l
      c := w.toNat / 16 % 32, bank := w.toNat % 16, bar := barArg (cc.val32 e l), target := true } l e s

def bodySeedtry (f : F3) : Body := trialBody f false
def bodySeedscan (f : F3) : Body := trialBody f true

/-- FIT and PROJ. -/
def outputBody (f : F2) (proj : Bool) : Body := fun e s => do
  let d ← e.plainSrc 6 f.d
  let a ← e.plainSrc 6 f.a
  let b ← e.plainSrc 6 f.b
  e.landed [d, a, b]
  match e.elected with
  | none => .ok s
  | some l => if e.path.granted.contains .engine then .ok s else do
    let x := d.val32 e l
    need (if proj then x.extractLsb' 4 2 == 0 && e.holds (x.toNat % 16) else x.extractLsb' 1 5 == 0) cIllegalOperand (bit l)
    marbleOver { (MReq.init e (if proj then 3 else 2)) with
      dst := x.toNat / 64 * 64, src := (a.val32 e l).toNat, bar := barArg (b.val32 e l)
      bank := if proj then x.toNat % 16 else 0, cfmt := !proj && x.getLsbD 0, target := proj } l e s

def bodyFit (f : F2) : Body := outputBody f false
def bodyProj (f : F2) : Body := outputBody f true

/-- MGEN (R313). -/
def bodyMgen (f : F2) : Body := fun e s => do
  e.dstW f.d false
  let a ← e.plainSrc 6 f.a
  let b ← e.plainSrc 6 f.b
  e.landed [a, b]
  match e.elected with
  | none => .ok s
  | some l => do
    need (a.val32 e l != 0) cIllegalOperand (bit l)
    .ok (e.put 7 2 false .w [f.d.toNat - 384] (bit l)
      [BitVec.ofNat 32 (srBits (a.val32 e l) (b.val32 e l).toNat 32)] s)

/-- The marbling STATUS of a block (R314). -/
def Core.marbleStatus (k : Core) (rix : Nat) : W32 :=
  match k.blocks.find? rix with
  | none => 0
  | some b =>
    let mine := k.mar.slots.filter (fun p => p.2.rix = rix)
    BitVec.ofNat 32 ((if b.ms.err then 2 ^ 31 else 0) + min 127 b.ms.cnt * 2 ^ 24 + mine.length * 2 ^ 19
      + (if mine.any (fun p => p.2.target) then 2 ^ 18 else 0) + b.ms.tag % 256 * 2 ^ 8 + b.ms.cause % 256)

def bodyMstat (f : F2) : Body :=
  statusBody f
    (fun e s sel => if sel = 0 ∨ sel = 4 then some ((s.core e.c).marbleStatus e.warp.rix) else none)
    .marbleClear

/-! ## Start and completion (R300, R301) -/

/-- May core c's next request start: nothing runs, its target is there, its source lines are present (R300)?
A line that only a later request has made absent counts as present (assumption 137). -/
def State.marbleReady (s : State) (c : Nat) : Option (Nat × MReq) :=
  let m := (s.core c).mar
  match m.run, m.order with
  | none, slot :: _ =>
    match m.slots.find? slot with
    | none => none
    | some q =>
      let present (line : Nat) : Bool :=
        match (s.core c).blocks.find? q.rix with
        | none => true
        | some b =>
          let later := (m.slots.filter (fun p => decide (q.seq < p.2.seq) && (p.2.lines c).contains (c, q.rix, line))).length
          decide ((KMap.find? b.absent line).getD 0 ≤ later)
      let srcs := if q.srcLen = 0 then [] else
        (List.range ((q.src + q.srcLen - 1) / 128 - q.src / 128 + 1)).map (q.src / 128 + ·)
      if (!q.target || q.filled) && srcs.all present then some (slot, q) else none
  | _, _ => none

/-- The words of its destination. -/
def MReq.words (q : MReq) : List Nat := (List.range (q.dstLen / 4)).map (q.dst / 4 + ·)

/-- The words of a request's destination that are still to be written. -/
def Marble.left (m : Marble) (slot : Nat) (q : MReq) : List Nat :=
  match m.run with
  | some r => if r.slot = slot ∧ r.stage = .write then r.left else q.words
  | none => q.words

/-- The request leaves its slot: its entries are released, what is left of its destination counts as landed, and its lines are
present (R299, R301). -/
def State.marbleEnd (s : State) (c slot : Nat) (q : MReq) : State :=
  let left := (s.core c).mar.left slot q
  let s := s.modCore c (fun k => { k with
    mar := { k.mar with slots := KMap.del k.mar.slots slot, order := k.mar.order.filter (· ≠ slot)
                        run := match k.mar.run with | some r => if r.slot = slot then none else some r | none => none }
    clasp := k.clasp.filter (fun x => !(x.marb && x.tag == slot)) })
  (((s.absentLines ((q.lines c).filter (fun p => left.any (fun w => w / 32 == p.2.2))) false).marbleCount c q
    (-(4 * left.length : Int))).progress c)

/-- A malformed source ends the request in an error (R301). -/
def State.marbleError (s : State) (c slot : Nat) (q : MReq) : State :=
  let s := s.modBlock c q.rix (fun b =>
    { b with ms := ⟨true, min 127 (b.ms.cnt + 1), if b.ms.err then b.ms.tag else slot, cFormat.toNat⟩ })
  (s.endpaper (quireOf c) 2 c (cFormat.toNat + 256 * slot + 2 ^ 16) q.src q.rix).marbleEnd c slot q

/-- The words that the running request has asked the banks for and that have not been served. -/
def Core.marbleAsked (k : Core) : List Nat :=
  (k.ck.words.filter (fun w => w.port == 6 && w.tag == 2)).map (fun w => w.word % 2 ^ 17)

/-- Change the run of the marbling engine. -/
def State.modRun (s : State) (c : Nat) (f : MRun → MRun) : State :=
  s.modCore c (fun k => { k with mar := { k.mar with run := k.mar.run.map f } })

/-- The sources of the running request have been read: their entries are released, they are checked, and its run begins
(R299, R300, R301). -/
def State.marbleRead (s : State) (c slot : Nat) (q : MReq) : State :=
  let src := s.scratchRead c q.rix q.src q.srcLen
  let s := s.modCore c (fun k => { k with clasp := k.clasp.filter (fun x => !(x.marb && x.tag == slot && !x.dst)) })
  let go (total next : Nat) : State := s.modRun c (fun r => { r with stage := .run, src := src, total := total, next := next })
  match q.op with
  | 0 => go (32 * q.c + 8) 0
  | 1 =>
    match scanDesc src with
    | none => s.marbleError c slot q
    | some (seed0, count, _) => go 0 (passZero seed0 count 0)
  | 2 =>
    match Trial.read src with
    | none => s.marbleError c slot q
    | some t => go (t.c * t.c + 8) 0
  | _ =>
    match Tile.read src with
    | none => s.marbleError c slot q
    | some t => go (16 * t.c + 8) 0

/-- The next request of core c starts: it asks the banks for its sources (R300); one that has none runs at once. -/
def State.marbleBegin (s : State) (c slot : Nat) (q : MReq) : State :=
  let s := s.modCore c (fun k => { k with mar := { k.mar with run := some ⟨slot, .read, [], [], 0, 0, none, 0, 0, 16, none⟩ } })
  if q.srcLen = 0 then s.marbleRead c slot q else s.bankWords c q.rix q.src q.srcLen 6 0 c 2

/-- The running request whose sources have been served (R300). -/
def Core.marbleServed (k : Core) : Option (Nat × MReq) :=
  match k.mar.run with
  | some r =>
    if r.stage = .read ∧ k.marbleAsked.isEmpty then (k.mar.slots.find? r.slot).map (fun q => (r.slot, q)) else none
  | none => none

/-- Core c's next request starts to read its sources, or starts to run when they have been read. -/
def State.marbleStart (s : State) (c : Nat) : State :=
  match (s.core c).marbleServed with
  | some (slot, q) => s.marbleRead c slot q
  | none =>
    match s.marbleReady c with
    | none => s
    | some (slot, q) => s.marbleBegin c slot q

/-- The bytes that the running request writes at its end. -/
def MRun.output (r : MRun) (q : MReq) (target : List W32) : List Byte :=
  match q.op with
  | 0 => (seedTry q.seed q.c target).bytes
  | 1 =>
    match scanDesc r.src with
    | some (_, count, _) => scanBytes r count (r.ended.getD 0) (target.any badF32) target
    | none => []
  | 2 => (match Trial.read r.src with | some t => fitBytes t q.cfmt | none => [])
  | _ => (match Tile.read r.src with | some t => projBytes t target | none => [])

/-- The scan of the running request has ended by itself: nothing to try, or the range exhausted. -/
def MRun.scanOver (r : MRun) (target : List W32) : Bool :=
  decide (16 ≤ r.ran) && (target.any badF32 || (match scanDesc r.src with | some (_, count, _) => decide (count ≤ r.next) | none => true))

/-- Has the candidate in progress run its time? -/
def MRun.candidateDue (r : MRun) (q : MReq) (target : List W32) : Bool :=
  q.op == 1 && r.ended.isNone && !r.scanOver target && decide (16 ≤ r.ran) && decide (r.since + candidateTime q.c ≤ r.ran)

/-- Has the deadline been reached with the range not exhausted? -/
def MRun.deadlineDue (r : MRun) (q : MReq) (target : List W32) : Bool :=
  q.op == 1 && r.ended.isNone && !r.scanOver target && decide (16 ≤ r.ran)
    && (match scanDesc r.src with | some (_, _, d) => decide (d ≠ 0 ∧ 16 + d ≤ r.ran) | none => false)

/-- Is the running request's time over? -/
def MRun.completeDue (r : MRun) (q : MReq) (target : List W32) : Bool :=
  if q.op = 1 then r.ended.isSome || r.scanOver target else decide (r.total ≤ r.ran)

/-- The running request of core c, with its record. -/
def Core.running (k : Core) : Option (MRun × MReq) :=
  match k.mar.run with
  | some r => (k.mar.slots.find? r.slot).map (fun q => (r, q))
  | none => none

/-- Words that the banks have served are written and counted off; lines whose last word is written are present (R299). -/
def State.marbleWords (s : State) (c : Nat) (r : MRun) (q : MReq) (served left : List Nat) : State :=
  let out := r.output q (s.core c).mar.elems
  let s := served.foldl (fun s w => s.scratchPut c q.rix (4 * w) ((out.drop (4 * w - q.dst)).take 4)) s
  let s := s.recheck c q.rix q.dst q.dstLen
  if left.isEmpty then s.marbleEnd c r.slot q
  else
    let lines := (q.lines c).filter (fun p => served.any (fun w => w / 32 == p.2.2) && !left.any (fun w => w / 32 == p.2.2))
    ((s.modRun c (fun r => { r with left := left })).absentLines lines false).marbleCount c q (-(4 * served.length : Int))

/-- The running request's time is over: it asks the banks for the words of its destination, and completes once they have all
been written (R300). -/
def State.marbleComplete (s : State) (c : Nat) : State :=
  match (s.core c).running with
  | none => s
  | some (r, q) =>
    if r.stage = .write then
      let asked := (s.core c).marbleAsked
      s.marbleWords c r q (r.left.filter (fun w => !asked.contains w)) (r.left.filter (fun w => asked.contains w))
    else (s.modRun c (fun r => { r with stage := .write, left := q.words })).bankWords c q.rix q.dst q.dstLen 6 0 c 2

/-! ## Meanings of the constructors -/

/-- The meaning of seedtry (R303). -/
def execSeedtry (f : F3) (s : State) : Host.Outcome State Fault Refusal :=
  issue (costOf (.seedtry f)) f.g (bodySeedtry f) s

/-- The meaning of seedscan (R308). -/
def execSeedscan (f : F3) (s : State) : Host.Outcome State Fault Refusal :=
  issue (costOf (.seedscan f)) f.g (bodySeedscan f) s

/-- The meaning of fit (R304). -/
def execFit (f : F2) (s : State) : Host.Outcome State Fault Refusal :=
  issue (costOf (.fit f)) f.g (bodyFit f) s

/-- The meaning of proj (R312). -/
def execProj (f : F2) (s : State) : Host.Outcome State Fault Refusal :=
  issue (costOf (.proj f)) f.g (bodyProj f) s

/-- The meaning of mgen (R313). -/
def execMgen (f : F2) (s : State) : Host.Outcome State Fault Refusal :=
  issue (costOf (.mgen f)) f.g (bodyMgen f) s

/-- The meaning of mstat (R314). -/
def execMstat (f : F2) (s : State) : Host.Outcome State Fault Refusal :=
  issue (costOf (.mstat f)) f.g (bodyMstat f) s

end Sys2Proof.Machine
end

