-- ==== Sys2Proof/Machine/Save.lean ====
section
/-! DEFINITION. The byte layouts of the context save area (R338 to R341), of result groups and of the stop dump
(R420, R421). -/

namespace Sys2Proof.Machine

/-- n zero bytes. -/
def zeros (n : Nat) : List Byte := List.replicate n 0

/-- A list of bytes brought to n bytes with zeros. -/
def padTo (n : Nat) (l : List Byte) : List Byte := l.take n ++ zeros (n - l.length)

/-- The four bytes of a word. -/
def wBytes (x : W32) : List Byte := natBytes 4 x.toNat

/-- The bytes of the words of a map from key k on, n of them. -/
def mapBytes (m : SMap W32) (k n : Nat) : List Byte := (SMap.getMany 0 m k n).flatMap wBytes

/-- The 16 bytes of a loop entry (R142). -/
def LoopEntry.bytes (l : LoopEntry) : List Byte :=
  wBytes l.q ++ natBytes 4 l.e ++ natBytes 4 l.k ++ natBytes 4 (if l.pipe then 1 else 0)

/-- The 16 bytes of a clasp entry (R206). -/
def Clasp.bytes (x : Clasp) : List Byte :=
  natBytes 8 x.base ++ natBytes 4 x.len
    ++ natBytes 1 (1 + (if x.dst then 2 else 0) + 4 * x.space + (if x.marb then 16 else 0))
    ++ natBytes 1 x.tag ++ zeros 2

/-- The four coordinate words of a COPY (R227). -/
def coordWords (c : List Int) : List Byte :=
  let s (n : Nat) (x : Int) : Nat := (x % 2 ^ n).toNat
  natBytes 4 (s 32 (c.getD 0 0)) ++ natBytes 4 (s 32 (c.getD 1 0)) ++ natBytes 4 (s 32 (c.getD 2 0))
    ++ natBytes 2 (s 16 (c.getD 3 0)) ++ natBytes 2 (s 16 (c.getD 4 0))

/-- A barrier address as an operand word. -/
def barWord (b : Option Nat) : Nat := b.getD 0xFFFFFFFF

/-- The 48 bytes of a copy request as a KICK entry (R230). -/
def CReq.bytes (q : CReq) : List Byte :=
  natBytes 4 (match q.op with | .copy => 0 | .gather => 1 | .scatter => 2 | _ => 3)
    ++ natBytes 4 q.loc ++ natBytes 8 q.raddr ++ natBytes 4 (barWord q.bar) ++ zeros 4
    ++ (if q.op == .copy then coordWords q.coord else natBytes 4 q.list ++ natBytes 4 q.n ++ zeros 8) ++ zeros 8

/-- The 32 bytes of a saved marbling request, given its queue slot (R341). -/
def MReq.bytes (q : MReq) (slot : Nat) : List Byte :=
  let ctl := q.bank + 16 * q.c
  natBytes 1 (0x20 + q.op) ++ natBytes 1 (if q.target then 1 else 0) ++ zeros 2
    ++ natBytes 4 (q.dst + (if q.op = 2 ∧ q.cfmt then 1 else if q.op = 3 then q.bank else 0))
    ++ natBytes 4 (if q.op = 0 then q.seed.toNat else q.src)
    ++ natBytes 4 (if q.op < 2 then ctl else barWord q.bar)
    ++ natBytes 4 (if q.op < 2 then barWord q.bar else 0)
    ++ natBytes 1 slot ++ zeros 11

/-! ## Result groups (R421) -/

/-- The runs of consecutive registers of a list, at most 16 long: first register and length. -/
def runsOf : List Nat → List (Nat × Nat)
  | [] => []
  | r :: l =>
    match runsOf l with
    | (a, n) :: t => if a = r + 1 ∧ n < 16 then (r, n + 1) :: t else (r, 1) :: (a, n) :: t
    | [] => [(r, 1)]

/-- The descriptor of a group. -/
def groupHead (rem nreg kind dest : Nat) (lanes : W32) : List Byte :=
  natBytes 8 (min 255 rem * 2 ^ 48 + (nreg - 1) * 2 ^ 44 + kind * 2 ^ 41 + dest * 2 ^ 32 + lanes.toNat)

/-- A group with its values, filled to an 8-byte boundary. -/
def groupOf (rem nreg kind dest : Nat) (lanes : W32) (vals : List W32) : List Byte :=
  groupHead rem nreg kind dest lanes ++ vals.flatMap wBytes ++ (if vals.length % 2 = 1 then zeros 4 else [])

/-- The groups of a result; a clear or a release of banks has none (assumption 106). -/
def Result.groups (r : Result) : List Byte :=
  let n := r.regs.length
  let lanes := (lanesOf r.lanes).length
  match r.dest with
  | .v => (runsOf r.regs).flatMap (fun g =>
      let at_ := (r.regs.findIdx? (· == g.1)).getD 0
      groupOf r.rem g.2 0 g.1 r.lanes
        ((List.range lanes).flatMap (fun i => (r.vals.drop (i * n + at_)).take g.2)))
  | .w => groupOf r.rem n 1 (384 + r.regs.headD 0) r.lanes r.vals
  | .pred => groupOf r.rem 1 2 (r.regs.headD 0) r.lanes (r.vals.take 1)
  | .port => groupOf r.rem 1 3 (r.regs.headD 0) r.lanes r.vals
  | .flags => groupOf r.rem 1 4 0 r.lanes r.vals
  | _ => []

/-- The results of a warp as groups, in issue order. -/
def Warp.groups (w : Warp) : List Byte := w.results.flatMap Result.groups

/-- The results of a strand: of its program, kept by snapshot while its handler runs. -/
def Warp.strandGroups (w : Warp) : List Byte :=
  (match w.hand with | some h => h.snap | none => w.results).flatMap Result.groups

/-! ## Parts of the stop dump (R420) -/

/-- Is cluster k owned by a strand of n clusters (R12)? -/
def ownsCluster (n k : Nat) : Bool := decide (4 - n ≤ k ∧ k < 4)

/-- Bits [9:4] of `%mode` (R149): clusters owned and the number code. -/
def modeBits (n : Nat) : Nat :=
  (if ownsCluster n 0 then 1 else 0) + (if ownsCluster n 1 then 2 else 0) + (if ownsCluster n 2 then 4 else 0)
    + (if ownsCluster n 3 then 8 else 0)
    + 16 * (match n with | 0 => 0 | 1 => 1 | 2 => 2 | _ => 3)

/-- Parts 1 and 2: the strand snapshot, 8,192 bytes, with %cycle and %time of the first frozen cycle. While the strand's
handler runs, its offset and its %rotbase are those of the program. -/
def State.dumpStrand (s : State) (c : Nat) (at_ : Nat × Nat) (kind cause tag nw3 : Nat) : List Byte :=
  let k := s.core c
  match k.strand with
  | some t =>
    match k.warps.find? t.warp with
    | some w =>
      let code := match k.blocks.find? w.rix with | some b => b.lr.code | none => 0
      let p := match w.hand with | some h => h.pri.pc | none => w.pri.pc
      padTo 0x100 (natBytes 2 1 ++ natBytes 1 kind ++ natBytes 1 cause ++ natBytes 4 c ++ natBytes 8 at_.1
          ++ natBytes 8 at_.2 ++ natBytes 8 (code + p.setWidth 64).toNat ++ natBytes 4 (modeBits t.clusters)
          ++ natBytes 4 nw3 ++ natBytes 4 tag ++ wBytes (match w.hand with | some h => h.rotbase | none => w.rotbase))
        ++ padTo 0x100 (t.loops.flatMap LoopEntry.bytes)
        ++ padTo 0x580 ((List.range 11).flatMap (fun p => mapBytes t.ports (32 * (p + 1)) 32))
        ++ padTo 0x1880 w.strandGroups
    | none => zeros 8192
  | none =>
    padTo 8192 (natBytes 2 1 ++ natBytes 1 kind ++ natBytes 1 cause ++ natBytes 4 c ++ natBytes 8 at_.1
      ++ natBytes 8 at_.2 ++ zeros 8 ++ zeros 4 ++ natBytes 4 nw3 ++ natBytes 4 tag)

/-- The warp has ended: it has no thread left and nothing in flight (R139). -/
def Warp.over (w : Warp) : Bool := w.exited == 0xFFFFFFFF && w.results.isEmpty && w.hq.isEmpty

/-- Part 3: every warp but the collapsed one and those that have ended. -/
def Core.dumpWarps (k : Core) : List Byte :=
  k.warps.flatMap (fun p =>
    let w := p.2
    if w.strand || w.over then []
    else
      padTo 64 (natBytes 1 p.1 ++ natBytes 3 ((if w.pri.live then 1 else 0) + (if w.alt.live then 2 else 0))
        ++ wBytes w.pri.pc ++ wBytes w.pri.mask ++ wBytes w.alt.pc ++ wBytes w.alt.mask
        ++ natBytes 4 (w.groups.length / 4)) ++ w.groups)

/-- 32-bit words of the groups of part 3. -/
def Core.dumpWords (k : Core) : Nat :=
  (k.warps.map (fun p => if p.2.strand then 0 else p.2.groups.length / 4)).foldl (· + ·) 0

/-! ## Sections of the context area (R338 to R341) -/

/-- Register demand of a record in registers per lane (R18). -/
def LRec.demand (l : LRec) : Nat := (l.roles.map (fun r => 8 * r.regs * r.warps)).foldl (· + ·) 0

/-- The sizes of the eleven sections (R338). -/
def LRec.sections (l : LRec) : List Nat :=
  [256, 4096 * l.warps, 4096 * l.warps, 128 * l.demand, 128 * l.scratch, 18432 * l.accb, 256, 8192, 16384, 8192, 256]

/-- Byte offset of section i, counted from 0. -/
def LRec.sectionAt (l : LRec) (i : Nat) : Nat := (l.sections.take i).foldl (· + ·) 0

/-- Bytes of a block's context area (R338). -/
def LRec.ctxSize (l : LRec) : Nat := l.sectionAt 11

/-- The warp record of 4,096 bytes (R339). -/
def Warp.record (w : Warp) : List Byte :=
  let hand := w.hand.isSome
  padTo 1024 (wBytes w.pri.pc ++ wBytes w.pri.mask ++ wBytes w.alt.pc ++ wBytes w.alt.mask
    ++ natBytes 2 ((if w.pri.live then 1 else 0) + (if w.alt.live then 2 else 0) + (if hand then 4 else 0)
        + (if w.priv then 8 else 0) + (if w.strand then 16 else 0))
    ++ natBytes 2 w.allRecs.length ++ wBytes w.fmode ++ wBytes w.rotbase ++ wBytes w.trapcause
    ++ natBytes 8 w.trappc.toNat ++ wBytes w.traplanes ++ zeros 4
    ++ mapBytes w.q 0 15 ++ zeros 4 ++ padTo 64 (w.loops.flatMap LoopEntry.bytes)
    ++ mapBytes w.w 0 64 ++ (if hand then mapBytes w.bankW 56 8 else zeros 32)
    ++ mapBytes w.flags 0 32 ++ mapBytes w.seed 0 32
    ++ (SMap.getMany 0 w.crc 0 32).flatMap (fun x => natBytes 8 x.toNat) ++ natBytes 4 w.hcnt)
  ++ (if hand then mapBytes w.bankV (32 * 360) 768 else zeros 3072)

/-- The divergence reserve and spill area of a warp (R140). -/
def Warp.divArea (w : Warp) : List Byte := padTo 4096 (w.allRecs.flatMap DivRec.bytes)

/-- Registers of a warp of n registers per lane, r of lane t at 128 r + 4 t. -/
def Warp.regBytes (w : Warp) (n : Nat) : List Byte := mapBytes w.v 0 (32 * n)

/-- Section 6: held banks by logical number, each with its scale part. -/
def Core.bankBytes (k : Core) (b : Block) (i : Nat) : List Byte :=
  match b.banks.find? i with
  | some p => (k.mx.bank p).flatMap wBytes ++ SMap.getMany 0 k.mx.scale (2048 * p) 2048
  | none => zeros 18432

/-- Section 7 (R340). -/
def Block.matrixBytes (b : Block) : List Byte :=
  padTo 256 ((SMap.getMany 0 b.ft 0 7).flatMap (fun x => natBytes 8 x.toNat)
    ++ (SMap.getMany 0 b.cur 0 7).flatMap (natBytes 2) ++ zeros 2 ++ natBytes 8 b.map.toNat
    ++ (List.range 16).flatMap (fun i => natBytes 1 ((KMap.find? b.banks i).getD 0xFF))
    ++ natBytes 2 ((b.banks.map (fun p => 2 ^ p.1)).foldl (· + ·) 0))

/-- Section 8 (R341): the requests saved with their slots, and the clasp entries. -/
def Core.engineBytes (k : Core) (rix : Nat) (copies : List CReq) (marbles : List (Nat × MReq)) (clasps : List Clasp) : List Byte :=
  let mine := match k.kickBy with | some p => p.1 == rix | none => false
  let b := k.blocks.find? rix
  padTo 8192 (padTo 0xC00 (copies.flatMap CReq.bytes) ++ natBytes 4 copies.length
    ++ natBytes 4 (if mine then k.kick.toNat else 0) ++ wBytes (k.copyStatus rix) ++ zeros 4
    ++ natBytes 8 (match b with | some x => x.cs.va.toNat | none => 0)
    ++ wBytes (k.marbleStatus rix) ++ natBytes 4 marbles.length ++ natBytes 4 clasps.length ++ zeros 28
    ++ padTo 512 (marbles.flatMap (fun p => p.2.bytes p.1)) ++ padTo 1024 (clasps.flatMap Clasp.bytes))

/-- Section 11 (R339): the folios' images, the request and the settling. -/
def Core.govBytes (k : Core) (b : Block) : List Byte :=
  padTo 256 ((List.range 16).flatMap (fun i => natBytes 8 (match b.folio i with | some f => f.image.toNat | none => 0))
    ++ natBytes 1 (match b.opreq with | some n => 8 + n | none => 0)
    ++ natBytes 1 ((if k.gov.set then 8 else 0) + k.gov.eff) ++ natBytes 2 k.gov.srem)

/-- The warps of a block in the order of their index within it (R327). -/
def Core.blockWarps (k : Core) (rix : Nat) : List (Nat × Warp) :=
  (List.range 32).flatMap (fun i => k.warps.filter (fun p => p.2.rix == rix && p.2.idx == i))

/-- The target buffer is saved when one of the saved requests holds it (R311). -/
def Core.targetBytes (k : Core) (marbles : List (Nat × MReq)) : List Byte :=
  if marbles.any (fun p => p.2.target) then k.mar.elems.flatMap wBytes else zeros 16384

/-- Sections 2 to 11 of a block, with the requests that are saved. -/
def State.context (s : State) (c rix : Nat) (b : Block) (copies : List CReq) (marbles : List (Nat × MReq))
    (clasps : List Clasp) (at_ : Nat × Nat) (kind cause : Nat) : List Byte :=
  let k := s.core c
  let ws := k.blockWarps rix
  let strand := match k.strand with | some t => ws.any (fun p => p.1 == t.warp) | none => false
  padTo (4096 * b.lr.warps) (ws.flatMap (fun p => p.2.record))
    ++ padTo (4096 * b.lr.warps) (ws.flatMap (fun p => p.2.divArea))
    ++ padTo (128 * b.lr.demand) (ws.flatMap (fun p => p.2.regBytes (8 * (b.lr.roles.getD p.2.role ⟨0, 0, 0, 0⟩).regs)))
    ++ SMap.getMany 0 b.scratch 0 b.window
    ++ (List.range b.lr.accb).flatMap (k.bankBytes b)
    ++ b.matrixBytes ++ k.engineBytes rix copies marbles clasps ++ k.targetBytes marbles
    ++ (if strand then s.dumpStrand c at_ kind cause 0 0 else zeros 8192) ++ k.govBytes b

/-- Section 1, the header (R339): STATE 1 after pre-emption, 2 after eviction. -/
def State.contextHeader (s : State) (c : Nat) (b : Block) (state : Nat) : List Byte :=
  padTo 256 (natBytes 2 1 ++ natBytes 1 state ++ zeros 1 ++ natBytes 4 b.bno ++ natBytes 8 s.time ++ natBytes 4 c
    ++ ((List.range 10).map (· + 1)).flatMap (fun i => natBytes 4 (b.lr.sectionAt i)))

/-- Where a block's context area stands (R337). -/
def Block.ctxAt (b : Block) : Nat := b.lr.ctx + 4096 * b.lr.ctxstr * b.bno

end Sys2Proof.Machine
end

