-- ==== Sys2Proof/Machine/Obs.lean ====
section
/-! DEFINITION. The observation unit: its registers, trace records, sampling, precise stops and their dumps, the store
hash, record and replay at the slices (R407 to R429), and the instructions TMARK, BKPT, SHASH, CONFRD and
RPCTL (R411 to R415). -/

namespace Sys2Proof.Machine

/-! ## Registers (R407, R425) -/

/-- HMODE of core c: 0 off, 1 record, 2 replay. -/
def State.hmode (s : State) (c : Nat) : Nat := ((s.obsctl c).extractLsb' 8 2).toNat

/-- SPER of core c; 0 = no sampling. -/
def State.sper (s : State) (c : Nat) : Nat := (s.ctlAt (offObs c + 4)).toNat

/-- STOPCTL of core c as it is stored. -/
def State.stopctl (s : State) (c : Nat) : W32 := s.ctlAt (offObs c + 8)

/-- STOPCTL as it reads. -/
def State.stopctlRead (s : State) (c : Nat) : W32 :=
  s.stopctl c ||| (if (s.core c).obs.armed then 0x10 else 0) ||| (if (s.core c).obs.stopped then 0x20 else 0)

/-- Count a hazard in OSTAT, saturating. -/
def State.countHazard (s : State) (c : Nat) : State :=
  let o := s.ostat c
  s.setCtl (offObs c + 0x28) (if o.extractLsb' 17 15 == 0x7FFF then o else o + 0x20000)

/-- Set DIVERGED in OSTAT. -/
def State.setDiverged (s : State) (c : Nat) : State := s.setCtl (offObs c + 0x28) (s.ostat c ||| 0x10000)

/-- Mode of slice sl: 0 off, 1 record, 2 replay (R425). -/
def State.rpmode (s : State) (sl : Nat) : Nat := ((s.ctlAt (offReplay sl)).extractLsb' 0 2).toNat

/-- The status of a slice (R425). -/
def State.rpStatus (s : State) (sl : Nat) : W32 :=
  let x := s.slice sl
  BitVec.ofNat 32 (s.rpmode sl + (if x.pass then 4 else 0) + (if x.ended then 8 else 0) + (if x.div then 16 else 0)
    + min (if s.rpmode sl = 2 then x.idx else x.used) (2 ^ 24 - 1) * 2 ^ 8)

/-- Source number of slice sl in trace records and events (R408). -/
def srcOfSlice (sl : Nat) : Nat := 1024 + sl

/-! ## Record and replay (R425 to R427) -/

/-- A chunk's word: its requester tag and count (R426). -/
def Chunk.word (x : Chunk) : W32 :=
  BitVec.ofNat 32 (x.core * 2 ^ 22 + x.warp * 2 ^ 17 + (if x.eng then 2 ^ 16 else 0) + x.count % 2 ^ 16)

/-- The chunk that a word holds. -/
def Chunk.read (w : W32) : Chunk :=
  ⟨(w.extractLsb' 22 10).toNat, (w.extractLsb' 17 5).toNat, w.getLsbD 16, (w.extractLsb' 0 16).toNat⟩

/-- Payload words of an arbitration log record: two chunks to a word (R409). -/
def chunkWords : List Chunk → List W64
  | [] => []
  | [a] => [(0 : W32) ++ a.word]
  | a :: b :: l => (b.word ++ a.word) :: chunkWords l

/-- Send chunks in records of up to 16. -/
def State.rlogSend (s : State) (sl : Nat) : Nat → List Chunk → State
  | 0, _ => s
  | fuel + 1, l =>
    if l.isEmpty then s
    else (s.traceLossless 3 0 (srcOfSlice sl) (chunkWords (l.take 16))).rlogSend sl fuel (l.drop 16)

/-- The slice sends its closed chunks. -/
def State.rlogFlush (s : State) (sl : Nat) : State :=
  let x := s.slice sl
  (s.rlogSend sl x.closed.length x.closed).modSlice sl (fun x => { x with closed := [] })

/-- The current chunk closes; a full record of 16 chunks is sent (R426). -/
def State.chunkClose (s : State) (sl : Nat) : State :=
  match (s.slice sl).chunk with
  | none => s
  | some ch =>
    let s := s.modSlice sl (fun x => { x with
      chunk := none, closed := x.closed ++ [ch], used := x.used + 1
      age := if x.closed.isEmpty then s.time else x.age })
    if (s.slice sl).closed.length = 16 then s.rlogFlush sl else s

/-- An atomic has been performed at a slice in record mode (R426). -/
def State.logAtomic (s : State) (sl core warp : Nat) (eng : Bool) : State :=
  let same (ch : Chunk) : Bool := ch.core == core && ch.warp == warp && ch.eng == eng && decide (ch.count < 65535)
  match (s.slice sl).chunk with
  | some ch =>
    if same ch then s.modSlice sl (fun x => { x with chunk := some { ch with count := ch.count + 1 } })
    else (s.chunkClose sl).modSlice sl (fun x => { x with chunk := some ⟨core, warp, eng, 1⟩ })
  | none => s.modSlice sl (fun x => { x with chunk := some ⟨core, warp, eng, 1⟩ })

/-- The pending chunks are emitted, as when record mode is left (R410, R425). -/
def State.logEmit (s : State) (sl : Nat) : State := (s.chunkClose sl).rlogFlush sl

/-- The head chunk of a slice in replay; none at the end of the log (R427). -/
def State.gateHead (s : State) (sl : Nat) : Option Chunk :=
  let x := s.slice sl
  if (s.ctlAt (offReplay sl + 0x10)).toNat ≤ x.idx then none
  else
    let ch := Chunk.read (BitVec.ofNat 32 (s.readNat ((s.ctl64 (offReplay sl + 8)).toNat + 4 * x.idx) 4))
    if ch.count = 0 then none else some ch

/-- The requester of a waiting atomic: core, warp and engine bit (R426). -/
def SliceReq.tag (r : SliceReq) : Nat × Nat × Bool := (r.core, if r.eng then 0 else r.warp, r.eng)

/-- Does a waiting atomic come from the head's requester? -/
def Chunk.matches (x : Chunk) (r : SliceReq) : Bool := (x.core, x.warp, x.eng) == r.tag

/-- The gate of a slice holds back atomics; its head. -/
def State.gate (s : State) (sl : Nat) : Option Chunk :=
  if s.rpmode sl = 2 && !(s.slice sl).pass && !(s.slice sl).ended then s.gateHead sl else none

/-- The atomic that a slice performs next (R174, R427): the first to have arrived that the gate lets pass. -/
def State.nextAtomic (s : State) (sl : Nat) : Option SliceReq :=
  match s.gate sl with
  | some ch => (s.slice sl).reqs.find? (fun r => ch.matches r)
  | none => (s.slice sl).reqs.head?

/-- The gate has come to the end of its log, RLIDX at RLLEN or a chunk that counts none: END (R427). -/
def State.gateMark (s : State) (sl : Nat) : State :=
  if s.rpmode sl == 2 && !(s.slice sl).pass && (s.gateHead sl).isNone then s.modSlice sl (fun x => { x with ended := true }) else s

/-- An atomic has been performed in replay: the gate uses up one of its head and waits anew for the head's requester. -/
def State.gateUse (s : State) (sl : Nat) : State :=
  if s.rpmode sl ≠ 2 then s
  else
    let s := match s.gate sl with
      | some ch => s.modSlice sl (fun x =>
          if ch.count ≤ x.headUsed + 1 then { x with idx := x.idx + 1, headUsed := 0, quiet := s.time }
          else { x with headUsed := x.headUsed + 1, quiet := s.time })
      | none => s
    s.gateMark sl

/-- A write of RPMODE (R425): 3 is ignored. -/
def State.setRpmode (s : State) (sl m : Nat) : State :=
  if 2 < m then s
  else
    let s := if s.rpmode sl = 1 then s.logEmit sl else s
    let s := s.setCtl (offReplay sl) (BitVec.ofNat 32 m)
    let s := s.modSlice sl (fun x =>
      if m = 1 then { x with chunk := none, closed := [], used := 0 }
      else if m = 2 then { x with idx := 0, pass := false, ended := false, div := false, headUsed := 0, quiet := s.time }
      else x)
    s.gateMark sl

/-- The gate timeout of a slice in ticks (R425): 10 ticks to a slice cycle (R173). -/
def State.gtimeout (s : State) (sl : Nat) : Nat :=
  let g := (s.ctlAt (offReplay sl + 0x18)).toNat
  10 * (if g = 0 then 2 ^ 20 else g)

/-! ## The store hash (R428, R429) -/

/-- The warp hash. -/
def Warp.hash (w : Warp) : W64 := (List.range 32).foldl (fun acc i => acc ^^^ SMap.get 0 w.crc i) 0

/-- `%hash` of a core. -/
def Core.hash (k : Core) : W64 := k.warps.foldl (fun acc p => acc ^^^ p.2.hash) k.obs.ended

/-- Load the value of ended warps and zero every resident thread's CRC. -/
def State.setHash (s : State) (c : Nat) (v : W64) : State :=
  s.modCore c (fun k => { k with
    obs := { k.obs with ended := v }
    warps := k.warps.map (fun p => (p.1, { p.2 with crc := [] })) })

/-- Have the earlier writes of a path retired (R429)? -/
def Warp.hashQuiet (w : Warp) (lanes : W32) : Bool := !w.hq.any (fun h => lanes.getLsbD h.lane)

/-- An asynchronous cause is raised on a warp (R56). -/
def State.pend (s : State) (c w : Nat) (x : Async) : State := s.modWarp c w (fun y => { y with pend := y.pend ++ [x] })

/-- Word 1 of a HASH record (R409). -/
def hashWord (id : W32) (w rix k : Nat) : W64 := BitVec.ofNat 64 (id.toNat + w * 2 ^ 32 + rix * 2 ^ 37 + k % 2 ^ 24 * 2 ^ 40)

/-- The trace buffer takes core c's next HASH record at once (R429). -/
def State.hashRoom (s : State) (c : Nat) : Bool :=
  s.portUp && decide (s.hb.fill + 24 ≤ 1024 * 1024) && !(s.hb.waiting.any (fun p => p.1 = c))

/-- SHASH: the hash into its pair, and its record or its check (R429). -/
def State.shash (s : State) (c w : Nat) (d : Nat) (id lanes : W32) : State :=
  match (s.core c).warps.find? w with
  | none => s
  | some x =>
    let h := x.hash
    let k := x.hcnt
    let two : List W32 := [h.extractLsb' 0 32, h.extractLsb' 32 32]
    let res : Result := if 384 ≤ d then
        ⟨1 + Config.latency s.nonce, true, 7, .w, [d - 384, d - 383], lanes, two, 0, 0, s.nonce, [], []⟩
      else
        let regs := [rotate x.rotbase d, rotate x.rotbase (d + 1)]
        ⟨1 + Config.latency s.nonce, true, 7, .v, regs, lanes, laneVals lanes (fun _ => two), 0, 0, s.nonce, [], []⟩
    let s := (s.modWarp c w (fun x => { x with results := x.results ++ [res], hcnt := k + 1 })).tickNonce
    match s.hmode c with
    | 1 => if s.obsBit c 0 then s.traceLossless 4 0 c [hashWord id w x.rix k, h] else s
    | 2 =>
      let len := (s.ctlAt (offObs c + 0x20)).toNat
      let a := (s.ctl64 (offObs c + 0x18)).toNat + 16 * (len * w + k)
      if k < len ∧ s.readNat a 4 = id.toNat ∧ s.readNat (a + 8) 8 = h.toNat then s
      else ((s.setDiverged c).endpaper (quireOf c) 9 c 1 k w).pend c w .replayDiverge
    | _ => s

/-! ## Records that a core places (R409, R412, R422, R424) -/

/-- The absolute offset of an instruction (R116). -/
def Block.abs (b : Block) (pc : W32) : W64 := b.lr.code + pc.setWidth 64

/-- A marker record (R412): SUB 0 of TMARK, SUB 1 of a bundle with MARK. -/
def State.marker (s : State) (c w sub : Nat) (strand : Bool) (at_ : W64) (v : W32) : State :=
  if s.obsBit c 0 && s.obsBit c 2 then
    s.traceLossy 1 sub c [at_, BitVec.ofNat 64 (v.toNat + w * 2 ^ 32 + (if strand then 2 ^ 37 else 0))]
  else s

/-- A hazard is counted and marked (R422). -/
def State.hazard (s : State) (c w : Nat) (at_ : W64) (code kind : Nat) (lanes : W32) : State :=
  let s := s.countHazard c
  if s.obsBit c 0 then
    s.traceLossy 1 2 c [at_, BitVec.ofNat 64 (code + kind * 2 ^ 9 + w * 2 ^ 12 + lanes.toNat * 2 ^ 32)]
  else s

/-! ## Freezes -/

/-- The core has learnt that a kettle line has risen: it issues nothing until the release edge (R164). -/
def Clock.lined (k : Clock) : Bool := match k.align with | some (l, _) => decide (l ≤ k.edge) | none => false

/-- Its cycle is the alignment cycle, of at most 60 ticks, that ends at the release edge (R164). What the core does from the
moment it learns of the rise to this cycle is assumption 132. -/
def Clock.last (k : Clock) : Bool := k.lined && (match k.align with | some (_, r) => decide (r ≤ k.edge + 60) | none => false)

/-- A whole-core stop is in force. -/
def Core.stopAll (k : Core) : Bool := k.obs.stopped && k.obs.whole

/-- The strand issues nothing: a stop, its handler or a snapshot. -/
def Core.strandHeld (k : Core) : Bool :=
  k.obs.stopped || (match k.strand with | some t => t.snapped | none => false)

/-- The strand's path. -/
def Core.strandPath (k : Core) : Option (Nat × Warp × Path) :=
  match k.strand with
  | some t => (k.warps.find? t.warp).map (fun w => (t.warp, w, w.pri))
  | none => none

/-- Is the strand frozen by a hold (R154): what it waits for is neither a NOP, a group capacity nor a MODE? -/
def Core.strandFrozen (k : Core) : Bool :=
  k.strandHeld ||
    (match k.strandPath with
      | some (_, _, p) => (match p.park with
        | some (.nop _) => false
        | some (.mode _) => false
        | some .switch => false
        | some .exit => false
        | some .capacity => false
        | some .fma => false
        | some (.trap ..) => false
        | some _ => true
        | none => false)
      | none => false)

/-- The strand waits for the matrix engine or its allocator: a freeze that does not hold the engine's current instruction, which it
waits for (R154, R268, R269; assumption 110). -/
def Core.strandAtMx (k : Core) : Bool :=
  match k.strandPath with
  | some (_, _, p) => p.park == some .mx || p.park == some .banks || p.park == some .accfree || p.park == some .record
  | none => false

/-- The strand is in a snapshot freeze for a fault or a stop: that of a pre-emption completes the engine's instruction (R270). -/
def Core.strandCaught (k : Core) : Bool :=
  match k.strandPath, k.strand with
  | some (_, w, _), some t => t.snapped && (match k.blocks.find? w.rix with | some b => b.halt == 0 | none => true)
  | _, _ => false

/-- Does the matrix engine hold (R270): a freeze of the core, or of the strand that issued its instruction; a
snapshot of the strand for a fault or a stop holds it too? -/
def Core.mxHeld (k : Core) : Bool :=
  k.ck.stalled || k.obs.stopped || k.strandCaught
    || (k.strandFrozen && !k.strandAtMx && !(match k.strand with | some t => t.snapped | none => false)
      && (match k.mx.cur with | some r => r.entry.strand | none => false))

/-- A lane access of core c has lost a bank, its own or another core's: the whole core freezes (R16, R168). -/
def State.bankFrozen (s : State) (c : Nat) : Bool :=
  s.cores.any (fun p => p.2.ck.words.any (fun w => decide (w.port < 5) && w.src == c && decide (0 < w.wait)))

/-- A hold of the whole core is in force in its current cycle (R154). -/
def State.frozen (s : State) (c : Nat) : Bool :=
  let k := s.core c
  k.ck.stalled || k.ck.aligning || k.stopAll || s.bankFrozen c

/-- The class of the cycle (R378, R379): the highest of the operations in execute. -/
def State.cycleClass (s : State) (c : Nat) : Nat :=
  if s.frozen c then 0
  else
    let k := s.core c
    let l := k.ck.exec.filterMap (fun x => if x.2.2 = 0 ∨ (x.1 ∧ k.strandFrozen) then none else some x.2.1)
    let m := match k.mx.cur with | some r => if k.mxHeld then 0 else r.cls | none => 0
    let q := match k.mx.reading with | some r => if k.mxHeld || r.held || !r.asked then 0 else r.cls | none => 0
    l.foldl max (max m q)

/-! ## Sampling (R416) -/

/-- The reason of a parked path. -/
def Park.reason : Park → Nat
  | .switch => 1
  | .flags => 1
  | .translate => 4
  | .presence => 2
  | .requests _ => 3
  | .phase .. => 9
  | .mx => 5
  | .banks => 7
  | .accfree => 5
  | .engine => 8
  | .kick => 8
  | .token => 8
  | .folld => 11
  | .sync _ => 10
  | .collapse .. => 12
  | .mode _ => 12
  | .nop _ => 13
  | .fence .. => 3
  | .sc _ => 3
  | .home => 3
  | .engines => 8
  | .racq => 3
  | .inval => 4
  | .shash => 3
  | .domset => 10
  | .fetch => 11
  | .trap .. => 18
  | .eret => 1
  | .interlock => 14
  | .record => 5
  | .exit => 3
  | .capacity => 14
  | .fma => 14

/-- The reason of a path of core c; a heavy step at the head of engine order waits for its grant, a MODE transition leaves its
path ready, and a folio that a path has not come to in sequence is fetched for a transfer of control. -/
def State.pathReason (s : State) (c w : Nat) (alt : Bool) (p : Path) : Nat :=
  match p.park with
  | some .mx =>
    let m := (s.core c).mx
    (match m.queue with
      | x :: _ => if x.heavy && x.warp == w && x.alt == alt && m.idle && !s.mayLight c then 6 else 5
      | [] => 5)
  | some (.mode _) => if (match (s.core c).strand with | some t => t.warp == w && t.expands | none => false) then 12 else 21
  | some .fetch => if p.home.isNone then 20 else 11
  | some r => r.reason
  | none =>
    if (match (s.core c).warps.find? w with | some x => x.sw | none => false) then 1 else if p.yielded then 13 else 21

/-- The live paths of a core that its SIMT decoder may select, with the warp's number. -/
def Core.livePaths (k : Core) : List (Nat × Bool × Warp × Path) :=
  k.warps.flatMap (fun p =>
    match k.warps.find? p.1 with
    | some w =>
      if w.strand && w.hand.isNone then []
      else (if w.pri.live then [(p.1, false, w, w.pri)] else []) ++ (if w.alt.live then [(p.1, true, w, w.alt)] else [])
    | none => [])

/-- The oldest blocker: the path whose next instruction has waited longest; ties to the lower warp, then to the
primary path. -/
def oldest : List (Nat × Bool × Warp × Path) → Option (Nat × Bool × Warp × Path)
  | [] => none
  | x :: l =>
    match oldest l with
    | some y => if x.2.2.2.age < y.2.2.2.age then some y else some x
    | none => some x

/-- The reason of a whole-core freeze, the highest of those in force. -/
def State.coreReason (s : State) (c : Nat) : Option Nat :=
  let k := s.core c
  if k.stopAll then some 17 else if k.ck.stalled then some 16
  else if s.bankFrozen c then some 15 else none

/-- One sample record. -/
def State.sampleOne (s : State) (c : Nat) (x : Option (Nat × Bool × Bool × W32 × Nat)) : State :=
  let k := s.core c
  let tail := s.cycleClass c * 2 ^ 16 + k.gov.run * 2 ^ 18 + k.ck.cycle % 2 ^ 32 * 2 ^ 32
  match x with
  | some (w, strand, alt, pc, reason) =>
    let rix := match k.warps.find? w with | some y => y.rix | none => 0
    let at_ := match k.blocks.find? rix with | some b => b.abs pc | none => 0
    s.traceLossy 0 0 c [at_, BitVec.ofNat 64 (w + (if strand then 32 else 0) + (if alt then 64 else 0) + rix * 2 ^ 7
      + reason * 2 ^ 10 + tail)]
  | none => s.traceLossy 0 0 c [0, BitVec.ofNat 64 (19 * 2 ^ 10 + tail)]

/-- The sample of the SIMT decoder: what it issued, else the oldest blocker. -/
def State.sampleSimt (s : State) (c : Nat) : State :=
  let k := s.core c
  match (if s.frozen c then none else k.ck.named.find? (fun n => !n.1)) with
  | some (_, w, alt, pc) => s.sampleOne c (some (w, false, alt, pc, 0))
  | none =>
    s.sampleOne c ((oldest k.livePaths).map (fun x =>
      (x.1, false, x.2.1, x.2.2.2.pc, (s.coreReason c).getD (s.pathReason c x.1 x.2.1 x.2.2.2))))

/-- The sample of the VLIW decoder: what it issued, else the strand's next bundle. -/
def State.sampleStrand (s : State) (c : Nat) : State :=
  let k := s.core c
  match (if s.frozen c then none else k.ck.named.find? (fun n => n.1)) with
  | some (_, w, _, pc) => s.sampleOne c (some (w, true, false, pc, 0))
  | none =>
    s.sampleOne c (k.strandPath.map (fun x =>
      (x.1, true, false, (match x.2.1.hand with | some h => h.pri.pc | none => x.2.2.pc),
        (s.coreReason c).getD (if k.obs.stopped then 17 else if x.2.1.hand.isSome then 18 else s.pathReason c x.1 false x.2.2))))

/-- A cycle is sampled for each decoder that has clusters. -/
def State.sampleCycle (s : State) (c : Nat) : State :=
  let k := s.core c
  let s := if k.strand.isSome then s.sampleStrand c else s
  let s := if decide (0 < k.simtClusters) || (match k.strandPath with | some x => x.2.1.hand.isSome | none => false) then
      s.sampleSimt c
    else s
  s.modCore c (fun k => { k with obs := { k.obs with sampled := true } })

/-! ## Precise stops (R417 to R420) -/

/-- The stop takes effect at the start of the cycle: everything it names is frozen by snapshot (R418). -/
def State.stopNow (s : State) (c cause tag : Nat) (whole : Bool) : State :=
  let k := s.core c
  (s.modCore c (fun k => { k with
      obs := { k.obs with armed := false, stopped := true, whole := whole, resuming := false, dumping := s.portUp
                          cause := cause, tag := tag, bkpt := none, first := (k.ck.cycle, k.ck.edge), lines := 0 } })).endpaper (quireOf c) 10 c cause k.ck.cycle 0

/-- Words of 64 bits of a list of bytes, filled with zeros. -/
def words64 : Nat → List Byte → List W64
  | 0, _ => []
  | fuel + 1, l =>
    match l with
    | [] => []
    | _ => BitVec.ofNat 64 (bytesNat (l.take 8)) :: words64 fuel (l.drop 8)

/-- The DUMP records of a part, of up to 4,094 words, numbered from n. -/
def State.dumpPart (s : State) (c sub : Nat) : Nat → Nat → List W64 → State
  | 0, _, _ => s
  | fuel + 1, n, l =>
    let last := decide (l.length ≤ 4094)
    let s := s.traceLossless 5 sub c (BitVec.ofNat 64 (n + (if last then 2 ^ 16 else 0)) :: l.take 4094)
    if last then s else s.dumpPart c sub fuel (n + 1) (l.drop 4094)

/-- The whole dump of a stop (R420). -/
def State.dumpAll (s : State) (c : Nat) : State :=
  let k := s.core c
  let put (s : State) (sub : Nat) (b : List Byte) : State := s.dumpPart c sub b.length 0 (words64 b.length b)
  let s := put s 0 (s.dumpStrand c k.obs.first 0 k.obs.cause k.obs.tag (if k.obs.whole then k.dumpWords else 0))
  let s := if k.obs.whole then put s 1 k.dumpWarps else s
  let s := if (s.stopctl c).getLsbD 7 then
      put s 2 (k.blocks.flatMap (fun b =>
        let cs := k.corder.filterMap (fun i => (k.copy.find? i).bind (fun q => if q.rix = b.1 then some q else none))
        let ms := k.mar.order.filterMap (fun i => (k.mar.slots.find? i).bind (fun q => if q.rix = b.1 then some (i, q) else none))
        s.context c b.1 b.2 cs ms (k.clasp.filter (fun x => x.rix == b.1)) k.obs.first 0 k.obs.cause))
    else s
  s.modCore c (fun k => { k with obs := { k.obs with dumping := false } })

/-- Every pending interlocked result of a stopped core, or strand, is in the capture (R418), but for accesses that met a fault and
are to be performed again (R158). -/
def Core.capturesDone (k : Core) : Bool :=
  k.warps.all (fun w => !(k.obs.whole || w.2.bundled) || w.2.results.all (fun r => !r.lock || r.ready || k.again r))

/-- The scratchpad lines of the resident blocks that part 4 of a dump holds, in its order: resident index and offset. -/
def Core.windowLines (k : Core) : List (Nat × Nat) :=
  k.blocks.flatMap (fun b => (List.range (b.2.window / 128)).map (fun i => (b.1, 128 * i)))

/-- A dump goes on: part 4 reads each line of the windows through the banks, one after the other (R345, R423; assumption 112),
and the dump is placed when none is left. -/
def State.dumpNext (s : State) (c : Nat) : State :=
  let k := s.core c
  if k.ck.words.any (fun w => w.port == 7) then s
  else
    match (if (s.stopctl c).getLsbD 7 then k.windowLines[k.obs.lines]? else none) with
    | some (r, off) =>
      (s.bankWords c r off 128 7 0 c 3).modCore c (fun k => { k with obs := { k.obs with lines := k.obs.lines + 1 } })
    | none => s.dumpAll c

/-- The resume takes effect (R419). -/
def State.resumeNow (s : State) (c : Nat) : State :=
  let k := s.core c
  (s.modCore c (fun k => { k with
      obs := { k.obs with stopped := false, whole := false, resuming := false }
      strand := k.strand.map (fun t => if t.snapped then t else t.again) })).endpaper
    (quireOf c) 10 c (k.obs.cause + 256) k.ck.cycle 0

/-- At the end of a cycle of a stopped core: its dump is placed once every interlocked result is in it, and a
resume takes effect once the buffer has accepted the dump. -/
def State.stopEdge (s : State) (c : Nat) : State :=
  let s := if (s.core c).obs.dumping && (s.core c).capturesDone then s.dumpNext c else s
  let o := (s.core c).obs
  if o.stopped && o.resuming && !o.dumping && !(s.hb.waiting.any (fun p => p.1 = c)) then s.resumeNow c else s

/-! ## Instructions (R411 to R415) -/

def bodyTmark (f : F2) : Body := fun e s => do
  let a ← e.plainSrc 7 f.a
  e.landed [a]
  e.once a (fun _ x => .ok (s.marker e.c e.w 0 e.strand (e.blk.abs e.pc) x)) s

def bodyTmarkI (f : FI) : Body := fun e s =>
  .ok (if e.elected.isNone then s else s.marker e.c e.w 0 e.strand (e.blk.abs e.pc) (f.imm.setWidth 32))

/-- BKPT with its tag: a trap, or a precise stop of the core (R413). -/
def Env.breakpoint (e : Env) (tag : Nat) (s : State) : Except Stop State :=
  if s.obsBit e.c 6 then .ok (s.modCore e.c (fun k => { k with obs := { k.obs with bkpt := some tag } }))
  else .error (.trap cBkpt e.act)

def bodyBkpt (f : F2) : Body := fun e s => do
  let a ← e.plainSrc 7 f.a
  e.landed [a]
  e.once a (fun _ x => e.breakpoint (x.extractLsb' 0 24).toNat s) s

def bodyBkptI (f : FI) : Body := fun e s =>
  if e.elected.isNone then .ok s else e.breakpoint f.imm.toNat s

/-- A SHASH that issues now need not wait: every earlier write of its path has retired, and its HASH record, if it places
one, is accepted at once. One in a bundle that places a record is left to SHASH_RETIRE. -/
def Env.hashFree (e : Env) (s : State) : Bool :=
  e.warp.hashQuiet e.path.mask
    && (match e.core.strand with | some t => t.warp != e.w || t.deferred.isEmpty | none => true)
    && (!(s.hmode e.c == 1 && s.obsBit e.c 0) || (!e.strand && s.hashRoom e.c))

/-- SHASH takes its effect once the path's earlier writes have retired: at issue when none is outstanding, else
SHASH_RETIRE completes it while the path is parked (R429). -/
def bodyShash (f : F2) : Body := fun e s => do
  e.dstVW f.d true
  let a ← e.plainSrc 7 f.a
  e.landed [a]
  e.once a (fun _ x =>
    if e.path.granted.contains .shash then .ok s
    else if e.hashFree s then .ok (s.shash e.c e.w f.d.toNat x e.act)
    else .error (.wait .shash (fun s => s.modCore e.c (fun k => { k with
      hashes := k.hashes ++ [(e.w, e.alt, f.d.toNat, x, e.act)] })))) s

/-- What CONFRD reads (R414). -/
def State.confValue (s : State) (c : Nat) (x : W32) : Option W32 :=
  let i := (x.extractLsb' 0 12).toNat
  let o := (s.core c).obs
  if x.extractLsb' 16 16 != 0 then none
  else
    match (x.extractLsb' 12 4).toNat with
    | 0 => if i < 256 then some (SMap.get 0 o.bcm i) else none
    | 1 => if i < 256 then some (SMap.get 0 o.snap i) else none
    | 2 =>
      match i with
      | 0 => some (s.obsctl c)
      | 1 => some (s.ostat c)
      | 2 => some (s.ctlAt (offObs c + 4))
      | _ => none
    | 3 =>
      if i < 6 then some 1
      else
        match i with
        | 6 => some (s.boot.header 1)
        | 7 => some (s.boot.header 4)
        | 8 => some (s.boot.header 5)
        | _ => none
    | _ => none

def bodyConfrd (f : F2) : Body := fun e s => do
  (if e.strand then e.dstW f.d false else e.dstVW f.d false)
  let a ← e.plainSrc 7 f.a
  e.landed [a]
  e.once a (fun l x =>
    match s.confValue e.c x with
    | some v => .ok (e.putVW 7 2 false f.d false (v.setWidth 64) s)
    | none => .error (.trap cIllegalOperand (bit l))) s

/-- RPCTL: the slice's mode for MOD 0 to 2, then its status (R415). -/
def rpctlBody (f : F2) (m : Option Nat) : Body := fun e s => do
  need e.warp.priv cPrivilege e.dec
  e.dstVW f.d false
  let a ← e.plainSrc 7 f.a
  e.landed [a]
  e.once a (fun l x => do
    need (x.extractLsb' 9 23 == 0) cIllegalOperand (bit l)
    let sl := (x.extractLsb' 0 9).toNat
    let s := match m with | some m => s.setRpmode sl m | none => s
    .ok (e.putVW 7 0 true f.d false ((s.rpStatus sl).setWidth 64) s)) s

def bodyRpctlOff (f : F2) : Body := rpctlBody f (some 0)
def bodyRpctlRec (f : F2) : Body := rpctlBody f (some 1)
def bodyRpctlReplay (f : F2) : Body := rpctlBody f (some 2)
def bodyRpctlQuery (f : F2) : Body := rpctlBody f none

/-! ## Meanings of the constructors -/

/-- The meaning of tmark (R412). -/
def execTmark (f : F2) (s : State) : Host.Outcome State Fault Refusal :=
  issue (costOf (.tmark f)) f.g (bodyTmark f) s

/-- The meaning of tmarkI (R412). -/
def execTmarkI (f : FI) (s : State) : Host.Outcome State Fault Refusal :=
  issue (costOf (.tmarkI f)) f.g (bodyTmarkI f) s

/-- The meaning of bkpt (R413). -/
def execBkpt (f : F2) (s : State) : Host.Outcome State Fault Refusal :=
  issue (costOf (.bkpt f)) f.g (bodyBkpt f) s

/-- The meaning of bkptI (R413). -/
def execBkptI (f : FI) (s : State) : Host.Outcome State Fault Refusal :=
  issue (costOf (.bkptI f)) f.g (bodyBkptI f) s

/-- The meaning of shash (R429). -/
def execShash (f : F2) (s : State) : Host.Outcome State Fault Refusal :=
  issue (costOf (.shash f)) f.g (bodyShash f) s

/-- The meaning of confrd (R414). -/
def execConfrd (f : F2) (s : State) : Host.Outcome State Fault Refusal :=
  issue (costOf (.confrd f)) f.g (bodyConfrd f) s

/-- The meaning of rpctlOff (R415). -/
def execRpctlOff (f : F2) (s : State) : Host.Outcome State Fault Refusal :=
  issue (costOf (.rpctlOff f)) f.g (bodyRpctlOff f) s

/-- The meaning of rpctlRec (R415). -/
def execRpctlRec (f : F2) (s : State) : Host.Outcome State Fault Refusal :=
  issue (costOf (.rpctlRec f)) f.g (bodyRpctlRec f) s

/-- The meaning of rpctlReplay (R415). -/
def execRpctlReplay (f : F2) (s : State) : Host.Outcome State Fault Refusal :=
  issue (costOf (.rpctlReplay f)) f.g (bodyRpctlReplay f) s

/-- The meaning of rpctlQuery (R415). -/
def execRpctlQuery (f : F2) (s : State) : Host.Outcome State Fault Refusal :=
  issue (costOf (.rpctlQuery f)) f.g (bodyRpctlQuery f) s

end Sys2Proof.Machine
end

