-- ==== Sys2Proof/Machine/Sy.lean ====
section
/-! DEFINITION. The system unit's remaining instructions: special registers (R38, R52, R145, R149), translation
instructions (R358 to R364) and QSUB (R328, R329). -/

namespace Sys2Proof.Machine

/-! ## Special registers (R38) -/

/-- Is the value of a special register its lane's own? -/
def spPerLane (code : Nat) : Bool := code == 0x00 || code == 0x0B || code == 0x0D

/-- Is a special register 64 bits wide? -/
def spWide (code : Nat) : Bool := code == 0x08 || code == 0x09 || code == 0x12 || code == 0x13 || code == 0x15

/-- A register that a privileged warp alone may write. -/
def spPriv (code : Nat) : Bool := code == 0x12 || code == 0x14 || code == 0x15 || code == 0x16

/-- A register that any warp may write. -/
def spUser (code : Nat) : Bool := decide (0x0B ≤ code ∧ code ≤ 0x11)

/-- `%mode` (R149). DEDUCED: a strand's handler runs as a warp (R160), so STR reads 0 in it. -/
def Env.modeReg (e : Env) : W32 :=
  let n := match e.core.strand with | some t => t.clusters | none => 0
  BitVec.ofNat 32 (16 * modeBits n + (if e.strand then 1 else 0))

/-- What a special register reads as in a lane. -/
def Env.special (e : Env) (s : State) (code lane : Nat) : W64 :=
  let n (x : Nat) : W64 := BitVec.ofNat 64 x
  let k := s.core e.c
  match code with
  | 0x00 => n lane
  | 0x01 => n e.w
  | 0x02 => n e.c
  | 0x03 => n (gatheringOf e.c)
  | 0x04 => n (quireOf e.c)
  | 0x05 => n e.blk.bno
  | 0x06 => n e.warp.role
  | 0x07 => e.modeReg.setWidth 64
  | 0x08 => n k.ck.cycle
  | 0x09 => n s.time
  | 0x0A => k.gov.oppoint.setWidth 64
  | 0x0B => (SMap.get 0 e.warp.flags lane).setWidth 64
  | 0x0C => e.warp.fmode.setWidth 64
  | 0x0D => (SMap.get 0 e.warp.seed lane).setWidth 64
  | 0x0E => n ((e.loops[0]?.map (·.e)).getD 0)
  | 0x0F => n ((e.loops[1]?.map (·.e)).getD 0)
  | 0x10 => n ((e.loops[2]?.map (·.e)).getD 0)
  | 0x11 => n ((e.loops[3]?.map (·.e)).getD 0)
  | 0x12 => k.hash
  | 0x13 => n k.ck.gstall
  | 0x14 => e.warp.trapcause.setWidth 64
  | 0x15 => e.warp.trappc
  | 0x16 => e.warp.traplanes.setWidth 64
  | 0x17 => k.domain.setWidth 64
  | 0x18 => k.kick.setWidth 64
  | 0x19 => e.warp.rotbase.setWidth 64
  | _ => if e.warp.priv then 1 else 0

/-- GETSP (R52): in every active lane, or once to a w register when the value is not per lane. -/
def bodyGetsp (f : F2) : Body := fun e s => do
  let code := f.b.toNat
  e.field (decide (code < 0x1B) && !(spPerLane code && isW f.d))
  e.dstVW f.d (spWide code)
  .ok (if e.act = 0 then s
    else if isW f.d then e.putVW 7 2 false f.d (spWide code) (e.special s code 0) s
    else e.put 7 2 false .v (e.phys f.d.toNat (if spWide code then 2 else 1)) e.act
      (laneVals e.act (fun l => words (spWide code) (e.special s code l))) s)

/-- The value that each register keeps of what is written to it, and the write (R4, R52). -/
def Env.setSpecial (e : Env) (code : Nat) (lanes : List Nat) (val : Nat → W64) (first : W64) (s : State) : State :=
  let w (f : Warp → Warp) : State := s.modWarp e.c e.w f
  let x : W32 := first.setWidth 32
  match code with
  | 0x0B => w (fun y => { y with flags := lanes.foldl (fun m l => SMap.set 0 m l ((val l).setWidth 32 &&& 0x1F)) y.flags })
  | 0x0C => w (fun y => { y with fmode := fmodeStore x })
  | 0x0D => w (fun y => { y with seed := lanes.foldl (fun m l => SMap.set 0 m l (srseedStore ((val l).setWidth 32))) y.seed })
  | 0x12 => s.setHash e.c first
  | 0x14 => w (fun y => { y with trapcause := x })
  | 0x15 => w (fun y => { y with trappc := first })
  | 0x16 => w (fun y => { y with traplanes := x })
  | _ =>
    e.setLoops (fun l => l.modify (code - 0x0E) (fun y => { y with e := x.toNat })) s

/-- SETSP (R52): at issue; a write of the flags waits for the warp's FU and SF results (R97). -/
def bodySetsp (f : F2) : Body := fun e s => do
  let code := f.b.toNat
  need (!spPriv code || e.warp.priv) cPrivilege e.dec
  e.field (spPriv code || spUser code)
  let a : Opnd := ⟨7, 9, f.amod, f.a, spWide code, false⟩
  e.sources [a]
  e.landed [a]
  (if code = 0x0B then e.flagsQuiet else .ok ())
  match lowest e.act with
  | none => .ok s
  | some l => .ok (e.setSpecial code (lanesOf e.act) (a.val e) (a.val e l) s)

/-! ## XLATE and XPROBE (R358 to R361) -/

/-- What the lanes' addresses find at once: a status, or none for a miss (R359, R360). -/
def State.xstatus (s : State) (c pasid : Nat) (lane va : Nat) : Option W32 :=
  if !canonical va then some (faultStatus rNotMapped)
  else ((s.core c).lookup lane pasid va false).map (fun t => t.status true)

/-- The translations that XLATE's lanes find set their last-page registers (R359). -/
def Env.xlateHits (e : Env) (at_ : List (Nat × Nat)) (s : State) : State :=
  at_.foldl (fun s p =>
    match (s.core e.c).lookup p.1 e.blk.pasid p.2 false with
    | some t => if canonical p.2 then s.loadLpr e.c p.1 t else s
    | none => s) s

/-- XLATE's result is on its way: each lane's status that is known, and the number that walks will bring (R360). -/
def Env.xlatePut (e : Env) (d : Code) (at_ : List (Nat × Nat)) (misses : Nat) (s : State) : State :=
  let id := s.nonce
  let vals := at_.map (fun p => (s.xstatus e.c e.blk.pasid p.1 p.2).getD 0)
  (e.put 4 0 true .v (e.phys d.toNat 1) e.act vals s).modWarp e.c e.w (fun w =>
    w.modResult id (fun r => { r with due := misses, rem := if misses = 0 then 1 + Config.latency id % 6 else r.rem }))

/-- XLATE: a status for each lane, by walks where nothing is cached (R360). -/
def bodyXlate (f : F2) : Body := fun e s => do
  e.dstV f.d false
  let a ← e.pairSrc 7 f.a
  e.landed [a]
  let lanes := lanesOf e.act
  if lanes = [] then .ok s
  else
    let at_ := lanes.map (fun l => (l, (a.val e l).toNat))
    let miss := at_.filter (fun p => (s.xstatus e.c e.blk.pasid p.1 p.2).isNone)
    let t := e.xlateHits at_ (e.xlatePut f.d at_ miss.length s)
    .ok (if miss.isEmpty then t
      else (t.modCore e.c (fun k => { k with xlates := k.xlates ++ [⟨s.nonce, e.w, e.blk.pasid, miss⟩] })).startWalks
        e.c e.blk.pasid false true (.xlate s.nonce) (miss.map (·.2)))

/-- XPROBE: what the last-page register or the core TLB holds, and nothing else (R361). -/
def bodyXprobe (f : F2) : Body := fun e s => do
  e.dstV f.d false
  let a ← e.pairSrc 7 f.a
  e.landed [a]
  .ok (if e.act = 0 then s
    else e.put 4 2 false .v (e.phys f.d.toNat 1) e.act
      (laneVals e.act (fun l =>
        let va := (a.val e l).toNat
        [match e.core.cached l e.blk.pasid va with
          | some t => if canonical va then t.status true else 0
          | none => 0])) s)

/-! ## Invalidation (R362 to R364) -/

/-- An invalidation starts: the sweep at once, then its wait for what is in flight. -/
def State.startInval (s : State) (v : Cover) (c : Nat) (who : Option (Nat × Bool)) : State :=
  let s := s.sweep v c
  let x : Inval := ⟨v.mode, v.pasid, v.va, v.len, c, who, s.nonce⟩
  { s with invals := s.invals ++ [x] }.tickNonce

/-- XINV and XFLUSH: once, privileged; the path waits until the sweep is complete. -/
def Env.invalidate (e : Env) (v : Cover) (s : State) : Except Stop State := do
  (if v.mode = 4 ∨ e.path.granted.contains .inval then .ok () else e.settled s true)
  e.await .inval (fun s => s.startInval v e.c (some (e.w, e.alt)))
  .ok s

def bodyXinvPage (f : F2) : Body := fun e s => do
  need e.warp.priv cPrivilege e.dec
  let a ← e.pairSrc 7 f.a
  e.landed [a]
  match e.elected with
  | none => .ok s
  | some l => e.invalidate ⟨0, some e.blk.pasid, (a.val e l).toNat, 0⟩ s

def bodyXinvRange (f : F2) : Body := fun e s => do
  need e.warp.priv cPrivilege e.dec
  let a ← e.pairSrc 7 f.a
  let b ← e.plainSrc 7 f.b
  e.landed [a, b]
  match e.elected with
  | none => .ok s
  | some l => do
    let n := (b.val32 e l).toNat
    need (decide (1 ≤ n ∧ n ≤ 2 ^ 24)) cIllegalOperand (bit l)
    e.invalidate ⟨1, some e.blk.pasid, (a.val e l).toNat / 65536 * 65536, 65536 * n⟩ s

def bodyXinvPasid (f : F2) : Body := fun e s => do
  need e.warp.priv cPrivilege e.dec
  let a ← e.plainSrc 7 f.a
  e.landed [a]
  match e.elected with
  | none => .ok s
  | some l => do
    need (a.val32 e l |>.extractLsb' 20 12 |> (· == 0)) cIllegalOperand (bit l)
    e.invalidate ⟨2, some (a.val32 e l).toNat, 0, 0⟩ s

def bodyXinvAll (_f : F2) : Body := fun e s => do
  need e.warp.priv cPrivilege e.dec
  if e.elected.isNone then .ok s else e.invalidate ⟨3, none, 0, 0⟩ s

/-- XFLUSH: the issuing core alone (R363). -/
def bodyXflush (_f : F2) : Body := fun e s => do
  need e.warp.priv cPrivilege e.dec
  if e.elected.isNone then .ok s else e.invalidate ⟨4, none, 0, 0⟩ s

/-! ## QSUB (R328, R329) -/

/-- Offset of a queue's registers (R316). -/
def offQueue (q : Nat) : Nat := 0x10000 + 0x40 * q

/-- QCTL of a queue. -/
def State.qctl (s : State) (q : Nat) : W32 := s.ctlAt (offQueue q + 8)

/-- PASID of a queue. -/
def State.qpasid (s : State) (q : Nat) : Nat := ((s.ctlAt (offQueue q + 0xC)).extractLsb' 0 20).toNat

/-- QWP and QRP of a queue. -/
def State.qwp (s : State) (q : Nat) : Nat := (s.ctlAt (offQueue q + 0x10)).toNat
def State.qrp (s : State) (q : Nat) : Nat := (s.ctlAt (offQueue q + 0x14)).toNat

/-- Entries of a queue (R317). -/
def State.qsize (s : State) (q : Nat) : Nat := 2 ^ ((s.qctl q).extractLsb' 6 4).toNat

/-- Tickets reserved so far, the write pointer where none is outstanding. -/
def State.reserved (s : State) (q : Nat) : Nat := (s.tickets.find? q).getD (s.qwp q)

/-- The queue has no free entry for another ticket. -/
def State.qfull (s : State) (q : Nat) : Bool := (s.reserved q + 2 ^ 32 - s.qrp q) % 2 ^ 32 == s.qsize q

/-- QSUB reserves the queue's next ticket for a record, or reads all ones when the queue is full (R328, R329). -/
def Env.qsubTake (e : Env) (d : Code) (lane q : Nat) (record : List Byte) (s : State) : State :=
  if s.qfull q then e.put 7 2 false .w [d.toNat - 384] (bit lane) [0xFFFFFFFF] s
  else
    let t := s.reserved q
    let s := e.put 7 2 false .w [d.toNat - 384] (bit lane) [BitVec.ofNat 32 t] s
    { s with tickets := s.tickets.put q ((t + 1) % 2 ^ 32)
             qsubs := s.qsubs ++ [⟨q, t, record, e.c, e.w, s.nonce⟩] }

def bodyQsub (f : F2) : Body := fun e s => do
  e.dstW f.d false
  let a ← e.plainSrc 7 f.a
  let b ← e.plainSrc 7 f.b
  e.landed [a, b]
  match e.elected with
  | none => .ok s
  | some l => do
    let off := (a.val32 e l).toNat
    let q := (b.val32 e l).toNat
    need (decide (q < 64)) cIllegalOperand (bit l)
    need (off % 128 == 0) cDataAlign (bit l)
    need (decide (off + 128 ≤ e.blk.window)) cAccess (bit l)
    need ((s.qctl q).getLsbD 0 && (s.qctl q).getLsbD 4) cAccess (bit l)
    need (s.qpasid q == e.blk.pasid || e.warp.priv) cAccess (bit l)
    need (!s.claspHit e.c false off 128 (.scr e.c e.warp.rix off)) cClasp (bit l)
    if s.linePresent e.c e.warp.rix (off / 128) then do
      let rec_ := s.scratchRead e.c e.warp.rix off 128
      need (!(rec_.getD 36 0).getLsbD 0 || e.warp.priv) cPrivilege (bit l)
      let s := s.bankWords e.c e.warp.rix off 128 (e.bankPort l).1 0 e.c 0
      .ok (e.qsubTake f.d l q rec_ s)
    else .error (.wait .presence id)

/-! ## Meanings of the constructors -/

/-- The meaning of xlate (R360). -/
def execXlate (f : F2) (s : State) : Host.Outcome State Fault Refusal :=
  issue (costOf (.xlate f)) f.g (bodyXlate f) s

/-- The meaning of xprobe (R361). -/
def execXprobe (f : F2) (s : State) : Host.Outcome State Fault Refusal :=
  issue (costOf (.xprobe f)) f.g (bodyXprobe f) s

/-- The meaning of xinvPage (R362). -/
def execXinvPage (f : F2) (s : State) : Host.Outcome State Fault Refusal :=
  issue (costOf (.xinvPage f)) f.g (bodyXinvPage f) s

/-- The meaning of xinvRange (R362). -/
def execXinvRange (f : F2) (s : State) : Host.Outcome State Fault Refusal :=
  issue (costOf (.xinvRange f)) f.g (bodyXinvRange f) s

/-- The meaning of xinvPasid (R362). -/
def execXinvPasid (f : F2) (s : State) : Host.Outcome State Fault Refusal :=
  issue (costOf (.xinvPasid f)) f.g (bodyXinvPasid f) s

/-- The meaning of xinvAll (R362). -/
def execXinvAll (f : F2) (s : State) : Host.Outcome State Fault Refusal :=
  issue (costOf (.xinvAll f)) f.g (bodyXinvAll f) s

/-- The meaning of xflush (R363). -/
def execXflush (f : F2) (s : State) : Host.Outcome State Fault Refusal :=
  issue (costOf (.xflush f)) f.g (bodyXflush f) s

/-- The meaning of qsub (R329). -/
def execQsub (f : F2) (s : State) : Host.Outcome State Fault Refusal :=
  issue (costOf (.qsub f)) f.g (bodyQsub f) s

/-- The meaning of getsp (R52). -/
def execGetsp (f : F2) (s : State) : Host.Outcome State Fault Refusal :=
  issue (costOf (.getsp f)) f.g (bodyGetsp f) s

/-- The meaning of setsp (R52). -/
def execSetsp (f : F2) (s : State) : Host.Outcome State Fault Refusal :=
  issue (costOf (.setsp f)) f.g (bodySetsp f) s

end Sys2Proof.Machine
end

