-- ==== Sys2Proof/Machine/Bundle.lean ====
section
/-! DEFINITION. Bundles: the header, the assignment of slots to lanes and engines, the checks in their order, and
the issue of every slot together (R46 to R49, R150, R153, R421). -/

namespace Sys2Proof.Machine

/-! ## The effect of a slot -/

/-- The effect of an instruction for its issuer; a bundle or an event is no slot. -/
def slotBody (i : Instr) : Body :=
  match i with
  | .mov f => bodyMov f
  | .iadd f => bodyIadd f
  | .iaddI f => bodyIaddI f
  | .isub f => bodyIsub f
  | .isubI f => bodyIsubI f
  | .imul f => bodyImul f
  | .imulI f => bodyImulI f
  | .imulh f => bodyImulh f
  | .imulhI f => bodyImulhI f
  | .imad f => bodyImad f
  | .idiv f => bodyIdiv f
  | .idivI f => bodyIdivI f
  | .irem f => bodyIrem f
  | .iremI f => bodyIremI f
  | .imin f => bodyImin f
  | .iminI f => bodyIminI f
  | .imax f => bodyImax f
  | .imaxI f => bodyImaxI f
  | .iabs f => bodyIabs f
  | .ineg f => bodyIneg f
  | .iadds f => bodyIadds f
  | .iaddsI f => bodyIaddsI f
  | .isad f => bodyIsad f
  | .idot4 f => bodyIdot4 f
  | .and f => bodyAnd f
  | .andI f => bodyAndI f
  | .or f => bodyOr f
  | .orI f => bodyOrI f
  | .xor f => bodyXor f
  | .xorI f => bodyXorI f
  | .andn f => bodyAndn f
  | .andnI f => bodyAndnI f
  | .not f => bodyNot f
  | .shl f => bodyShl f
  | .shlI f => bodyShlI f
  | .shr f => bodyShr f
  | .shrI f => bodyShrI f
  | .sar f => bodySar f
  | .sarI f => bodySarI f
  | .rotl f => bodyRotl f
  | .rotlI f => bodyRotlI f
  | .funnel f => bodyFunnel f
  | .bfx f => bodyBfx f
  | .bfi f => bodyBfi f
  | .popc f => bodyPopc f
  | .clz f => bodyClz f
  | .ctz f => bodyCtz f
  | .brev f => bodyBrev f
  | .bshuf f => bodyBshuf f
  | .lea f => bodyLea f
  | .leaI f => bodyLeaI f
  | .icmp f => bodyIcmp f
  | .icmpI f => bodyIcmpI f
  | .isel f => bodyIsel f
  | .plop f => bodyPlop f
  | .movh f => bodyMovh f
  | .movhI f => bodyMovhI f
  | .movi f => bodyMovi f
  | .vote f => bodyVote f
  | .rdlane f => bodyRdlane f
  | .rdlaneI f => bodyRdlaneI f
  | .find1 f => bodyFind1 f
  | .cvti f => bodyCvti f
  | .iredw f => bodyIredw f
  | .clamp f => bodyClamp f
  | .fadd f => bodyFadd f
  | .faddI f => bodyFaddI f
  | .fsub f => bodyFsub f
  | .fsubI f => bodyFsubI f
  | .fmul f => bodyFmul f
  | .fmulI f => bodyFmulI f
  | .ffma f => bodyFfma f
  | .fnma f => bodyFnma f
  | .fmin f => bodyFmin f
  | .fminI f => bodyFminI f
  | .fmax f => bodyFmax f
  | .fmaxI f => bodyFmaxI f
  | .fabs f => bodyFabs f
  | .fneg f => bodyFneg f
  | .fcmp f => bodyFcmp f
  | .fcmpI f => bodyFcmpI f
  | .fclass f => bodyFclass f
  | .frint f => bodyFrint f
  | .fcvt f => bodyFcvt f
  | .f2i f => bodyF2i f
  | .i2f f => bodyI2f f
  | .fdot2 f => bodyFdot2 f
  | .fredw f => bodyFredw f
  | .fsetmode f => bodyFsetmode f
  | .fgetmode f => bodyFgetmode f
  | .fflags f => bodyFflags f
  | .fflagsClr f => bodyFflagsClr f
  | .fscale f => bodyFscale f
  | .fscaleI f => bodyFscaleI f
  | .rcp f => bodyRcp f
  | .rsq f => bodyRsq f
  | .sqrt f => bodySqrt f
  | .ex2 f => bodyEx2 f
  | .lg2 f => bodyLg2 f
  | .sinpi f => bodySinpi f
  | .cospi f => bodyCospi f
  | .tanh f => bodyTanh f
  | .sigm f => bodySigm f
  | .fdiv f => bodyFdiv f
  | .ld f => bodyLd f
  | .ldI f => bodyLdI f
  | .st f => bodySt f
  | .stI f => bodyStI f
  | .ldw f => bodyLdw f
  | .ldwI f => bodyLdwI f
  | .ldAcq f => bodyLdAcq f
  | .ldAcqI f => bodyLdAcqI f
  | .stRel f => bodyStRel f
  | .stRelI f => bodyStRelI f
  | .atom f => bodyAtom f
  | .cas f => bodyCas f
  | .red f => bodyRed f
  | .atomX f => bodyAtomX f
  | .casX f => bodyCasX f
  | .fenceFull f => bodyFenceFull f
  | .fenceAcq f => bodyFenceAcq f
  | .fenceRel f => bodyFenceRel f
  | .fenceEng f => bodyFenceEng f
  | .ldRacq f => bodyLdRacq f
  | .arrive f => bodyArrive f
  | .waitph f => bodyWaitph f
  | .tryph f => bodyTryph f
  | .barinit f => bodyBarinit f
  | .pres f => bodyPres f
  | .cctlInvl f => bodyCctlInvl f
  | .cctlInvall f => bodyCctlInvall f
  | .cctlPref f => bodyCctlPref f
  | .cctlEvf f => bodyCctlEvf f
  | .bra f => bodyBra f
  | .braU f => bodyBraU f
  | .brx f => bodyBrx f
  | .call f => bodyCall f
  | .callx f => bodyCallx f
  | .ret f => bodyRet f
  | .brk f => bodyBrk f
  | .loop f => bodyLoop f
  | .loopPipe f => bodyLoopPipe f
  | .rotset f => bodyRotset f
  | .modeCollapse f => bodyModeCollapse f
  | .modeExpand f => bodyModeExpand f
  | .sync f => bodySync f
  | .exit f => bodyExit f
  | .trap f => bodyTrap f
  | .eret f => bodyEret f
  | .nop f => bodyNop f
  | .yield f => bodyYield f
  | .elect f => bodyElect f
  | .folld f => bodyFolld f
  | .folfree f => bodyFolfree f
  | .domset f => bodyDomset f
  | .mms f => bodyMms f
  | .mmsz f => bodyMmsz f
  | .mmsg f => bodyMmsg f
  | .accalloc f => bodyAccalloc f
  | .accallocI f => bodyAccallocI f
  | .accfree f => bodyAccfree f
  | .accfreeI f => bodyAccfreeI f
  | .accrd f => bodyAccrd f
  | .accwr f => bodyAccwr f
  | .accclr f => bodyAccclr f
  | .fmtset f => bodyFmtset f
  | .fmtsetI f => bodyFmtsetI f
  | .accadd f => bodyAccadd f
  | .copy f => bodyCopy f
  | .kick f => bodyKick f
  | .gather f => bodyGather f
  | .scatter f => bodyScatter f
  | .scatterAdd f => bodyScatterAdd f
  | .pfl2 f => bodyPfl2 f
  | .pfl2Tok f => bodyPfl2Tok f
  | .cstat f => bodyCstat f
  | .seedtry f => bodySeedtry f
  | .seedscan f => bodySeedscan f
  | .fit f => bodyFit f
  | .proj f => bodyProj f
  | .mgen f => bodyMgen f
  | .mstat f => bodyMstat f
  | .xlate f => bodyXlate f
  | .xprobe f => bodyXprobe f
  | .xinvPage f => bodyXinvPage f
  | .xinvRange f => bodyXinvRange f
  | .xinvPasid f => bodyXinvPasid f
  | .xinvAll f => bodyXinvAll f
  | .xflush f => bodyXflush f
  | .pclass f => bodyPclass f
  | .pclassI f => bodyPclassI f
  | .opsel f => bodyOpsel f
  | .opselI f => bodyOpselI f
  | .grant f => bodyGrant f
  | .tmark f => bodyTmark f
  | .tmarkI f => bodyTmarkI f
  | .bkpt f => bodyBkpt f
  | .bkptI f => bodyBkptI f
  | .shash f => bodyShash f
  | .confrd f => bodyConfrd f
  | .rpctlOff f => bodyRpctlOff f
  | .rpctlRec f => bodyRpctlRec f
  | .rpctlReplay f => bodyRpctlReplay f
  | .rpctlQuery f => bodyRpctlQuery f
  | .qsub f => bodyQsub f
  | .getsp f => bodyGetsp f
  | .setsp f => bodySetsp f
  | _ => fun e _ => .error (.trap cIllegalEncoding e.dec)

/-! ## The header (R46) -/

/-- Number of slot words that a header announces. -/
def hdrSlots (h : W64) : Nat := (h.extractLsb' 58 6).toNat

/-- The header's fields are legal, and count the slots. -/
def hdrOk (h : W64) (n : Nat) : Bool :=
  decide (1 ≤ hdrSlots h ∧ hdrSlots h ≤ 34) && hdrSlots h == n
    && (h.getLsbD 44 || h.extractLsb' 45 3 == 0)
    && (if h.getLsbD 43 then decide (1 ≤ (h.extractLsb' 40 3).toNat ∧ (h.extractLsb' 40 3).toNat ≤ 3)
        else h.extractLsb' 40 3 == 0)
    && h.extractLsb' 32 5 == 0

/-! ## Slots (R45, R47) -/

/-- A slot word with the instruction it holds. -/
structure Slot where
  word : W64
  instr : Instr

/-- A move is recognised by its KIND before any UNIT. -/
def Slot.move (x : Slot) : Bool := x.word.extractLsb' 62 2 == 0

/-- UNIT of a slot that is not a move. -/
def Slot.unit (x : Slot) : Nat := (x.word.extractLsb' 59 3).toNat

/-- WIDTH: 0 a lane, core or control slot, 1 to 3 a vector slot. -/
def Slot.width (x : Slot) : Nat := (x.word.extractLsb' 0 2).toNat

/-- A lane or vector slot holds a move or UNIT 0 to 3. -/
def Slot.lanes (x : Slot) : Bool := x.move || decide (x.unit < 4)

/-- Decode the slot words; none when one of them is illegal. -/
def decodeSlots : List W64 → Option (List Slot)
  | [] => some []
  | w :: l =>
    match decode w, decodeSlots l with
    | .ok i, some r => some (⟨w, i⟩ :: r)
    | _, _ => none

/-- The lanes of cluster k that LMAP names. -/
def lmapLanes (h : W64) (k : Nat) : List Nat := (List.range 8).filterMap (fun j => if h.getLsbD (8 * k + j) then some (8 * k + j) else none)

/-- Give lane slots to lanes, in order. -/
def giveLanes : List Nat → List Slot → Option (List (Who × Slot) × List Slot)
  | [], r => some ([], r)
  | _ :: _, [] => none
  | l :: ls, x :: r =>
    if x.width = 0 ∧ x.lanes then
      match giveLanes ls r with
      | some (a, r) => some ((.lane l, x) :: a, r)
      | none => none
    else none

/-- Walk the clusters: what each takes, and the slots that remain. skip counts the clusters that the last vector
slot still covers. -/
def walkClusters (h : W64) : List Nat → Nat → List Slot → Option (List (Who × Slot) × List Slot)
  | [], skip, r => if skip = 0 then some ([], r) else none
  | k :: ks, skip + 1, r => if lmapLanes h k = [] then walkClusters h ks skip r else none
  | k :: ks, 0, [] => if lmapLanes h k = [] then walkClusters h ks 0 [] else none
  | k :: ks, 0, x :: r =>
    if x.width ≠ 0 then
      let m := 2 ^ (x.width - 1)
      if x.lanes ∧ k % m = 0 ∧ lmapLanes h k = [] then
        match walkClusters h ks (m - 1) r with
        | some (a, r) => some ((.vector k m, x) :: a, r)
        | none => none
      else none
    else
      match giveLanes (lmapLanes h k) (x :: r) with
      | none => none
      | some (a, r) =>
        match walkClusters h ks 0 r with
        | some (b, r) => some (a ++ b, r)
        | none => none

/-- The slots that remain: core slots, then at most one control slot. -/
def giveRest : List Slot → Option (List (Who × Slot))
  | [] => some []
  | [x] =>
    if x.move || x.width ≠ 0 then none
    else if x.unit = 4 then some [(.control, x)] else if 5 ≤ x.unit then some [(.core, x)] else none
  | x :: r =>
    if x.move || x.width ≠ 0 || x.unit < 5 then none
    else
      match giveRest r with
      | some a => some ((.core, x) :: a)
      | none => none

/-- The assignment of a bundle for a strand of n clusters (R47). -/
def assign (h : W64) (n : Nat) (slots : List Slot) : Option (List (Who × Slot)) :=
  if (List.range (lowCluster n)).all (fun k => lmapLanes h k = []) then
    match walkClusters h ((List.range n).map (lowCluster n + ·)) 0 slots with
    | none => none
    | some (a, r) =>
      match giveRest r with
      | some b => some (a ++ b)
      | none => none
  else none

/-! ## Resources and classes (R48) -/

/-- The unit whose issue port a slot uses: 2 SF, 3 LS, by itself or by a move to a port of it. -/
def Slot.port (x : Slot) : Nat :=
  if x.move then
    match x.instr with
    | .mov f => if f.dport.toNat = 7 ∨ f.dport.toNat = 8 then 2 else if 9 ≤ f.dport.toNat ∧ f.dport.toNat ≤ 11 then 3 else 0
    | _ => 0
  else x.unit

/-- Does a place cover cluster k? -/
def Who.covers (w : Who) (k : Nat) : Bool :=
  match w with
  | .lane l => l / 8 == k
  | .vector j m => decide (j ≤ k ∧ k < j + m)
  | _ => false

/-- No cluster has two SF or two LS slots, and there is at most one core slot. -/
def resourcesOk (l : List (Who × Slot)) : Bool :=
  (List.range 4).all (fun k => [2, 3].all (fun u =>
    decide ((l.filter (fun p => p.1.covers k && p.2.port == u)).length ≤ 1)))
  && decide ((l.filter (fun p => p.1 == .core)).length ≤ 1)

/-- The highest class of the slots. -/
def slotsClass (l : List (Who × Slot)) : Nat := (l.map (fun p => (costOf p.2.instr).cls)).foldl max 0

/-- The weight of a slot at issue (R392). -/
def slotWeight (p : Who × Slot) : Nat :=
  let x := costOf p.2.instr
  match p.1 with
  | .lane _ => x.lane
  | .vector _ m => m * x.weight
  | _ => x.weight

/-- Cycles that a bundle is in execute: the longest of its slots; the matrix engine counts the occupancy of its own (R378). -/
def slotsLat (l : List (Who × Slot)) : Nat := (l.map (fun p => (costOf p.2.instr).lat)).foldl max 1

/-- The w registers that a destination code names. -/
def wCodes (d : Code) (wide : Bool) : List Nat :=
  if isW d then (d.toNat - 384) :: (if wide then [d.toNat - 383] else []) else []

/-- The w registers that a slot's instruction writes (R33, R52, R82). -/
def wWrites (i : Instr) : List Nat :=
  match i with
  | .vote f => wCodes f.d false
  | .rdlane f => wCodes f.d (tyWide f.mod)
  | .rdlaneI f => wCodes f.d (tyWide f.mod)
  | .iredw f => wCodes f.d (tyWide f.mod)
  | .fredw f => wCodes f.d ((fmtOf f.mod.toNat).width == 64)
  | .fgetmode f => wCodes f.d false
  | .ldw f => wCodes f.d (f.mod == 3)
  | .ldwI f => wCodes f.d (f.mod == 3)
  | .arrive f => wCodes f.d false
  | .call f => wCodes f.a false
  | .callx f => (wCodes f.a false).map (· + 1)
  | .accalloc f => wCodes f.d false
  | .accallocI f => wCodes f.d false
  | .pfl2Tok f => wCodes f.d false
  | .cstat f => wCodes f.d false
  | .mgen f => wCodes f.d false
  | .mstat f => wCodes f.d false
  | .grant f => wCodes f.d false
  | .shash f => wCodes f.d true
  | .confrd f => wCodes f.d false
  | .rpctlOff f => wCodes f.d false
  | .rpctlRec f => wCodes f.d false
  | .rpctlReplay f => wCodes f.d false
  | .rpctlQuery f => wCodes f.d false
  | .qsub f => wCodes f.d false
  | .getsp f => wCodes f.d (spWide f.b.toNat)
  | _ => []

/-- Do two slots of a bundle write one w register (R82)? -/
def wClash : List (Who × Slot) → Bool
  | [] => false
  | p :: l => (wWrites p.2.instr).any (fun r => l.any (fun q => (wWrites q.2.instr).contains r)) || wClash l

/-! ## The order of causes (R56) -/

/-- The place of a cause in the order of R56; decode says that it carries the mask of every lane. -/
def causeRank (c : BitVec 8) (decode : Bool) : Nat :=
  if c = cFolioMiss then 0 else if c = cFolioEnd then 1
  else if decode ∧ c = cIllegalEncoding then 2
  else if decode ∧ c = cBundleResource then 3
  else if decode ∧ c = cBundleClass then 4
  else if decode ∧ c = cPrivilege then 5
  else if decode ∧ c = cIllegalOperand then 6
  else if c = cIllegalOperand ∨ c = cPrivilege ∨ c = cIllegalEncoding then 7
  else if c = cTargetAlign then 8 else if c = cLanding then 9 else if c = cDataAlign then 10
  else if c = cPageFault then 11 else if c = cAccess then 12 else if c = cClasp then 13
  else if c = cFormat then 14 else if c = cAccFreeUnowned then 15 else if c = cDivergeOverflow then 16
  else if c = cLoopStack then 17 else if c = cBkpt then 19 else 18

/-- A slot's trap: its rank, cause, lanes, and what the machine notes of it. -/
structure SlotTrap where
  rank : Nat
  cause : BitVec 8
  lanes : W32
  note : State → State

/-- The first of the traps, with the lanes of every trap of its cause and rank. -/
def firstTrap : List SlotTrap → Option SlotTrap
  | [] => none
  | x :: l =>
    match firstTrap l with
    | none => some x
    | some y =>
      if x.rank < y.rank then some x
      else if y.rank < x.rank then some y
      else if x.cause = y.cause then some { x with lanes := x.lanes ||| y.lanes }
      else some x

/-! ## Issue -/

/-- The issuer of a slot. -/
def State.slotEnv (s : State) (p : Who × Slot) (next : W32) : Option Env :=
  let g := guardOf p.2.word
  let s' : State := { s with sel := { s.sel with who := p.1 } }
  (s'.env g).map (fun e => { e with next := next })

/-- What each slot meets by itself: its trap or its wait. -/
def State.slotStops (s : State) (next : W32) (l : List (Who × Slot)) : List SlotTrap × List (Park × (State → State)) :=
  l.foldr (fun p acc =>
    match s.slotEnv p next with
    | none => acc
    | some e =>
      match slotBody p.2.instr e s with
      | .ok _ => acc
      | .error (.trap c m) => (⟨causeRank c (m == e.dec), c, m, id⟩ :: acc.1, acc.2)
      | .error (.trapWith c m f) => (⟨causeRank c (m == e.dec), c, m, f⟩ :: acc.1, acc.2)
      | .error (.wait w f) => (acc.1, (w, f) :: acc.2)) ([], [])

/-- A slot as it is run: it waits for the accesses of the bundle's earlier slots too, which no wait before the bundle has
granted (R129, R195; assumption 124). -/
def Env.after (e : Env) (ls : Bool) (s : State) : Env :=
  { e with
    nonce := s.nonce
    path := if ls then { e.path with granted := e.path.granted.filter (fun k => match k with | .fence .. => false | _ => true) }
      else e.path }

/-- A stop of TRAP or BKPT, which trap after the slots of their bundle (R153). -/
def Stop.late : Stop → Bool
  | .trap c _ => trapsAfter c
  | .trapWith c _ _ => trapsAfter c
  | .wait .. => false

/-- Run the slots in order, each reading what stood when the bundle issued, the rounding mode too (assumption 117): the state
after those that have had their effect, and, where one must wait for or traps on what an earlier slot did, how many are left
and why. ls says that an earlier slot was of the load/store unit. -/
def runSlots (s0 : State) (next : W32) : Bool → List (Who × Slot) → State → State × Option (Nat × Stop)
  | _, [], s => (s, none)
  | ls, p :: l, s =>
    match s0.slotEnv p next with
    | none => runSlots s0 next ls l s
    | some e =>
      match slotBody p.2.instr (e.after ls s) s with
      | .ok t => runSlots s0 next (ls || p.2.unit == 3) l t
      | .error x => if x.late then runSlots s0 next ls l s else (s, some (l.length + 1, x))

/-- The bundle at the strand's path is booked as issued: charge, class, name (R49, R378, R392). -/
def Core.bookBundle (k : Core) (w : Nat) (pc : W32) (h : W64) (l : List (Who × Slot)) : Core :=
  { k with ck := { k.ck with
      named := k.ck.named ++ [(true, w, false, pc)]
      exec := k.ck.exec ++ [(true, (h.extractLsb' 56 2).toNat, slotsLat l)]
      coreCharge := k.ck.coreCharge + max (h.extractLsb' 48 8).toNat ((l.map slotWeight).foldl (· + ·) 0)
      progress := true, stage := .simt } }

/-- The strand's path waits; the SIMT decoder is next. -/
def State.bundleWait (s : State) (c w : Nat) (why : Park) : State :=
  (s.modPath c w false (fun p => { p with park := some why })).modClock c (fun k => { k with stage := .simt })

/-- The loop checks of a bundle that ends at next (R122, R142). -/
def lendCheck (t : Strand) (b : Block) (h : W64) (next : W32) (l : List (Who × Slot)) : Option (BitVec 8) :=
  if h.getLsbD 39 then
    match t.loops with
    | [] => some cLoopStack
    | x :: _ =>
      if next ≠ x.stop || l.any (fun p => p.1 == .control && !(match p.2.instr with | .nop _ => true | _ => false)) then
        some cLoopStack
      else if 1 < x.e ∧ (b.slotOf x.q).isNone then some cFolioMiss else none
  else none

/-- What an issuing bundle does before its slots run: the pc moves on, and OPSEL and TMARK of its header act (R47, R48, R382,
R412). -/
def State.bundleHead (s : State) (c : Nat) (t : Strand) (x : Warp) (b : Block) (h : W64) (next : W32) : State :=
  let k := s.core c
  let s1 := (s.modPath c t.warp false (fun p => p.advance b next)).modStrand c
    (fun t => { t with synced := false })
  let s2 := if h.getLsbD 44 then
      let n := (h.extractLsb' 45 3).toNat
      s1.requestPoint c x.rix (if k.gov.opperm || x.priv then n else k.gov.pmap n)
    else s1
  if h.getLsbD 37 then s2.marker c t.warp 1 true (b.abs x.pri.pc) 0 else s2

/-- A bundle's slots run. -/
def State.bundleRun (s : State) (c : Nat) (t : Strand) (x : Warp) (b : Block) (h : W64) (next : W32)
    (l : List (Who × Slot)) : State × Option (Nat × Stop) :=
  runSlots s next false l (s.bundleHead c t x b h next)

/-- The slots of a bundle that have not yet issued run: the pc moves on (R57). -/
def State.bundleRest (s : State) (c : Nat) (t : Strand) (b : Block) (next : W32) (l : List (Who × Slot)) :
    State × Option (Nat × Stop) :=
  runSlots s next false l (s.modPath c t.warp false (fun p => p.advance b next))

/-- What the header's ROT and LEND bits do at the end of a bundle (R142, R143). -/
def State.bundleEnds (s : State) (c w : Nat) (all : W32) (h : W64) : State :=
  let s5 := if h.getLsbD 38 then
      match (s.core c).warps.find? w, (s.core c).strand with
      | some y, some u =>
        let r := y.rotateWith all u.loops
        (s.modWarp c w (fun _ => r.1)).modStrand c (fun u => { u with loops := r.2 })
      | _, _ => s
    else s
  if h.getLsbD 39 then s5.modWarp c w (fun w => { w with edge := some false }) else s5

/-- The traps and the waits that stand in the way of a bundle: those of its header's LEND bit first, then its slots'. -/
def State.bundleStops (s : State) (t : Strand) (b : Block) (h : W64) (next : W32) (l : List (Who × Slot)) :
    List SlotTrap × List (Park × (State → State)) :=
  match lendCheck t b h next l with
  | some cc => (⟨causeRank cc true, cc, ownedLanes t.clusters, id⟩ :: (s.slotStops next l).1, (s.slotStops next l).2)
  | none => s.slotStops next l

/-- What a bundle has started at the matrix engine is in execute with the bundle's class (R378). -/
def State.mxBundle (s : State) (before : Mx) (c tc : Nat) : State :=
  s.modMx c (fun m => { m with
    cur := if m.cur = before.cur then m.cur else m.cur.map (fun r => { r with cls := max r.cls tc })
    reading := if m.reading = before.reading then m.reading else m.reading.map (fun r => { r with cls := max r.cls tc }) })

/-- A bundle whose slot waits for what an earlier one did: the strand holds at it, with what its slots read and how many have
issued (R57, R151). -/
def State.bundleHold (before s : State) (c : Nat) (t : Strand) (x : Warp) (n : Nat) (more : Bool) (why : Park) : State :=
  (s.modPath c t.warp false (fun _ => { x.pri with
    park := some why
    granted := if more then x.pri.granted.filter (fun k => match k with | .fence .. => false | _ => true) else x.pri.granted
    held := some (match x.pri.held with
      | some h => { h with done := n }
      | none => ⟨x.v, x.w, x.q, x.rotbase, x.results, before.nonce, t.ports, t.bypass, (before.core c).xport, n⟩) })).setStage c .simt

/-- A strand whose block is being halted stops once the bundle that it had begun has issued (R156, R336). -/
def State.bundleHalts (s : State) (c w rix : Nat) : State :=
  match (s.core c).blocks.find? rix with
  | some b =>
    if b.halt = 0 then s
    else (s.modWarp c w (fun y => { y with results := countResults false y.results })).modStrand c
      (fun t => if t.st = .run then t.freeze ((s.core c).ck.cycle + 1, (s.core c).ck.edge) .resume else t)
  | none => s

/-- The end of an issue of a bundle of l slots, of which those from the first on have run now: it is booked, or waits within
itself, or traps (R48, R57, R142, R153, R156). -/
def State.bundleOver (s : State) (c : Nat) (t : Strand) (x : Warp) (h : W64) (next : W32) (l : List (Who × Slot)) (first : Nat)
    (late : Option SlotTrap) (r : State × Option (Nat × Stop)) : State :=
  let pc := x.pri.pc
  match r.2 with
  | some (n, .wait why ask) => s.bundleHold (ask r.1) c t x (l.length - n) (decide (first < l.length - n)) why
  | some (_, .trap cause lanes) => (s.takeTrap c t.warp false cause pc lanes).setStage c .simt
  | some (_, .trapWith cause lanes note) => ((note s).takeTrap c t.warp false cause pc lanes).setStage c .simt
  | none =>
    let room := match (r.1.core c).warps.find? t.warp with
      | some y => decide (y.strandGroups.length ≤ 6272) || decide (0 < first)
      | none => true
    if !room then s.bundleWait c t.warp .capacity
    else
      let s7 := ((r.1.mxBundle (s.core c).mx c (h.extractLsb' 56 2).toNat).bundleEnds c t.warp (ownedLanes t.clusters) h).modCore c
        (fun k => k.bookBundle t.warp pc h l)
      match late with
      | some x => s7.modPath c t.warp false (fun p => { p with park := some (.trap x.cause next x.lanes) })
      | none => if first = 0 then s7 else s7.bundleHalts c t.warp x.rix

/-- A bundle issues for the selected core's strand. -/
def issueBundle (h : W64) (words : List W64) (s : State) : Host.Outcome State Fault Refusal :=
  let c := s.sel.core
  let k := s.core c
  match k.strand with
  | none => .fault .noStrand
  | some t =>
    match k.warps.find? t.warp with
    | none => .fault .noStrand
    | some x =>
      match k.blocks.find? x.rix with
      | none => .fault .noStrand
      | some b =>
        let s := { s with sel := ⟨c, t.warp, .core⟩ }
        let pc := x.pri.pc
        let next := pc + BitVec.ofNat 32 (8 * (1 + words.length))
        let all := ownedLanes t.clusters
        let trap (cause : BitVec 8) (lanes : W32) (at_ : W32) (s : State) : Host.Outcome State Fault Refusal :=
          .next ((s.takeTrap c t.warp false cause at_ lanes).modClock c (fun k => { k with stage := .simt }))
        match (if hdrOk h words.length then (decodeSlots words).bind (assign h t.clusters) else none) with
        | none => trap cIllegalEncoding all pc s
        | some l =>
          let st := s.bundleStops t b h next l
          let late := (firstTrap st.1).bind (fun x => if 18 ≤ x.rank then some x else none)
          if x.pri.done ≠ 0 then
            .next (s.bundleOver c t x h next l x.pri.done late (s.bundleRest c t b next (l.drop x.pri.done)))
          else match firstTrap (st.1.filter (fun x => decide (x.rank < 2))) with
          | some x => trap x.cause x.lanes pc (x.note s)
          | none =>
          if wClash l || st.1.any (fun x => x.rank == 2) then trap cIllegalEncoding all pc s
          else if !resourcesOk l then trap cBundleResource all pc s
          else if (h.extractLsb' 56 2).toNat < slotsClass l then trap cBundleClass all pc s
          else
            let lvl := (h.extractLsb' 40 3).toNat
            let first := firstTrap st.1
            match first.bind (fun x => if x.rank < 7 then some x else none) with
            | some x => trap x.cause x.lanes pc (x.note s)
            | none =>
              if h.getLsbD 43 && !k.domain.getLsbD (lvl - 1) then trap cIllegalOperand all pc s
              else
                match st.2 with
                | (why, ask) :: _ => .next ((ask s).bundleWait c t.warp why)
                | [] =>
                  match first.bind (fun x => if 18 ≤ x.rank then none else some x) with
                  | some x => trap x.cause x.lanes pc (x.note s)
                  | none =>
                    if h.getLsbD 43 && !t.synced then
                      let drain := s.drains c (syncScope lvl)
                      if s.performed c t.warp s.nonce drain || x.pri.fenced drain then .next (s.bundleWait c t.warp (.sync lvl))
                      else .next (s.bundleWait c t.warp (.fence s.nonce drain))
                    else .next (s.bundleOver c t x h next l 0 late (s.bundleRun c t x b h next l))

/-- BUNDLE (R47). -/
def execBundle (hdr : W64) (slots : List W64) (s : State) : Host.Outcome State Fault Refusal := issueBundle hdr slots s

end Sys2Proof.Machine
end

