-- ==== Sys2Proof/Machine/Folio.lean ====
section
/-! DEFINITION. Folio images: reading an image through translation, the checks of R119, and FOLLD's completion (R117 to
R120). -/

namespace Sys2Proof.Machine

/-! ## The image (R118, R119) -/

/-- The number at a byte offset of a list. -/
def numAt (b : List Byte) (o n : Nat) : Nat := bytesNat ((b.drop o).take n)

/-- Bytes of the image that a header announces. -/
def imageSize (h : List Byte) : Nat := 64 + numAt h 4 4 + 8 * numAt h 8 2 + 4 * numAt h 10 2

/-- Are the fields of the header legal? -/
def headerOk (h : List Byte) : Bool :=
  let len := numAt h 4 4
  numAt h 0 4 % 8 == 0 && len % 8 == 0 && decide (8 ≤ len ∧ len ≤ 12288)
    && decide (numAt h 8 2 ≤ 256 ∧ numAt h 10 2 ≤ 256) && numAt h 12 52 == 0

/-- The folio of an image of a legal header. -/
def Folio.ofImage (b : List Byte) (image : W64) : Folio :=
  let len := numAt b 4 4
  let nrec := numAt b 8 2
  let word (o : Nat) : W32 := BitVec.ofNat 32 (numAt b o 4)
  { start := numAt b 0 4, len, image
    words := (List.range (len / 8)).map (fun i => BitVec.ofNat 64 (numAt b (64 + 8 * i) 8))
    recs := (List.range nrec).map (fun i => (word (64 + len + 8 * i), word (64 + len + 8 * i + 4)))
    lands := (List.range (numAt b 10 2)).map (fun i => word (64 + len + 8 * nrec + 4 * i)) }

/-- Is an offset a place of code in the folio? -/
def Folio.inside (f : Folio) (x : W32) : Bool :=
  decide (f.start ≤ x.toNat ∧ x.toNat < f.start + f.len) && x.toNat % 8 == 0

/-- The remaining checks of R119, against the block's other resident folios. -/
def Folio.ok (f : Folio) (others : List Folio) : Bool :=
  f.recs.all (fun r => f.inside r.1 && r.2.toNat % 8 == 0 && r.2 != 0xFFFFFFFF)
    && decide ((f.recs.map (·.1)).Nodup) && f.lands.all f.inside
    && others.all (fun o => decide (o.start + o.len ≤ f.start ∨ f.start + f.len ≤ o.start))

/-- What a load of an image gives. -/
inductive Image where
  | ok (f : Folio)
  | fault (cause : BitVec 8) (reason va : Nat)
  | miss (pages : List Nat)

/-- Is the read of a byte of an image, at offset o and tagged address a, lost (R371, R374)? -/
def lostByte (lost : Option (Bool × Nat)) (o a : Nat) : Bool :=
  match lost with | some x => o / 128 == x.2 && isOuter x.1 a | none => false

/-- Read an image for core c; its bytes as read seen through the core's own buffered stores when own is set, those of a lost line
all ones. -/
def State.loadImage (s : State) (c pasid va : Nat) (faults : List (Nat × Nat)) (own : Bool) (lost : Option (Bool × Nat))
    (others : List Folio) : Image :=
  let bytes (l : List (Nat × Nat × Tlb)) : List Byte :=
    l.flatMap (fun p => ((s.overlay (if own then s.l1Wb c else []) (p.2.2.phys p.1) p.2.1).zipIdx).map (fun x =>
      if lostByte lost ((p.1 + 2 ^ 64 - va) % 2 ^ 64 + x.2) (p.2.2.phys p.1 + x.2) then 0xFF else x.1))
  if va % 64 ≠ 0 then .fault cDataAlign 0 va
  else
    match s.plan c pasid va 64 false faults with
    | .fault x r a => .fault x r a
    | .miss p => .miss p
    | .ok l =>
      let h := bytes l
      if !headerOk h then .fault cFormat 0 va
      else
        match s.plan c pasid va (imageSize h) false faults with
        | .fault x r a => .fault x r a
        | .miss p => .miss p
        | .ok l =>
          let f := Folio.ofImage (bytes l) (BitVec.ofNat 64 va)
          if f.ok others then .ok f else .fault cFormat 0 va

/-! ## The end of a FOLLD (R120) -/

/-- A load of a core can go on: its time has come and no page of it is being walked. -/
def Core.folldReady (k : Core) (time : Nat) : Option FLoad :=
  k.floads.find? (fun f => decide (f.due ≤ time) && !k.walks.any (fun w => w.who.contains (.folio f.warp f.alt)))

/-- The load of a path's FOLLD is over: the slot is loaded, or stays empty and the FOLLD traps. -/
def State.folldEnd (s : State) (c : Nat) (f : FLoad) (rix : Nat) (x : Option Folio) (cause : BitVec 8) : State :=
  let s := s.modCore c (fun k => { k with floads := k.floads.filter (· != f) })
  let s := s.modBlock c rix (fun b =>
    { b with
      loading := b.loading.erase f.slot
      folios := match x with | some y => KMap.put b.folios f.slot y | none => KMap.del b.folios f.slot })
  match x with
  | some _ =>
    ((s.finish c f.warp f.alt).modPath c f.warp f.alt (fun p => { p with home := p.home <|> some f.slot })).acquire c 5
  | none =>
    match (s.core c).warps.find? f.warp with
    | none => s
    | some w =>
      let p := w.path f.alt
      let mask := if w.strand && w.hand.isNone then
          (match (s.core c).strand with | some t => ownedLanes t.clusters | none => p.mask) else p.mask
      (s.modPath c f.warp f.alt (fun p => { p with park := none, ptail := 0 })).takeTrap c f.warp f.alt cause f.pc mask

/-- FOLLD of a path of core c: the image is read, or its missing pages are asked for. -/
def State.folldStep (s : State) (c : Nat) (f : FLoad) : State :=
  match (s.core c).warps.find? f.warp with
  | none => s.modCore c (fun k => { k with floads := k.floads.filter (· != f) })
  | some w =>
    match (s.core c).blocks.find? w.rix with
    | none => s.modCore c (fun k => { k with floads := k.floads.filter (· != f) })
    | some b =>
      let faults := match f.fault with | some r => (pieces 8 f.addr 65536).map (fun p => (page4K p.1, r)) | none => []
      let others := (KMap.del b.folios f.slot).map (·.2)
      match s.loadImage c b.pasid f.addr faults true f.lost others with
      | .ok y => s.folldEnd c f w.rix (some y) 0
      | .miss p => s.startWalks c b.pasid false false (.folio f.warp f.alt) p
      | .fault cause r a =>
        let s := if (cause == cPageFault ∨ cause == cAccess) ∧ canonical a then
            s.noteFault c b.pasid cause.toNat r a else s
        s.folldEnd c f w.rix none cause

end Sys2Proof.Machine
end

