-- ==== Sys2Proof/Machine/Launch.lean ====
section
/-! DEFINITION. The launch scheduler: queue registers, launch records and their checks, admission and assignment,
placement, the end of blocks and grids (R316 to R334). -/

namespace Sys2Proof.Machine

/-! ## Queue registers (R316 to R319) -/

/-- QSTAT of a queue. -/
def State.qstat (s : State) (q : Nat) : W32 := s.ctlAt (offQueue q + 0x18)

/-- QBASE of a queue. -/
def State.qbase (s : State) (q : Nat) : Nat := (s.ctl64 (offQueue q)).toNat

/-- QWP covers more records than the queue holds (R318). -/
def State.overfull (s : State) (q : Nat) : Bool := decide (s.qsize q < (s.qwp q + 2 ^ 32 - s.qrp q) % 2 ^ 32)

/-- QSTAT.OVER is set (R318). -/
def State.setOver (s : State) (q : Nat) : State := s.setCtl (offQueue q + 0x18) (s.qstat q ||| 1)

/-- Make the records below a write pointer visible, or stop the queue when there are more than it holds (R318, R319). -/
def State.visible (s : State) (q : Nat) : State :=
  if !(s.qctl q).getLsbD 0 || s.stuck.contains q then s
  else
    let rp := s.qrp q
    let n := (s.qwp q + 2 ^ 32 - rp) % 2 ^ 32
    if s.overfull q then
      { (s.setOver q) with
        stuck := s.stuck ++ [q], admits := s.admits.filter (fun a => a.1 ≠ q) }
    else
      let want := (List.range n).map (fun i => (q, (rp + i) % 2 ^ 32))
      { s with admits := s.admits.filter (fun a => a.1 ≠ q || want.contains a)
          ++ want.filter (fun a => !s.admits.contains a) }

/-- A host write of QWP; ignored when the queue is fed by QSUB (R316, R317). One that covers too many records sets OVER,
whether or not the queue is enabled (R318). -/
def State.writeQwp (s : State) (q : Nat) (v : W32) : State :=
  if (s.qctl q).getLsbD 4 then s
  else
    let s := s.setCtl (offQueue q + 0x10) v
    (if s.overfull q then s.setOver q else s).visible q

/-- A host write of QCTL: with EN = 1 it changes EN only (R317). Disabling a queue takes back what has not been
admitted, enabling it anew makes its records visible (R318, R323). -/
def State.writeQctl (s : State) (q : Nat) (v : W32) : State :=
  let old := s.qctl q
  let new := if old.getLsbD 0 then (old &&& ~~~1) ||| (v &&& 1) else v &&& 0x1FFFFF
  let s := s.setCtl (offQueue q + 8) new
  if !new.getLsbD 0 then
    { s with admits := s.admits.filter (fun a => a.1 ≠ q), stuck := s.stuck.filter (· ≠ q) }
  else if old.getLsbD 0 then s else s.visible q

/-- A host write of QSTAT clears the bits [1:0] that are written 1 (R316). -/
def State.clearQstat (s : State) (q : Nat) (v : W32) : State :=
  s.setCtl (offQueue q + 0x18) (s.qstat q &&& ~~~(v &&& 3))

/-- A record of a queue has been rejected: BADREC and its index (R318). -/
def State.badRecord (s : State) (q r : Nat) : State :=
  s.setCtl (offQueue q + 0x18) (((s.qstat q ||| 2) &&& 0xFFFF) ||| BitVec.ofNat 32 (r % 2 ^ 16 * 2 ^ 16))

/-! ## The launch record (R320 to R322) -/

/-- A role descriptor. -/
def Role.read (b : List Byte) (i : Nat) : Role :=
  let o := 64 + 16 * i
  ⟨BitVec.ofNat 32 (numAt b o 4), BitVec.ofNat 32 (numAt b (o + 4) 4), numAt b (o + 8) 1, numAt b (o + 9) 1⟩

/-- The fields of a record. -/
def LRec.read (b : List Byte) : LRec :=
  let n (o k : Nat) : Nat := numAt b o k
  let fl (i : Nat) : Bool := n 36 1 / 2 ^ i % 2 == 1
  { code := BitVec.ofNat 64 (n 0 8), folio := n 8 8, compl := n 16 8, ctx := n 24 8, nblk := n 32 3
    bstat := fl 4, seq := fl 3, preempt := fl 2, fuse := fl 1, priv := fl 0
    domain := n 37 1 % 8, qmask := n 38 1 % 16, scratch := n 40 2, accb := n 42 1, nfol := n 43 1 % 32
    novl := n 44 1 % 16, ctxstr := n 48 4, arg := BitVec.ofNat 64 (n 56 8)
    roles := (List.range (min 4 (n 39 1 % 8))).map (Role.read b) }

/-- Scratchpad claim of a block in bytes (R18). -/
def LRec.claim (l : LRec) : Nat := 128 * l.scratch + 256 * l.warps

/-- A role descriptor that R321 allows. -/
def Role.ok (r : Role) : Bool :=
  r.entry.toNat % 8 == 0 && (r.handler == 0xFFFFFFFF || r.handler.toNat % 8 == 0)
    && decide (1 ≤ r.warps ∧ r.warps ≤ 8 ∧ 1 ≤ r.regs ∧ r.regs ≤ 48)

/-- The checks of R322 on the bytes of a record. -/
def recordOk (b : List Byte) (privOk : Bool) : Bool :=
  let n (o k : Nat) : Nat := numAt b o k
  let l := LRec.read b
  let nrole := n 39 1
  n 35 1 == 0 && n 36 1 / 32 == 0 && n 37 1 / 8 == 0 && n 38 1 / 16 == 0 && n 43 1 / 32 == 0 && n 44 1 / 16 == 0
    && n 45 3 == 0 && n 52 4 == 0
    && l.nblk != 0 && l.qmask != 0 && decide (1 ≤ nrole ∧ nrole ≤ 4) && decide (l.scratch ≤ 3072)
    && decide (l.accb ≤ 16) && l.nfol != 0 && decide (l.nfol + l.novl ≤ 16)
    && l.roles.all Role.ok && (List.range nrole).all (fun i => n (64 + 16 * i + 10) 6 == 0)
    && (List.range (4 - nrole)).all (fun i => n (64 + 16 * (nrole + i)) 16 == 0)
    && decide (l.warps ≤ 32) && decide (l.demand ≤ 3072) && decide (l.claim ≤ 384 * 1024)
    && l.folio % 64 == 0 && l.compl % 64 == 0 && l.ctx % 4096 == 0 && decide (l.ctxSize ≤ 4096 * l.ctxstr)
    && !(l.bstat && l.compl == 0) && !(l.fuse && l.nblk % 8 != 0) && (!l.priv || privOk)

/-! ## Assignment (R324) -/

/-- The quires in QMASK. -/
def LRec.quires (l : LRec) : List Nat := (List.range 4).filter (fun q => l.qmask / 2 ^ q % 2 == 1)

/-- The core at a place of the allowed list. -/
def LRec.allowed (l : LRec) (i : Nat) : Nat := 144 * l.quires.getD (i / 144) 0 + i % 144

/-- Cores of the allowed list. -/
def LRec.span (l : LRec) : Nat := 144 * l.quires.length

/-- The core of block b of a grid. -/
def Grid.core (g : Grid) (b : Nat) : Nat := g.lr.allowed ((g.start + b) % max 1 g.lr.span)

/-- The placement cursor. -/
def State.cursor (s : State) : Nat := (s.ctlAt 0xF000).toNat

/-- The place of block 0 and the cursor after a grid's assignment. -/
def LRec.assign (l : LRec) (c : Nat) : Nat × Nat :=
  let n := max 1 l.span
  let adj := if l.fuse then (8 - c % n % 8) % 8 else 0
  ((c % n + adj) % n, (c + adj + l.nblk) % 2 ^ 32)

/-! ## Waiting lists (R325) -/

/-- Does x stand before y in a waiting list: by priority, returning blocks first, then admission and %block? -/
def Waiting.before (x y : Waiting) : Bool :=
  decide (y.prio < x.prio) || (x.prio == y.prio &&
    (y.saved.isNone && (x.saved.isSome || decide (x.grid < y.grid ∨ (x.grid = y.grid ∧ x.bno < y.bno)))))

/-- Enter a block; a returning one goes ahead of every block of its priority. -/
def waitInsert (x : Waiting) : List Waiting → List Waiting
  | [] => [x]
  | y :: l =>
    if decide (y.prio < x.prio) || (x.prio == y.prio && x.saved.isSome) || x.before y then x :: y :: l
    else y :: waitInsert x l

/-- The waiting list of a core. -/
def State.waitList (s : State) (c : Nat) : List Waiting := (s.waiting.find? c).getD []

/-- Enter a block in the list of its core. -/
def State.enterWait (s : State) (c : Nat) (x : Waiting) : State :=
  { s with waiting := s.waiting.put c (waitInsert x (s.waitList c)) }

/-- All blocks of a grid enter the waiting lists. -/
def State.enterGrid (s : State) (i : Nat) (g : Grid) : State :=
  (List.range g.lr.nblk).foldl (fun s b => s.enterWait (g.core b) ⟨i, b, g.prio, none⟩) s

/-! ## Admission (R319, R322, R323) -/

/-- The scheduler's translation unit is core 0's (assumption 30). -/
def schedCore : Nat := 0

/-- A walk for the scheduler is under way. -/
def State.schedBusy (s : State) : Bool := (s.core schedCore).walks.any (fun w => w.who.contains .sched)

/-- Faults that walks for the scheduler have found under a PASID. -/
def State.schedFaults (s : State) (pasid : Nat) : List (Nat × Nat) :=
  ((s.core schedCore).faults.filter (fun f => f.1 == pasid)).map (·.2)

/-- The faults found have been taken note of. -/
def State.schedDone (s : State) : State := s.modCore schedCore (fun k => { k with faults := [] })

/-- A range of a PASID as the scheduler translates it. -/
def State.schedPlan (s : State) (pasid va n : Nat) (write : Bool) : Plan :=
  s.plan schedCore pasid va n write (s.schedFaults pasid)

/-- Ask for pages on the scheduler's behalf. -/
def State.schedAsk (s : State) (pasid : Nat) (write : Bool) (pages : List Nat) : State :=
  s.startWalks schedCore pasid write false .sched pages

/-- An empty record, for one that cannot be read. -/
def LRec.none : LRec := LRec.read []

/-- A grid of queue q from record r, with its priority as the queue has it. -/
def State.gridOf (s : State) (q r : Nat) (l : LRec) (start : Nat) (images : List W64) (held rejected : Bool) : Grid :=
  { queue := q, index := r, lr := l, pasid := s.qpasid q, prio := ((s.qctl q).extractLsb' 1 2).toNat, start, images, held
    rejected, nok := 0, nerr := 0, first := .none, left := if rejected then 0 else l.nblk, doms := [] }

/-- The head record has been read: QRP advances. -/
def State.takeRecord (s : State) (q r : Nat) : State :=
  { (s.setCtl (offQueue q + 0x14) (BitVec.ofNat 32 (r + 1))) with admits := s.admits.tail }

/-- A record is rejected: its grid completes with FORMAT. -/
def State.rejectRecord (s : State) (q r : Nat) (l : LRec) : State :=
  let g := s.gridOf q r l 0 [] false true
  let s := (s.takeRecord q r).badRecord q r
  { s.schedDone with grids := s.grids.put s.nextGrid g, nextGrid := s.nextGrid + 1 }

/-- A record is admitted: every block is assigned to a core; held behind its queue, or waiting at once. -/
def State.admitRecord (s : State) (q r : Nat) (l : LRec) (images : List W64) : State :=
  let mine := s.grids.filter (fun g => g.2.queue = q)
  let held := (l.seq && !mine.isEmpty) || mine.any (fun g => g.2.held)
  let a := l.assign s.cursor
  let g := s.gridOf q r l a.1 images held false
  let i := s.nextGrid
  let s := (s.takeRecord q r).setCtl 0xF000 (BitVec.ofNat 32 a.2)
  let s := { s.schedDone with grids := s.grids.put i g, nextGrid := i + 1 }
  if held then s else s.enterGrid i g

/-- The scheduler reads and checks the next visible record, or asks for the pages that it lacks. -/
def State.admitOne (s : State) : State :=
  match s.admits with
  | [] => s
  | (q, r) :: _ =>
    let pasid := s.qpasid q
    match s.schedPlan pasid ((s.qbase q + 128 * (r % s.qsize q)) % 2 ^ 64) 128 false with
    | .miss p => s.schedAsk pasid false p
    | .fault .. => s.rejectRecord q r LRec.none
    | .ok ps =>
      let b := s.readPieces ps
      let l := LRec.read b
      if !recordOk b ((s.qctl q).getLsbD 3) then s.rejectRecord q r l
      else
        match s.schedPlan pasid l.folio (8 * l.nfol) false with
        | .miss p => s.schedAsk pasid false p
        | .fault .. => s.rejectRecord q r l
        | .ok ps =>
          let f := s.readPieces ps
          s.admitRecord q r l ((List.range l.nfol).map (fun i => BitVec.ofNat 64 (numAt f (8 * i) 8)))

/-! ## Does a block fit (R17 to R19, R278, R325)? -/

/-- The sum over the resident blocks of a number. -/
def Core.sumBlocks (k : Core) (f : LRec → Nat) : Nat := (k.blocks.map (fun b => f b.2.lr)).foldl (· + ·) 0

/-- A core's member block is resident (R333). -/
def Core.memberThere (k : Core) : Bool :=
  match k.member with | some m => k.blocks.any (fun b => (b.2.grid, b.2.bno) == m) | none => false

/-- Does a block fit with what is resident? -/
def Core.fits (k : Core) (l : LRec) (saved : Option Saved) : Bool :=
  decide (k.sumBlocks LRec.warps + l.warps ≤ 32) && decide (k.sumBlocks LRec.demand + l.demand ≤ 3072)
    && decide (k.sumBlocks LRec.claim + l.claim ≤ 384 * 1024) && decide (k.blocks.length < 8)
    && decide (k.sumBlocks (fun x => x.nfol + x.novl) + l.nfol + l.novl ≤ 16)
    && !(l.domain != 0 && k.memberThere)
    && (match saved with
      | none => true
      | some v =>
        decide (k.clasp.length + v.clasp.length ≤ 64) && decide (v.held.length ≤ k.freeBanks.length)
          && decide (k.copy.length + v.copies.length ≤ 64) && decide (k.mar.slots.length + v.marbles.length ≤ 16)
          && !(v.marbles.any (·.target) && k.mar.slots.any (fun p => p.2.target))
          && (v.strand.isNone || k.strand.isNone)
          && (v.kickWarp.isNone || k.kick.extractLsb' 25 7 == 0))

/-! ## Warps at their start (R90, R94, R327) -/

/-- Warp i of a block, of role number ro. -/
def Warp.start (rix ro i : Nat) (l : LRec) (r : Role) : Warp :=
  { rix, role := ro, idx := i, v := []
    w := SMap.setMany 0 [] 0 [l.arg.extractLsb' 0 32, l.arg.extractLsb' 32 32, BitVec.ofNat 32 l.nblk]
    q := [], flags := [], seed := (List.range 32).map (fun t => (t, BitVec.ofNat 32 (0x5EED0000 + 32 * i + t + 1)))
    fmode := 1, rotbase := 0, loops := [], pri := { (Path.none.jump r.entry) with live := true, mask := 0xFFFFFFFF }
    alt := Path.none, recs := [], exited := 0, hand := none, bankV := [], bankW := [], trapcause := 0, trappc := 0
    traplanes := 0, pend := [], results := [], priv := l.priv, strand := false, wait := 0, sw := false, crc := [], hcnt := 0, edge := none
    relSeq := 0, hq := [] }

/-- The warps of a block, in ascending index: roles in order, with the number of the first. -/
def startWarps (rix : Nat) (l : LRec) : Nat → Nat → List Role → List Warp
  | _, _, [] => []
  | ro, i, r :: rs =>
    (List.range r.warps).map (fun j => Warp.start rix ro (i + j) l r) ++ startWarps rix l (ro + 1) (i + r.warps) rs

/-- The lowest number below n that is no key. -/
def freeKey {α : Type} (m : KMap α) (n : Nat) : Nat := (firstBelow (fun i => (m.find? i).isNone) n 0).getD 0

/-- Give warps the lowest free numbers of a core. -/
def Core.addWarps (k : Core) : List Warp → Core
  | [] => k
  | w :: l => { k with warps := k.warps.put (freeKey k.warps 32) w }.addWarps l

/-! ## Placement (R326) -/

/-- Load the images of a list into slots; the first failure stops it. -/
def State.loadImages (s : State) (pasid : Nat) : List (Nat × W64) → KMap Folio → Except Plan (KMap Folio)
  | [], m => .ok m
  | (sl, a) :: l, m =>
    match s.loadImage schedCore pasid a.toNat (s.schedFaults pasid) false none (m.map (·.2)) with
    | .ok f => s.loadImages pasid l (KMap.put m sl f)
    | .fault x r va => .error (.fault x r va)
    | .miss p => .error (.miss p)

/-- A new block as it is placed. -/
def Block.place (i : Nat) (g : Grid) (b order : Nat) (folios : KMap Folio) : Block :=
  { grid := i, bno := b, pasid := g.pasid, prio := g.prio, lr := g.lr, order, folios, loading := [], scratch := []
    absent := [], ft := [], cur := [], map := 0, banks := [], claims := [], cs := ⟨false, 0, 0, 0, 0, 0⟩
    ms := ⟨false, 0, 0, 0⟩, opreq := none, dead := none, pre := false, evict := false, mxr := false, kill := false
    halt := 0, fused := g.lr.fuse }

/-- The scheduler writes %domain for block b of grid i (R333): with noted, the grid's completion clears it (R331). -/
def State.putMember (s : State) (c i b : Nat) (v : W32) (noted : Bool) : State :=
  let s := s.modCore c (fun k => { k with domain := v, member := some (i, b) })
  { s with grids := s.grids.map (fun g =>
      (g.1, { g.2 with doms := g.2.doms.filter (fun d => d.1 ≠ c) ++ (if noted && g.1 == i then [(c, v)] else []) })) }

/-- %domain at the placement of a block with DOMAIN ≠ 0 (R333). -/
def State.setMember (s : State) (c rix i b : Nat) (l : LRec) : State :=
  if l.domain = 0 then s else s.putMember c i b (BitVec.ofNat 32 (rix * 2 ^ 8 + 2 ^ 7 + l.domain)) true

/-- The block leaves its waiting list. -/
def State.leaveWait (s : State) (c : Nat) : State := { s with waiting := s.waiting.put c (s.waitList c).tail }

/-- Place block b of grid i on core c with its folios, or with the failure of their load. -/
def State.placeNew (s : State) (c i : Nat) (g : Grid) (b : Nat) (x : Except (BitVec 8) (KMap Folio)) : State :=
  let k := s.core c
  let rix := freeKey k.blocks 8
  let blk := Block.place i g b k.placed (match x with | .ok m => m | .error _ => [])
  let s := ((s.leaveWait c).modCore c (fun k => { k with blocks := k.blocks.put rix blk, placed := k.placed + 1 })).progress c
  match x with
  | .error cause => (s.modCore c (fun k => k.recomputeAt s.time)).killBlock c rix cause.toNat 0 g.lr.code
  | .ok _ =>
    (s.setMember c rix i b g.lr).modCore c (fun k => (k.addWarps (startWarps rix g.lr 0 0 g.lr.roles)).recomputeAt s.time)

/-! ## The end of a block (R330, R332) -/

/-- Everything that a block holds on its core goes. -/
def Core.dropBlock (k : Core) (rix : Nat) : Core :=
  let mine (w : Nat) : Bool := match k.warps.find? w with | some x => x.rix == rix | none => false
  let kicks : Bool := match k.kickBy with | some p => p.1 == rix | none => false
  { k with
    blocks := KMap.del k.blocks rix
    warps := k.warps.filter (fun w => w.2.rix ≠ rix)
    strand := match k.strand with | some t => if mine t.warp then none else some t | none => none
    caccept := k.caccept.filter (fun q => q.rix ≠ rix)
    clasp := k.clasp.filter (fun x => x.rix ≠ rix)
    kick := if kicks then k.kick &&& 0x7FFFF else k.kick
    kickBy := if kicks then none else k.kickBy
    kfaults := if kicks then [] else k.kfaults
    mar := { k.mar with accepting := k.mar.accepting.filter (fun q => q.rix ≠ rix) }
    mx := { k.mx with
      queue := k.mx.queue.filter (fun x => x.rix ≠ rix)
      allocq := k.mx.allocq.filter (fun x => x.rix ≠ rix), freeq := k.mx.freeq.filter (fun x => x.rix ≠ rix) }
    floads := k.floads.filter (fun f => !mine f.warp), hashes := k.hashes.filter (fun h => !mine h.1)
    xlates := k.xlates.filter (fun x => !mine x.warp)
    walks := k.walks.map (fun w => { w with who := w.who.filter (fun a =>
      match a with
      | .path x _ => !mine x
      | .folio x _ => !mine x
      | .strand => (match k.strand with | some t => !mine t.warp | none => true)
      | .copy slot => !(kicks && slot == 64)
      | .xlate id => k.xlates.any (fun q => q.id == id && !mine q.warp)
      | _ => true) }) }

/-- Have the block's threads exited, or has a cause ended it? -/
def Core.blockOver (k : Core) (rix : Nat) (b : Block) : Bool :=
  b.dead.isSome || k.warps.all (fun w => w.2.rix ≠ rix || w.2.exited == 0xFFFFFFFF)

/-- Have the block's accesses and requests completed, those included that its strand keeps for a translation or for a handler
to redo (R158)? -/
def State.blockQuiet (s : State) (c rix : Nat) (b : Block) : Bool :=
  let k := s.core c
  let ws := k.warps.filter (fun w => w.2.rix = rix)
  k.copy.all (fun q => q.2.rix ≠ rix) && k.mar.slots.all (fun q => q.2.rix ≠ rix)
    && (match k.kickBy with | some p => p.1 ≠ rix | none => true)
    && (match k.mx.cur with | some r => r.entry.rix ≠ rix | none => true)
    && (match k.mx.reading with | some r => r.entry.rix ≠ rix | none => true)
    && ws.all (fun w => !s.atomicsDue c w.1 s.nonce && k.wb.all (fun e => e.warp ≠ w.1)
      && s.qsubs.all (fun q => !(q.core == c && q.warp == w.1))
      && (b.dead.isSome || (match k.strand with | some t => t.warp ≠ w.1 || t.deferred.isEmpty | none => true))
      && (b.dead.isSome || w.2.results.isEmpty))

/-- A block status word (R332). -/
def Block.status (b : Block) : W32 :=
  let d := b.dead.getD (0, 0, 0)
  BitVec.ofNat 32 (2 ^ 31 + (if b.dead.isSome then 2 ^ 30 else 0) + d.2.1 % 256 * 2 ^ 16 + d.1 % 256 * 2 ^ 8
    + (if b.kill then 8 else 0) + (if b.mxr then 4 else 0) + (if b.evict then 2 else 0) + (if b.pre then 1 else 0))

/-- Write bytes for a grid under its PASID; a fault is noted in the endpaper record (R331). -/
def State.schedPut (s : State) (g : Grid) (quire va : Nat) (l : List Byte) : Except (List Nat) State :=
  match s.schedPlan g.pasid va l.length true with
  | .ok ps => .ok (s.writePieces ps l).schedDone
  | .fault cause r a => .ok (s.endpaper quire 1 2047 (cause.toNat + 256 * r) a g.pasid).schedDone
  | .miss p => .error p

/-- The quire whose endpaper record notes a grid's faults (R331). -/
def Grid.quire (g : Grid) : Nat := if g.rejected then g.lr.quires.headD 0 else quireOf (g.core 0)

/-- The grid counts an ended block. -/
def Grid.ended (g : Grid) (b : Block) : Grid :=
  match b.dead with
  | none => { g with nok := g.nok + 1, left := g.left - 1 }
  | some d =>
    { g with
      nerr := g.nerr + 1, left := g.left - 1
      first := match g.first with
        | some f => if b.bno < f.1 then some (b.bno, d.1) else some f
        | none => some (b.bno, d.1) }

/-- The hashes of a block's warps stay in %hash as it ends (R428). -/
def Core.endHashes (k : Core) (rix : Nat) : Core :=
  { k with obs := { k.obs with
      ended := k.warps.foldl (fun (acc : W64) w => if w.2.rix = rix then acc ^^^ w.2.hash else acc) k.obs.ended } }

/-- The block leaves the core: its resources return. -/
def State.dropBlock (s : State) (c rix : Nat) : State :=
  let s := s.modCore c (fun k => (k.dropBlock rix).recomputeAt s.time)
  { s with invals := s.invals.filter (fun v =>
      match v.who with
      | some p => !(v.core == c && ((s.core c).warps.find? p.1).isNone)
      | none => true) }

/-- A core reset that was commanded is over when no block that it ended is left (R342, R343). -/
def State.resetsOver (s : State) (c : Nat) : State :=
  if (s.core c).blocks.any (fun b => b.2.kill) then s else { s with commanded := s.commanded.filter (· ≠ (c, 2)) }

/-- A block of core c ends; its status word first, if the grid asks for it. -/
def State.endBlock (s : State) (c rix : Nat) : State :=
  match (s.core c).blocks.find? rix with
  | none => s
  | some b =>
    match s.grids.find? b.grid with
    | none => (((s.modCore c (·.endHashes rix)).dropBlock c rix).progress c).resetsOver c
    | some g =>
      let fin (s : State) : State :=
        let t := ((s.modCore c (·.endHashes rix)).dropBlock c rix).progress c
        let s := (if s.fused c && !t.fused c then t.l1Clear c else t).resetsOver c
        { s with grids := s.grids.put b.grid (match s.grids.find? b.grid with | some g => g.ended b | none => g) }
      if b.lr.bstat then
        match s.schedPut g g.quire (b.lr.compl + 64 + 4 * b.bno) (wBytes b.status) with
        | .ok t => fin t
        | .error p => s.schedAsk g.pasid true p
      else fin s

/-! ## The completion of a grid (R331) -/

/-- The completion record. -/
def Grid.record (g : Grid) (time : Nat) : List Byte :=
  let cause := if g.rejected then cFormat.toNat else (g.first.map (·.2)).getD 0
  padTo 64 (natBytes 4 (cause % 256 * 2 ^ 8 + (if g.rejected || g.nerr != 0 then 2 else 0) + 1)
    ++ natBytes 4 g.nok ++ natBytes 4 g.nerr ++ natBytes 4 ((g.first.map (·.1)).getD 0xFFFFFFFF) ++ natBytes 8 time)

/-- Release the held grids of a queue that nothing holds any longer, in order (R323). -/
def State.releaseHeld (s : State) (q : Nat) : List (Nat × Grid) → Bool → Bool → State
  | [], _, _ => s
  | (i, g) :: l, earlier, held =>
    if g.queue ≠ q then s.releaseHeld q l earlier held
    else if g.held && !held && !(g.lr.seq && earlier) then
      let g := { g with held := false }
      ({ s with grids := s.grids.put i g }.enterGrid i g).releaseHeld q l true false
    else s.releaseHeld q l true (held || g.held)

/-- Membership that the scheduler set for the grid is cleared where it still stands. -/
def State.clearDomains (s : State) (g : Grid) : State :=
  g.doms.foldl (fun s d => if (s.core d.1).domain = d.2 then s.modCore d.1 (fun k => { k with domain := 0, member := none }) else s) s

/-- A grid completes: membership, completion record, interrupt. -/
def State.completeGrid (s : State) (i : Nat) (g : Grid) : State :=
  let fin (s : State) : State :=
    let s := s.clearDomains g
    let s := if (s.qctl g.queue).getLsbD 5 then
        { s with irqs := s.irqs ++ [((s.qctl g.queue).extractLsb' 10 11).toNat] } else s
    let s := { s with grids := s.grids.del i }
    s.releaseHeld g.queue s.grids false false
  if g.lr.compl = 0 then fin s
  else
    match s.schedPut g g.quire g.lr.compl (g.record s.time) with
    | .ok t => fin t
    | .error p => s.schedAsk g.pasid true p

/-- The first grid whose last block has ended. -/
def State.gridDone (s : State) : Option (Nat × Grid) := List.find? (fun g : Nat × Grid => g.2.left == 0) s.grids

/-! ## QSUB (R329) -/

/-- A QSUB record's write may be made now: its turn, and the path's earlier accesses have been performed. -/
def State.qsubReady (s : State) (q : Nat) : Option QsubReq :=
  s.qsubs.find? (fun x => x.queue == q && x.ticket == s.qwp q && s.performed x.core x.warp x.seq true)

/-- A QSUB's record has been written and QWP advances; a write that faults is dropped (assumption 38). -/
def State.qsubWrite (s : State) (q : Nat) (x : QsubReq) : State :=
  let done (s : State) : State :=
    (({ s with qsubs := s.qsubs.filter (· != x) } : State).setCtl (offQueue q + 0x10) (BitVec.ofNat 32 (x.ticket + 1))).visible q
  match s.schedPlan (s.qpasid q) ((s.qbase q + 128 * (x.ticket % s.qsize q)) % 2 ^ 64) x.bytes.length true with
  | .ok ps => done (s.writePieces ps x.bytes).schedDone
  | .fault .. => done s.schedDone
  | .miss p => s.schedAsk (s.qpasid q) true p

end Sys2Proof.Machine
end

