-- ==== Sys2Proof/Machine/Preempt.lean ====
section
/-! DEFINITION. Placement of what waits, pre-emption and eviction, the save and restoration of a block's context, and
the reset of a core (R325, R326, R335 to R344, R243, R277 to R279, R311). -/

namespace Sys2Proof.Machine

/-! ## Halting (R243, R311, R336) -/

/-- The waits before a bundle has issued, which end at the bundle boundary as the strand stops there (R156, R336). -/
def Park.beforeBundle : Park → Bool
  | .translate => true
  | .fence .. => true
  | .home => true
  | .flags => true
  | .switch => true
  | r => r.abandons

/-- A path stands at an instruction boundary, or its instruction is to be abandoned. -/
def Path.stopped (strand : Bool) (p : Path) : Bool :=
  !p.live || (match p.park with | some r => p.done == 0 && (r.abandons || (strand && r.beforeBundle)) | .none => p.held.isNone)

/-- Complete a block's PFL2 requests at once (R243). -/
def State.endPrefetches (s : State) (c rix : Nat) : State :=
  (s.core c).copy.foldl (fun s p =>
    if p.2.rix = rix ∧ p.2.op = .pfl2 then s.copyEnd c p.1 p.2 p.2.left else s) s

/-- The halt of a block begins: for pre-emption (1) or eviction (2). A SEEDSCAN of it ends with CAUSE 2, one whose target holds
a NaN or an infinity too (R311; assumption 138). -/
def State.halt (s : State) (c rix why : Nat) : State :=
  let s := (s.modBlock c rix (fun b => { b with halt := why })).endPrefetches c rix
  s.modCore c (fun k => { k with
    mar := { k.mar with run := k.mar.run.map (fun r =>
      match k.mar.slots.find? r.slot with
      | some q => if q.rix = rix ∧ q.op = 1 ∧ r.stage ≠ .write then { r with ended := some (r.ended.getD 2) } else r
      | none => r) }
    strand := k.strand.map (fun t =>
      match k.warps.find? t.warp with
      | some w => if w.rix = rix ∧ t.st = .run ∧ w.pri.done = 0 then t.freeze (k.ck.cycle, k.ck.edge) .resume else t
      | none => t) })

/-- No path of a warp issues any longer and nothing of it is under way. -/
def State.warpHalted (s : State) (c w : Nat) (x : Warp) : Bool :=
  let k := s.core c
  x.pri.stopped x.bundled && x.alt.stopped false && x.edge.isNone
    && (if x.strand && x.hand.isNone then x.results.all (fun r => !r.lock || r.ready || k.again r) else x.results.isEmpty)
    && (match x.hand with | some h => h.snap.all (fun r => !r.lock || r.ready || k.again r) | none => true)
    && !s.atomicsDue c w s.nonce && k.wb.all (fun e => e.warp ≠ w)
    && s.qsubs.all (fun q => !(q.core == c && q.warp == w)) && k.hashes.all (fun h => h.1 ≠ w)
    && k.xlates.all (fun q => q.warp ≠ w)
    && (match k.strand with | some t => t.warp ≠ w || (t.deferred.all t.stays && !t.expands) | none => true)

/-- No path of the halted block issues any longer, and what it has begun has completed. -/
def State.blockHalted (s : State) (c rix : Nat) : Bool :=
  let k := s.core c
  k.warps.all (fun w => w.2.rix ≠ rix || s.warpHalted c w.1 w.2)
    && (match k.mx.cur with | some r => r.entry.rix ≠ rix | none => true)
    && (match k.mx.reading with | some r => r.entry.rix ≠ rix | none => true)
    && k.copy.all (fun q => q.2.rix ≠ rix || (!q.2.begun && q.2.err.isNone))
    && (match k.running with | some r => r.2.rix ≠ rix | none => true)
    && k.mar.slots.all (fun q => q.2.rix ≠ rix || !q.2.target || q.2.filled)

/-- A precise stop holds the block: it froze the whole core, or the block's strand (R418, R434). -/
def Core.stopHolds (k : Core) (rix : Nat) : Bool :=
  k.obs.stopped && (k.obs.whole || k.warps.any (fun w => w.2.rix == rix && w.2.strand))

/-- The block of core c whose halt is complete; a stop holds it up (R434). -/
def State.haltedBlock (s : State) (c : Nat) : Option (Nat × Block) :=
  List.find? (fun p : Nat × Block =>
    p.2.halt != 0 && p.2.dead.isNone && !(s.core c).stopHolds p.1 && s.blockHalted c p.1) (s.core c).blocks

/-! ## The save (R337) -/

/-- A path as it is saved: its parked instruction will issue again. -/
def Path.saved (p : Path) : Path :=
  { p with park := .none, ptail := 0, faults := [], yielded := false, age := 0, held := .none }

/-- A parked ACCALLOC is named by %trappc, unless a handler runs, whose %trappc stays (R270; assumption 111). -/
def Warp.namesAlloc (w : Warp) (b : Block) : Warp :=
  let at_ (p : Path) : Bool := p.live && p.park == some .banks
  if w.hand.isSome then w
  else if at_ w.pri then { w with trappc := b.abs w.pri.pc }
  else if at_ w.alt then { w with trappc := b.abs w.alt.pc }
  else w

/-- A warp as it is saved. -/
def Warp.saved (w : Warp) : Warp := { w with pri := w.pri.saved, alt := w.alt.saved, wait := 0, sw := false, relSeq := 0 }

/-- The requests of a block in a core's copy queue, in acceptance order. -/
def Core.copiesOf (k : Core) (rix : Nat) : List CReq :=
  k.corder.filterMap (fun i => (k.copy.find? i).bind (fun q => if q.rix = rix then some q else none))

/-- The requests of a block in a core's marbling queue, with their slots, in acceptance order. -/
def Core.marblesOf (k : Core) (rix : Nat) : List (Nat × MReq) :=
  k.mar.order.filterMap (fun i => (k.mar.slots.find? i).bind (fun q => if q.rix = rix then some (i, q) else none))

/-- What is kept of a block beside its context area: what the area has no field for (assumption 75). -/
def Core.save (k : Core) (rix : Nat) (b : Block) : Saved :=
  let kick := match k.kickBy with | some p => if p.1 = rix then some p.2 else none | none => none
  { rix
    block := { b with folios := [], loading := [], scratch := [], claims := [], halt := 0
                      pre := b.pre || b.halt == 1, evict := b.evict || b.halt == 2 }
    warps := (k.blockWarps rix).map (fun w => (w.1, w.2.saved))
    strand := match k.strand with
      | some t => (match k.warps.find? t.warp with | some w => if w.rix = rix then some t else none | none => none)
      | none => none
    held := b.banks.map (·.1), copies := k.copiesOf rix, marbles := (k.marblesOf rix).map (·.2)
    clasp := k.clasp.filter (fun x => x.rix = rix)
    kickWarp := kick
    domain := if k.member = some (b.grid, b.bno) then some k.domain else none }

/-- Take a block's waiting requests out of the engines' queues, with what they have asked of the walkers; its marbling target
buffer goes with them. -/
def Core.dropRequests (k : Core) (rix : Nat) : Core :=
  let gone := k.copy.filter (fun q => q.2.rix = rix)
  let mg := k.mar.slots.filter (fun q => q.2.rix = rix)
  { k with
    copy := k.copy.filter (fun q => q.2.rix ≠ rix), corder := k.corder.filter (fun i => !gone.any (fun q => q.1 == i))
    walks := k.walks.map (fun w => { w with who := w.who.filter (fun a => !gone.any (fun q => a == askCopy q.1)) })
    mar := { k.mar with
      slots := k.mar.slots.filter (fun q => q.2.rix ≠ rix), order := k.mar.order.filter (fun i => !mg.any (fun q => q.1 == i)) } }

/-- Context areas are written and read under the block's PASID as the scheduler's other accesses are (R347): what the pages
allow, with a cause when they do not. -/
def State.ctxPlan (s : State) (b : Block) (write : Bool) : Plan := s.schedPlan b.pasid b.ctxAt b.lr.ctxSize write

/-- The bytes of a block's context area: its header and the sections of R338, KIND 1 and CAUSE 5 as R420 gives them. -/
def State.contextBytes (s : State) (c rix : Nat) (b : Block) (v : Saved) : List Byte :=
  let k := s.core c
  let first := match k.strand with | some t => t.frozen | none => (0, 0)
  s.contextHeader c b b.halt ++ s.context c rix b v.copies (k.marblesOf rix) v.clasp first 1 5

/-- A saved block leaves its core for the waiting list; an eviction by the matrix engine posts its endpaper event. The
hashes of its warps leave with it (R428; assumption 139). -/
def State.leaveSaved (s : State) (c rix : Nat) (b : Block) (v : Saved) : State :=
  let s := if b.halt = 2 then s.endpaper (quireOf c) 4 c rix 0 b.bno else s
  ((s.modCore c (fun k => k.dropRequests rix)).dropBlock c rix).enterWait c ⟨b.grid, b.bno, b.prio, some v⟩

/-- The context area is written, and the block leaves the core for its waiting list; a fault ends it (R337). -/
def State.saveBlock (s : State) (c rix : Nat) (b : Block) : State :=
  match s.ctxPlan b true with
  | .miss p => s.schedAsk b.pasid true p
  | .fault cause r a =>
    (((s.modBlock c rix (fun b => { b with halt := 0 })).killBlock c rix cause.toNat 0 b.lr.code).noteFault c b.pasid
      cause.toNat r a).schedDone
  | .ok ps =>
    let s := s.modCore c (fun k => { k with
      warps := k.warps.map (fun w => (w.1, if w.2.rix = rix then w.2.namesAlloc b else w.2)) })
    let v := (s.core c).save rix b
    (s.writePieces ps (s.contextBytes c rix b v)).schedDone.leaveSaved c rix b v

/-! ## The restoration (R337 to R341) -/

/-- Part of a list. -/
def cut (b : List Byte) (o n : Nat) : List Byte := (b.drop o).take n

/-- A map of the words of bytes, by key from 0. -/
def wordMap (b : List Byte) : SMap W32 := SMap.setMany 0 [] 0 (wordsOfBytes b)

/-- A word of bytes. -/
def wordAt (b : List Byte) (o : Nat) : W32 := BitVec.ofNat 32 (numAt b o 4)

/-- The loop stack of n entries' bytes, innermost first (R142); an entry has no field for the length of its body, which
comes from what was saved. -/
def loopsAt (old : List LoopEntry) (b : List Byte) (n : Nat) : List LoopEntry :=
  ((List.range n).map (fun i =>
    (⟨wordAt b (16 * i), numAt b (16 * i + 4) 4, numAt b (16 * i + 8) 4, numAt b (16 * i + 12) 1 % 2 == 1,
      (old.map (·.len)).getD i 0⟩ : LoopEntry))).filter (fun l => l.e != 0)

/-- The divergence records of a reserve and spill area, the newest first (R140). -/
def recsAt (b : List Byte) (depth : Nat) : List DivRec :=
  ((List.range depth).map (fun i =>
    (⟨wordAt b (16 * i), wordAt b (16 * i + 4), wordAt b (16 * i + 8), wordAt b (16 * i + 12)⟩ : DivRec))).reverse

/-- What a handler has kept aside of which nothing is known but that it runs (R339). -/
def Handler.none : Handler := ⟨Path.none, Path.none, true, [], [], 0, false, false, [], 0, 0, 0, 0⟩

/-- A warp with the fields of its record (R339), its divergence records (R140) and its registers. A handler's records
come before those of the program below it. -/
def Warp.restore (w : Warp) (r divs regs : List Byte) : Warp :=
  let word (o : Nat) : W32 := wordAt r o
  let live := numAt r 16 1
  let hand := live / 4 % 2 == 1
  let recs := recsAt divs (numAt r 18 2)
  let below := match w.hand with | some h => h.recs.length | none => 0
  let bank : SMap W32 := (wordMap (cut r 1024 3072)).map (fun p => (p.1 + 32 * 360, p.2))
  { w with
    pri := { w.pri with pc := word 0, mask := word 4, live := live % 2 == 1 }
    alt := { w.alt with pc := word 8, mask := word 12, live := live / 2 % 2 == 1 }
    priv := live / 8 % 2 == 1
    fmode := word 20, rotbase := word 24, trapcause := word 28, trappc := BitVec.ofNat 64 (numAt r 32 8), traplanes := word 40
    q := wordMap (cut r 48 60), w := wordMap (cut r 176 256), flags := wordMap (cut r 464 128), seed := wordMap (cut r 592 128)
    crc := SMap.setMany 0 [] 0 ((List.range 32).map (fun i => BitVec.ofNat 64 (numAt r (720 + 8 * i) 8)))
    loops := loopsAt w.loops (cut r 112 64) 4, recs := recs.take (recs.length - below)
    hand := if hand then some { (w.hand.getD Handler.none) with recs := recs.drop (recs.length - below) } else none
    strand := live / 16 % 2 == 1
    hcnt := numAt r 976 4, v := wordMap regs
    bankV := if hand then bank else w.bankV
    bankW := if hand then (wordMap (cut r 432 32)).map (fun p => (p.1 + 56, p.2)) else w.bankW }

/-- The saved warps with what their records and registers hold, in the order of the sections. -/
def restoreWarps (l : LRec) (b : List Byte) : Nat → Nat → List (Nat × Warp) → List (Nat × Warp)
  | _, _, [] => []
  | i, at_, (n, w) :: ws =>
    let size := 1024 * (l.roles.getD w.role ⟨0, 0, 0, 0⟩).regs
    (n, w.restore (cut b (l.sectionAt 1 + 4096 * i) 4096) (cut b (l.sectionAt 2 + 4096 * i) 4096) (cut b at_ size)) :: restoreWarps l b (i + 1) (at_ + size) ws

/-- The bytes of a run of n registers in m lanes, as their group takes them (R421). -/
def groupSize (n m : Nat) : Nat := 8 + 4 * (n * m + n * m % 2)

/-- The words of each run of a result's groups. -/
def runWords (m : Nat) : List (Nat × Nat) → List Byte → List (Nat × List W32)
  | [], _ => []
  | g :: l, b => (g.2, wordsOfBytes (cut b 8 (4 * g.2 * m))) :: runWords m l (b.drop (groupSize g.2 m))

/-- A result with the remaining latency and the values that its groups hold; a clear or a release of banks has no group (assumption 106). -/
def Result.regroup (r : Result) (b : List Byte) : Result :=
  let m := (lanesOf r.lanes).length
  if r.groups.isEmpty then r
  else
    match r.dest with
    | .v =>
      let ws := runWords m (runsOf r.regs) b
      { r with rem := numAt b 6 1, vals := (List.range m).flatMap (fun i => ws.flatMap (fun p => (p.2.drop (i * p.1)).take p.1)) }
    | _ => { r with rem := numAt b 6 1, vals := wordsOfBytes (cut b 8 (4 * r.vals.length)) }

/-- The results of a strand with what their groups hold, in the order of the groups. -/
def regroupAll : List Result → List Byte → List Result
  | [], _ => []
  | r :: l, b => r.regroup b :: regroupAll l (b.drop r.groups.length)

/-- A strand with its snapshot (R420): loops, latched ports and the number of its clusters. -/
def Strand.restore (t : Strand) (b : List Byte) : Strand :=
  { t with
    clusters := match numAt b 32 1 / 16 % 4 with | 0 => 0 | 1 => 1 | 2 => 2 | _ => 4
    loops := loopsAt t.loops (cut b 0x100 0x100) 16
    ports := SMap.setMany 0 t.ports 32 (wordsOfBytes (cut b 0x200 0x580)) }

/-- The warp that is the strand with its snapshot: its offset, its %rotbase and its results in flight, below its handler
while that runs. -/
def Warp.restoreStrand (w : Warp) (code : W64) (b : List Byte) : Warp :=
  let pc : W32 := (BitVec.ofNat 64 (numAt b 24 8) - code).setWidth 32
  let res := cut b 0x780 0x1880
  match w.hand with
  | some h =>
    { w with hand := some { h with pri := { h.pri with pc := pc }, rotbase := wordAt b 44, snap := regroupAll h.snap res } }
  | none => { w with pri := { w.pri with pc := pc }, rotbase := wordAt b 44, results := regroupAll w.results res }

/-- A copy request with the fields of its saved entry (R341); what its record gave at acceptance comes from what was saved. -/
def CReq.restore (q : CReq) (b : List Byte) : CReq :=
  match kickEntry q.rix q.warp q.by_ b with
  | some x => { q with op := x.op, loc := x.loc, raddr := x.raddr, bar := x.bar, coord := x.coord, list := x.list, n := x.n }
  | none => q

/-- Saved copy requests with their entries. -/
def restoreCopies (sec : List Byte) (l : List CReq) : List CReq :=
  (l.zipIdx.map (fun p => p.1.restore (cut sec (48 * p.2) 48))).take (numAt sec 0xC00 4)

/-- A marbling request with the fields of its saved entry (R341). -/
def MReq.restore (q : MReq) (b : List Byte) : MReq :=
  let op := numAt b 0 1 - 0x20
  let d := numAt b 4 4
  let ctl := numAt b 12 4
  { q with
    op := op, target := numAt b 1 1 % 2 == 1
    dst := if op = 2 then d / 2 * 2 else if op = 3 then d / 16 * 16 else d
    cfmt := if op = 2 then d % 2 == 1 else q.cfmt
    src := if op = 0 then q.src else numAt b 8 4, seed := if op = 0 then wordAt b 8 else q.seed
    bank := if op = 3 then d % 16 else if op < 2 then ctl % 16 else q.bank, c := if op < 2 then ctl / 16 else q.c
    bar := barArg (wordAt b (if op < 2 then 16 else 12)) }

/-- Saved marbling requests with their entries. -/
def restoreMarbles (sec : List Byte) (l : List MReq) : List MReq :=
  (l.zipIdx.map (fun p => p.1.restore (cut sec (0xC40 + 32 * p.2) 32))).take (numAt sec 0xC1C 4)

/-- The saved clasp entry of a KICK list, in the layout of R206; its owner comes from what was saved. -/
def kickClasps (sec : List Byte) (l : List Clasp) : List Clasp :=
  (l.zipIdx.map (fun p =>
    let b := cut sec (0xE40 + 16 * p.2) 16
    { p.1 with
      base := numAt b 0 8, len := numAt b 8 4, dst := numAt b 12 1 / 2 % 2 == 1, space := numAt b 12 1 / 4 % 4
      marb := numAt b 12 1 / 16 % 2 == 1, tag := numAt b 13 1 })).filter (fun x => !x.marb && x.tag == kickTag)

/-- STATUS, ERRVA and TOKENS of the copy engine as the area holds them (R233, R341). -/
def copyStat (sec : List Byte) : CStat :=
  let x := numAt sec 0xC08 4
  ⟨2 ^ 31 ≤ x, x / 2 ^ 24 % 128, x / 2 ^ 8 % 256, x % 256, BitVec.ofNat 64 (numAt sec 0xC10 8), wordAt sec 0xC0C⟩

/-- STATUS of the marbling engine as the area holds it (R314, R341). -/
def marbleStat (sec : List Byte) : MStat :=
  let x := numAt sec 0xC18 4
  ⟨2 ^ 31 ≤ x, x / 2 ^ 24 % 128, x / 2 ^ 8 % 256, x % 256⟩

/-- Section 8 of a context area (R338). -/
def LRec.engineSection (l : LRec) (mem : List Byte) : List Byte := cut mem (l.sectionAt 7) 8192

/-- Section 11 of a context area (R338). -/
def LRec.govSection (l : LRec) (mem : List Byte) : List Byte := cut mem (l.sectionAt 10) 256

/-- The block with its scratchpad, matrix state (R340), engine STATUS (R341) and operating-point request (R339), under new
physical banks. -/
def Block.restore (b : Block) (mem : List Byte) (folios : KMap Folio) (banks : KMap Nat) (order : Nat) : Block :=
  let m := cut mem (b.lr.sectionAt 6) 256
  let sec := b.lr.engineSection mem
  let req := numAt (b.lr.govSection mem) 128 1
  { b with
    order, folios, banks, cs := copyStat sec, ms := marbleStat sec
    opreq := if req / 8 % 2 = 1 then some (req % 8) else none
    scratch := SMap.setMany 0 [] 0 (cut mem (b.lr.sectionAt 4) (128 * b.lr.scratch))
    ft := SMap.setMany 0 [] 0 ((List.range 7).map (fun i => BitVec.ofNat 64 (numAt m (8 * i) 8)))
    cur := SMap.setMany 0 [] 0 ((List.range 7).map (fun i => numAt m (56 + 2 * i) 2))
    map := BitVec.ofNat 64 (numAt m 72 8) }

/-- The logical banks return with their contents. -/
def Mx.restore (m : Mx) (l : LRec) (mem : List Byte) : List (Nat × Nat) → Mx
  | [] => m
  | (i, p) :: ps =>
    let b := cut mem (l.sectionAt 5 + 18432 * i) 18432
    { m with
      acc := SMap.setMany 0 (SMap.clear m.acc (4096 * p) 4096) (4096 * p) (wordsOfBytes (b.take 16384))
      scale := SMap.setMany 0 (SMap.clear m.scale (2048 * p) 2048) (2048 * p) (b.drop 16384) }.restore l mem ps

/-- A line of a request whose block has moved to another resident index. -/
def moveLine (c old new : Nat) (l : Nat × Nat × Nat) : Nat × Nat × Nat :=
  if l.1 = c ∧ l.2.1 = old then (c, new, l.2.2) else l

/-- The saved copy requests re-enter the queue, in saved order, with their clasp entries. -/
def State.reenterCopies (s : State) (c old new : Nat) (num : Nat → Nat) : List CReq → State
  | [] => s
  | q :: l =>
    match (s.core c).freeSlot with
    | none => s
    | some slot =>
      let q := { q with rix := new, warp := num q.warp, seq := s.nonce
                        held := q.held.map (moveLine c old new), reads := q.reads.map (moveLine c old new) }
      (s.modCore c (fun k => { k with
        copy := k.copy.put slot q, corder := k.corder ++ [slot], clasp := k.clasp ++ q.claspsOf slot })).tickNonce.reenterCopies
        c old new num l

/-- The saved marbling requests re-enter the queue. -/
def State.reenterMarbles (s : State) (c new : Nat) (num : Nat → Nat) : List MReq → State
  | [] => s
  | q :: l =>
    match (s.core c).mar.freeSlot with
    | none => s
    | some slot =>
      let q := { q with rix := new, warp := num q.warp, seq := s.nonce }
      (s.modCore c (fun k => { k with
        mar := { k.mar with slots := k.mar.slots.put slot q, order := k.mar.order ++ [slot] }
        clasp := k.clasp ++ q.clasps slot })).tickNonce.reenterMarbles c new num l

/-- The membership that a block held comes back with it, at its new resident index (R333, R344). -/
def State.returnMember (s : State) (c rix : Nat) (v : Saved) : State :=
  match v.domain with
  | some d =>
    s.putMember c v.block.grid v.block.bno ((d &&& ~~~0x700) ||| BitVec.ofNat 32 (rix * 2 ^ 8)) (v.block.lr.domain != 0)
  | none => s

/-- A settling rise that the restored request begins anew goes on from its saved count, when PEND, SETTLE of section 11 name
its target (R391). -/
def Core.resettle (k : Core) (time : Nat) (sec : List Byte) : Core :=
  let before := k.gov.set
  let k := k.recomputeAt time
  let pend := numAt sec 129 1
  if pend / 8 % 2 = 1 ∧ !before ∧ k.gov.set ∧ k.gov.eff = pend % 8 then
    { k with gov := { k.gov with srem := min (numAt sec 130 2) (192 * (k.gov.eff - k.gov.run)) } }
  else k

/-- The asynchronous cause that an evicted block's warps receive on resumption, each time (R162, R279). -/
def Warp.evicted (w : Warp) (v : Saved) : Warp :=
  if v.block.evict && (v.block.lr.roles.getD w.role ⟨0, 0xFFFFFFFF, 0, 0⟩).handler != 0xFFFFFFFF then { w with pend := w.pend ++ [.accDeadlock] } else w

/-- The warps of a saved block as its context area holds them, the strand's with its snapshot, at a new resident index. -/
def Saved.restoredWarps (v : Saved) (mem : List Byte) (rix : Nat) (again : Bool) : List (Nat × Warp) :=
  let l := v.block.lr
  (restoreWarps l mem 0 (l.sectionAt 3) v.warps).map (fun p =>
    let w := { p.2 with rix := rix }
    let w := if w.strand then w.restoreStrand l.code (cut mem (l.sectionAt 9) 8192) else w
    (p.1, if again then w.evicted v else w))

/-- The logical banks that section 7 of a context area says are held, of those that the block claims (R340). -/
def LRec.heldBanks (l : LRec) (mem : List Byte) : List Nat :=
  (List.range (min 16 l.accb)).filter (fun i => numAt mem (l.sectionAt 6 + 96) 2 / 2 ^ i % 2 == 1)

/-- The strand that a saved block brings back: of the warp that its record says is collapsed (R337, R339), with what was kept of
it, at its new number and resident index. -/
def Saved.strandOf (v : Saved) (mem : List Byte) (rix : Nat) (num : Nat → Nat) (ws : List (Nat × Warp)) : Option Strand :=
  (List.find? (fun p : Nat × Warp => p.2.strand) ws).map (fun p =>
    let t := v.strand.getD ⟨p.1, 4, .resume, [], [], [], [], [], 0, false, (0, 0)⟩
    { t.restore (cut mem (v.block.lr.sectionAt 9) 8192) with
      warp := num p.1, deferred := t.deferred.map (fun d => { d with rix := rix }) })

/-- Warps take the lowest free numbers of a core: the core, and the number of each. -/
def Core.enterWarps (k : Core) (ws : List (Nat × Warp)) : Core × List (Nat × Nat) :=
  ws.foldl (fun (acc : Core × List (Nat × Nat)) p =>
    let n := freeKey acc.1.warps 32
    ({ acc.1 with warps := acc.1.warps.put n p.2 }, acc.2 ++ [(p.1, n)])) (k, [])

/-- Place a saved block again from the bytes of its context area (R337). -/
def State.placeSaved (s : State) (c : Nat) (v : Saved) (mem : List Byte) (folios : KMap Folio) (again : Bool) : State :=
  let k := s.core c
  let rix := freeKey k.blocks 8
  let l := v.block.lr
  let sec := l.engineSection mem
  let banks := (l.heldBanks mem).zip k.freeBanks
  let marbles := restoreMarbles sec v.marbles
  let kick := wordAt sec 0xC04
  let listed := kick.extractLsb' 25 7 != 0
  let ws := v.restoredWarps mem rix again
  let k2 := k.enterWarps ws
  let num (n : Nat) : Nat := ((k2.2.find? (fun p => p.1 == n)).map (·.2)).getD n
  let s := (s.leaveWait c).putCore c { k2.1 with
    blocks := k.blocks.put rix (v.block.restore mem folios banks k.placed), placed := k.placed + 1
    mx := k.mx.restore l mem banks
    mar := if marbles.any (·.target) then
        { k.mar with target := wordMap (cut mem (l.sectionAt 8) 16384) } else k.mar
    strand := k.strand <|> v.strandOf mem rix num ws
    kick := if listed then kick else k.kick
    kickBy := if listed then some (rix, num (v.kickWarp.getD (0, 0)).1, (v.kickWarp.getD (0, 0)).2) else k.kickBy
    clasp := k.clasp ++ (if listed then (kickClasps sec v.clasp).map (fun x => { x with rix := rix, warp := num x.warp }) else []) }
  ((((s.reenterCopies c v.rix rix num (restoreCopies sec v.copies)).reenterMarbles c rix num marbles).returnMember c rix v).modCore c
    (fun k => k.resettle s.time (l.govSection mem))).progress c

/-- A saved block that cannot be restored ends with a cause; the hashes of its warps stay in %hash (R337, R428). -/
def State.placeDead (s : State) (c : Nat) (v : Saved) (cause : BitVec 8) : State :=
  let k := s.core c
  let rix := freeKey k.blocks 8
  let s := ((s.leaveWait c).modCore c (fun k => { k with
    blocks := k.blocks.put rix { v.block with order := k.placed, banks := [] }, placed := k.placed + 1
    obs := { k.obs with ended := v.warps.foldl (fun (acc : W64) (w : Nat × Warp) => acc ^^^ w.2.hash) k.obs.ended } }.recomputeAt s.time)).progress c
  s.killBlock c rix cause.toNat 0 v.block.lr.code

/-! ## Placing the first of a waiting list (R325, R326) -/

/-- The record of a waiting block. -/
def State.waitRec (s : State) (x : Waiting) : Option LRec :=
  match x.saved with
  | some v => some v.block.lr
  | none => (s.grids.find? x.grid).map (·.lr)

/-- The cores of a fused group whose first member is the head of core c's list, when the group can be placed. -/
def State.groupReady (s : State) (c : Nat) (x : Waiting) (l : LRec) : Bool :=
  c % 8 == 0 && x.bno % 8 == 0
    && (List.range 8).all (fun j =>
      (s.core (c + j)).blocks.isEmpty && (s.core (c + j)).fits l none
        && (match s.waitList (c + j) with
          | y :: _ => y.grid == x.grid && y.bno == x.bno + j && y.saved.isNone
          | [] => false))

/-- Can the first block of core c's list be placed? -/
def State.placeReady (s : State) (c : Nat) : Bool :=
  match s.waitList c with
  | [] => false
  | x :: _ =>
    match s.waitRec x with
    | none => false
    | some l =>
      if l.fuse && x.saved.isNone then s.groupReady c x l else (s.core c).fits l x.saved

/-- The image addresses of a saved block by slot. -/
def savedImages (l : LRec) (mem : List Byte) : List (Nat × W64) :=
  (List.range 16).filterMap (fun i =>
    let a := numAt (l.govSection mem) (8 * i) 8
    if a = 0 then none else some (i, BitVec.ofNat 64 a))

/-- A halted block is placed again from what its context memory holds, once its pages and its images' are translated (R336,
R337, R347). -/
def State.placeAgain (s : State) (c : Nat) (v : Saved) : State :=
  match s.ctxPlan v.block false with
  | .miss p => s.schedAsk v.block.pasid false p
  | .fault cause r a => ((s.placeDead c v cause).noteFault c v.block.pasid cause.toNat r a).schedDone
  | .ok ps =>
    let mem := s.readPieces ps
    match s.loadImages v.block.pasid (savedImages v.block.lr mem) [] with
    | .ok m => (s.placeSaved c v mem m (numAt mem 2 1 == 2)).schedDone
    | .error (.miss p) => s.schedAsk v.block.pasid false p
    | .error (.fault cause r a) => ((s.placeDead c v cause).noteFault c v.block.pasid cause.toNat r a).schedDone
    | .error (.ok _) => s

/-- The first block of a grid, or its fused group from core c on, is placed with its images, or with what kept them. -/
def State.placeFused (s : State) (c : Nat) (x : Waiting) (g : Grid) (r : Except (BitVec 8) (KMap Folio)) : State :=
  let s := if g.lr.fuse && !s.fused c then s.l1Clear c else s
  ((List.range (if g.lr.fuse then 8 else 1)).foldl (fun s j => s.placeNew (c + j) x.grid g (x.bno + j) r) s).schedDone

/-- A block of a grid is placed once its images can be read. -/
def State.placeGrid (s : State) (c : Nat) (x : Waiting) (g : Grid) : State :=
  match s.loadImages g.pasid ((g.images.zipIdx).map (fun p => (p.2, p.1))) [] with
  | .ok m => s.placeFused c x g (.ok m)
  | .error (.miss p) => s.schedAsk g.pasid false p
  | .error (.fault cause _ _) => s.placeFused c x g (.error cause)
  | .error (.ok _) => s

/-- Place the first block of core c's list, a whole fused group at once; pages that are missing are asked for. -/
def State.placeFirst (s : State) (c : Nat) : State :=
  match s.waitList c with
  | [] => s
  | x :: _ =>
    match x.saved with
    | some v => s.placeAgain c v
    | none =>
      match s.grids.find? x.grid with
      | none => s.leaveWait c
      | some g => s.placeGrid c x g

/-! ## Pre-emption (R335) -/

/-- The core as it stands once the blocks being halted are gone. -/
def Core.settledBlocks (k : Core) : Core :=
  k.blocks.foldl (fun x b => if b.2.halt = 0 then x else (x.dropRequests b.1).dropBlock b.1) k

/-- The blocks of lower priority, lowest first, and among equals the one placed last. -/
def victimInsert (x : Nat × Block) : List (Nat × Block) → List (Nat × Block)
  | [] => [x]
  | y :: l =>
    if x.2.prio < y.2.prio ∨ (x.2.prio = y.2.prio ∧ y.2.order < x.2.order) then x :: y :: l else y :: victimInsert x l

/-- The victims that make room, in order: none when even all of them do not. -/
def victims (k : Core) (l : LRec) (saved : Option Saved) : List (Nat × Block) → Option (List Nat)
  | [] => if k.fits l saved then some [] else none
  | x :: xs =>
    if k.fits l saved then some []
    else (victims ((k.dropRequests x.1).dropBlock x.1) l saved xs).map (x.1 :: ·)

/-- The candidates of a core. -/
def Core.candidates (k : Core) : List (Nat × Block) :=
  k.blocks.foldl (fun acc b => if b.2.prio < 3 ∧ b.2.halt = 0 then victimInsert b acc else acc) []

/-- The blocks that core c's first waiting block pre-empts: core and resident index. -/
def State.preempts (s : State) (c : Nat) : List (Nat × Nat) :=
  match s.waitList c with
  | [] => []
  | x :: _ =>
    match s.waitRec x with
    | none => []
    | some l =>
      if x.prio ≠ 3 ∨ !l.preempt then []
      else if l.fuse && x.saved.isNone then
        let cs := (List.range 8).map (c + ·)
        let first (j : Nat) : Bool :=
          match s.waitList (c + j) with
          | y :: _ => y.grid == x.grid && y.bno == x.bno + j
          | [] => false
        if c % 8 == 0 && (List.range 8).all first && cs.all (fun i => (s.core i).blocks.all (fun b => b.2.prio < 3)) then
          cs.flatMap (fun i => ((s.core i).candidates).map (fun b => (i, b.1)))
        else []
      else
        let k := s.core c
        match victims k.settledBlocks l x.saved k.candidates with
        | some v => v.map (fun r => (c, r))
        | none => []

/-- Halt what core c's first waiting block pre-empts. -/
def State.preempt (s : State) (c : Nat) : State := (s.preempts c).foldl (fun s v => s.halt v.1 v.2 1) s

/-! ## Accumulator deadlock (R277, R278) -/

/-- A path waits in ACCALLOC. -/
def Path.inAlloc (p : Path) : Bool := p.live && p.park == some .banks

/-- The condition of R277. -/
def Core.accStuck (k : Core) : Bool :=
  k.warps.any (fun w => w.2.pri.inAlloc || w.2.alt.inAlloc)
    && k.warps.all (fun w => (!w.2.pri.live || w.2.pri.inAlloc) && (!w.2.alt.live || w.2.alt.inAlloc))

/-- The block that is evicted: of lowest priority, placed last. -/
def Core.evictee (k : Core) : Option Nat :=
  (k.blocks.foldl (fun acc b => if b.2.halt = 0 then victimInsert b acc else acc) []).head?.map (·.1)

/-! ## Reset of a core (R343) -/

/-- End every copy and marbling request of a core in an error of cause MX_RESET. -/
def State.dropEngines (s : State) (c : Nat) : State :=
  let s := (s.core c).copy.foldl (fun s p => s.copyError c p.1 { p.2 with err := some (cMxReset.toNat, 0) }) s
  (s.core c).mar.slots.foldl (fun s p =>
    let s := s.modBlock c p.2.rix (fun b =>
      { b with ms := ⟨true, min 127 (b.ms.cnt + 1), if b.ms.err then b.ms.tag else p.1,
                      if b.ms.err then b.ms.cause else cMxReset.toNat⟩ })
    (s.endpaper (quireOf c) 2 c (cMxReset.toNat + 256 * p.1 + 2 ^ 16) p.2.src p.2.rix).marbleEnd c p.1 p.2) s

/-- Reset core c: its resident blocks end. -/
def State.coreReset (s : State) (c : Nat) : State :=
  let s := ((s.dropEngines c).kickDone c).endpaper (quireOf c) 12 c 0 0 0
  let s := (List.range 11).foldl (fun s i => s.setCtl (offObs c + 4 * i) 0) s
  (s.setHash c 0).modCore c (fun k => ({ k with
    ck := { k.ck with cycle := 0, words := k.ck.words.filter (fun w => w.src ≠ c) }
    gov := { k.gov with clim := 7, blim := 0, slim := none }
    obs := { Core.reset.obs with snap := k.obs.snap }
    blocks := k.blocks.map (fun b => (b.1, { b.2 with dead := some (0, 0, 0), kill := true, halt := 0 }))
    warps := k.warps.map (fun w => (w.1, { w.2 with results := [], hand := w.2.hand.map (fun h => { h with snap := [] }) }))
    strand := none, caccept := [], walks := k.walks.map (fun w => { w with who := w.who.filter (fun a => a == .sched) })
    xlates := [], floads := [], hashes := []
    mar := { k.mar with accepting := [] }
    mx := { k.mx with queue := [], cur := none, reading := none, allocq := [], freeq := [], filler := 0, lit := false } } : Core).recomputeAt s.time)

end Sys2Proof.Machine
end

