-- ==== Sys2Proof/Machine/Host.lean ====
section
/-! DEFINITION. What the outside does to the module: writes of control registers, invalidations, answers of the host,
accesses by the host and by peers, configuration space, the press, boot, resets and attestation (R342, R348, R366 to
R374, R383, R401, R407, R410, R417, R425, R432 to R442, R453). -/

namespace Sys2Proof.Machine

/-! ## Registers without behaviour of their own (R4) -/

/-- In recovery mode the endpoint exposes the boot registers only (R438). -/
def State.recovery (s : State) : Bool := (s.ctlAt 0x3A000).getLsbD 5

/-- An invalidation written to TINVC is under way. -/
def State.tinvBusy (s : State) : Bool := s.invals.any (fun v => v.who.isNone && decide (v.mode ≤ 3))

/-- The bits of a control register that a plain write stores; none for a register that is read only or whose
write is another event's. Offsets are multiples of 4. -/
def State.storedBits (s : State) (off : Nat) : Option W32 :=
  if 0x10000 ≤ off ∧ off < 0x11000 then
    let q := (off - 0x10000) / 0x40
    if (s.qctl q).getLsbD 0 then none
    else
      match off % 0x40 with
      | 0x00 => some 0xFFFFFF80
      | 0x04 => some 0xFFFFFFFF
      | 0x0C => some 0xFFFFF
      | _ => none
  else if 0x23000 ≤ off ∧ off < 0x25400 then
    match off % 16 with
    | 0 => some 0xFFFFFFFF
    | 4 => some 0xFFFFFFFF
    | 12 => some 0x800007FF
    | _ => none
  else if 0x28000 ≤ off ∧ off < 0x31000 then
    match off % 64 with
    | 0x04 => some 0xFFFFFFFF
    | 0x0C => some 0xFFFFFFF8
    | 0x10 => some 0xFFFFFFFF
    | 0x14 => some 0xFFFFFFFF
    | 0x18 => some 0xFFFFFFF0
    | 0x1C => some 0xFFFFFFFF
    | 0x20 => some 0xFFFFFFFF
    | _ => none
  else if 0x32000 ≤ off ∧ off < 0x3A000 then
    match off % 64 with
    | 0x08 => some 0xFFFFFFFC
    | 0x0C => some 0xFFFFFFFF
    | 0x10 => some 0xFFFFFFFF
    | 0x18 => some 0xFFFFFFFF
    | _ => none
  else if 0x3A040 ≤ off ∧ off < 0x3A060 then some 0xFFFFFFFF
  else if 0x31100 ≤ off ∧ off < 0x31200 then (if off % 0x40 = 4 then some 0x1FFF else none)
  else if offFlash ≤ off then (if s.recovery then some 0xFFFFFFFF else none)
  else
    match off with
    | 0xE000 => some 0xFFFFF000
    | 0xE004 => some 0xFF
    | 0xE008 => some 0xFFFFFFFF
    | 0xE010 => some 0xFFFFFFFF
    | 0xE014 => some 0xFFFFFFFF
    | 0xE018 => if s.tinvBusy then none else some 0xFFFFF3
    | 0xE01C => some 0xFFFFFF
    | 0xF000 => some 0xFFFFFFFF
    | 0xF100 => some 0x303FF
    | _ => none

/-- TINVC with go: an invalidation of a mode; ignored while one is under way. -/
def State.hostInval (s : State) (mode pasid : Nat) : State :=
  if s.tinvBusy then s
  else
    let pasid := pasid % 2 ^ 20
    let va := (s.ctl64 0xE010).toNat
    let s := s.setCtl 0xE018 (BitVec.ofNat 32 (pasid * 2 ^ 4 + mode))
    match mode with
    | 0 => s.startInval ⟨0, some pasid, va, 0⟩ 0 none
    | 1 =>
      s.startInval ⟨1, some pasid, va / 65536 * 65536, 65536 * (((s.ctlAt 0xE01C).extractLsb' 0 24).toNat + 1)⟩ 0 none
    | 2 => s.startInval ⟨2, some pasid, 0, 0⟩ 0 none
    | _ => s.startInval ⟨3, none, 0, 0⟩ 0 none

/-- A write of a control register: the bits that it has are stored, SPER keeps its legal values (R4, R407). A write
of TINVC with go starts an invalidation (R348); a host's write of the endpaper window is ignored (R431), and a gate whose log a
write ends is at its end (R427). -/
def State.writeControl (s : State) (mgmt : Bool) (off : Nat) (v : W32) : State :=
  if off % 4 ≠ 0 || (s.recovery && decide (off < 0x3A000)) || (!mgmt && decide (0x31100 ≤ off ∧ off < 0x31200)) then s
  else if off = 0xE018 ∧ v.getLsbD 24 then s.hostInval (v.extractLsb' 0 2).toNat (v.extractLsb' 4 20).toNat
  else
    match s.storedBits off with
    | none => s
    | some m =>
      let sper := decide (0x28000 ≤ off ∧ off < 0x31000) && off % 64 == 4
      let s := s.setCtl off (if sper && !decide (16 ≤ v.toNat ∧ v.toNat ≤ 2 ^ 24) then 0 else v &&& m)
      if 0x32000 ≤ off ∧ off < 0x3A000 then s.gateMark ((off - 0x32000) / 64) else s

/-! ## Grants, watchdogs, limiters (R383, R399, R401) -/

/-- A write of CGRANT: it stands in the register at once and is in force from the next cycle edge. -/
def State.writeCgrant (s : State) (c : Nat) (v : W64) : State :=
  let v := v &&& 0x0000FFFFFFFFFF0F
  ((s.putCore c (s.core c)).setCtl64 (offCgrant c) v).endpaper (quireOf c) 7 c 0 v.toNat 0

/-- WSTAT bits written 1 are cleared. -/
def State.clearWstat (s : State) (c : Nat) (v : W32) : State :=
  s.setCtl (offWatch c + 8) (s.ctlAt (offWatch c + 8) &&& ~~~(v &&& 3))

/-- A write of a half of SLEWRAMP, or of SLEWCTL. -/
def State.writeSlew (s : State) (g : Nat) (hi isCtl : Bool) (v : W32) : State :=
  if isCtl then s.setCtl (offSlew g + 8) (v &&& 1) else s.setCtl (offSlew g + (if hi then 4 else 0)) v

/-! ## Observation (R407, R410, R417, R419, R428) -/

/-- A write of OBSCTL; a change of HMODE resets the store hashes. -/
def State.writeObsctl (s : State) (c : Nat) (v : W32) : State :=
  let v := if v.extractLsb' 8 2 == 3 then v &&& 0x7F else v &&& 0x37F
  let old := s.hmode c
  let s := s.setCtl (offObs c) v
  if s.hmode c = old then s else s.setHash c 0

/-- A write of STOPCTL with a MODE: arm, or disarm. Only the fields that are read and written are stored. -/
def State.writeStopctl (s : State) (c : Nat) (v : W32) (mode : Nat) : State :=
  let s := s.setCtl (offObs c + 8) ((v &&& 0x3F8C) ||| BitVec.ofNat 32 mode)
  s.modCore c (fun k => { k with obs := { k.obs with armed := mode != 0, count := 0 } })

/-- RESUME: it takes effect at the end of the cycle in which the dump has been accepted, or at once. -/
def State.writeResume (s : State) (c : Nat) : State :=
  if (s.core c).obs.stopped then
    (s.modCore c (fun k => { k with obs := { k.obs with resuming := true } })).stopEdge c
  else s

/-- Drop-count records for every source that has counts (R410). -/
def State.dropCounts (s : State) : State :=
  let s := s.hb.drops.foldl (fun s d =>
    if d.2 = (0, 0) then s else s.traceLossless 2 0 d.1 [BitVec.ofNat 64 (d.2.1 + d.2.2 * 2 ^ 32)]) s
  { s with hb := { s.hb with drops := [], full := false } }

/-- FLUSH: drop counts, and the partial log chunks of the slices in record mode. -/
def State.flushTrace (s : State) : State :=
  s.slices.foldl (fun s p => if s.rpmode p.1 = 1 then s.logEmit p.1 else s) s.dropCounts

/-- A write of HBCTL.EN. -/
def State.enableTrace (s : State) (en : Bool) : State :=
  s.setCtl offHbctl ((s.ctlAt offHbctl &&& 2) ||| (if en then 1 else 0))

/-- The first waiting lossless record that fits, with none of its source before it. -/
def State.roomNext (s : State) : List (Nat × List W64) → List Nat → Option (Nat × List W64)
  | [], _ => none
  | x :: l, seen => if !seen.contains x.1 && s.roomFor x.2 then some x else s.roomNext l (x.1 :: seen)

/-- Place a waiting record. -/
def State.placeWaiting (s : State) : State :=
  match s.roomNext s.hb.waiting [] with
  | none => s
  | some x => { s with hb := { s.hb with queue := s.hb.queue ++ [x.2], waiting := s.hb.waiting.erase x } }

/-! ## Invalidations and the host's answers (R348, R364, R366 to R370) -/

/-- A host ATS invalidation request. -/
def State.atsInval (s : State) (pasid : Option Nat) (va : W64) (pages : Nat) : State :=
  s.startInval ⟨5, pasid, va.toNat / 4096 * 4096, 4096 * pages⟩ 0 none

/-- ERESET holds the command that was written to it, which is under way (R342). -/
def State.noteReset (s : State) (c cmd : Nat) : State :=
  { (s.setCtl 0xF100 (BitVec.ofNat 32 (c % 1024 + cmd * 2 ^ 16))) with
    commanded := s.commanded.filter (· ≠ (c, cmd)) ++ [(c, cmd)] }

/-- A write of the configuration space: PRI enabled anew forgets a Response Failure (R369). -/
def State.writeConfig (s : State) (pasidEn atsEn priEn : Bool) : State :=
  { s with cfg := (pasidEn, atsEn, priEn), priFailed := s.priFailed && !priEn }

/-! ## What the control registers read as (R4, R316, R342, R348, R394, R395, R401, R407, R410, R425, R431, R433, R438) -/

/-- The ramp table as its register reads: 0 reads as 1, values above 8 as 8 (R395). -/
def rampRead (r : W64) : W64 :=
  (List.range 16).foldl (fun acc k => acc ||| ((BitVec.ofNat 64 (rampAt r k)) <<< (4 * k))) 0

/-- Word w of an entry of the endpaper record (R430). -/
def Event.word (e : Event) (w : Nat) : W32 :=
  BitVec.ofNat 32 (bytesNat (((natBytes 8 e.time ++ natBytes 2 e.code ++ natBytes 2 e.src ++ natBytes 4 e.a1
    ++ natBytes 8 e.a2 ++ natBytes 8 e.a3).drop (4 * w)).take 4))

/-- EPHEAD of quire q: the next entry to be written, and how often the ring has wrapped (R431). -/
def State.epHead (s : State) (q : Nat) : W32 :=
  let n := ((s.rings.find? q).getD (0, [])).1
  BitVec.ofNat 32 (n % 8192 + min (n / 8192) (2 ^ 19 - 1) * 2 ^ 13)

/-- The entry of quire q's ring at an index; zero when nothing has been written there (R430). -/
def State.epEntry (s : State) (q i : Nat) : Event :=
  let r := (s.rings.find? q).getD (0, [])
  r.2.getD ((r.1 % 8192 + 8191 - i % 8192) % 8192) ⟨0, 0, 0, 0, 0, 0⟩

/-- What the host reads of the control register at a 4-byte aligned offset: the stored value, with the bits that the
machine computes. -/
def State.readControl (s : State) (off : Nat) : W32 :=
  if (s.recovery && decide (off < 0x3A000)) || decide (offFlash ≤ off) then 0
  else if 0x22000 ≤ off ∧ off < 0x22480 then
    let r := rampRead (s.ctl64 (off / 16 * 16))
    (match off % 16 with | 0 => r.extractLsb' 0 32 | 4 => r.extractLsb' 32 32 | _ => s.ctlAt off)
  else if 0x26000 ≤ off ∧ off < 0x27200 then
    let e := (s.core ((off - 0x26000) / 8)).ck.eacc
    (if off % 8 = 0 then e.extractLsb' 0 32 else e.extractLsb' 32 32)
  else if 0x28000 ≤ off ∧ off < 0x31000 then
    (match off % 64 with
      | 8 => s.stopctlRead ((off - 0x28000) / 64)
      | 0x14 => if (s.ctlAt (off - 12)).extractLsb' 0 2 = 2 then 0 else s.ctlAt off
      | _ => s.ctlAt off)
  else if 0x31100 ≤ off ∧ off < 0x31200 then
    let q := (off - 0x31100) / 0x40
    (match off % 0x40 with
      | 0 => s.epHead q
      | 4 => s.ctlAt off
      | o => if 0x20 ≤ o then (s.epEntry q (s.ctlAt (0x31104 + 0x40 * q)).toNat).word ((o - 0x20) / 4) else 0)
  else if 0x32000 ≤ off ∧ off < 0x3A000 then
    let sl := (off - 0x32000) / 64
    (match off % 64 with
      | 0 => s.rpStatus sl
      | 0x14 => BitVec.ofNat 32 (s.slice sl).idx
      | 0x18 => if s.ctlAt off = 0 then 0x100000 else s.ctlAt off
      | _ => s.ctlAt off)
  else if 0x3C000 ≤ off ∧ off < 0x3E000 then
    BitVec.ofNat 32 (bytesNat ((List.range 4).map (fun i => SMap.get 0 s.boot.out (off - 0x3C000 + i))))
  else
    match off with
    | 0xE018 => s.ctlAt off ||| (if s.tinvBusy then 0x80000000 else 0)
    | 0xF100 =>
      s.ctlAt off ||| (if s.commanded.isEmpty then 0 else 0x40000)
    | 0x31000 => s.ctlAt off ||| (if 768 * 1024 < s.hb.fill then 8 else 0)
    | 0x31010 => (if s.press.pin then 8 else 0) ||| (if s.press.pressed then 4 else 0)
    | 0x3A004 => s.boot.header 1
    | 0x3A008 => s.boot.header 4
    | 0x3A00C => s.boot.header 5
    | _ => s.ctlAt off

/-! ## Accesses by the host and by peers (R372) -/

/-- The core number that stands for the host or a peer in a requester tag (R426). -/
def outerCore (peer : Bool) : Nat := if peer then 1022 else 1023

/-- An atomic from outside joins its home slice. -/
def State.outerAtomic (s : State) (peer : Bool) (pa n : Nat) (kind : AccKind) (data cmp : Nat) : State :=
  let ws (x : Nat) : List W32 := wordsOfBytes (natBytes n x)
  (s.modSlice (homeSlice pa) (fun x => { x with
    reqs := x.reqs ++ [⟨outerCore peer, 0, false, pa, kind, n, 0, s.nonce, ws data, ws cmp, s.time, pa⟩] })).tickNonce

/-- A host or peer access to module memory, at system scope. -/
def State.outerAccess (s : State) (peer : Bool) (op : OuterOp) (pa : Nat) : State :=
  if !isModule pa then s
  else
    match op with
    | .read n => { s with answer := s.readNat pa n }
    | .write b => s.write pa b
    | .fetchAdd n v => s.outerAtomic peer pa n (.atom 0) v 0
    | .swap n v => s.outerAtomic peer pa n (.atom 6) v 0
    | .cas n c v => s.outerAtomic peer pa n .cas c v
    | .atom op n v => if peer then s.outerAtomic peer pa n (.atom op) v 0 else s

/-! ## Errors after an access was performed (R371, R374) -/

/-- The lanes of a result that came from the host, or from a peer. -/
def Result.outer (r : Result) (peer : Bool) : List (Nat × Nat × Nat) := if peer then r.peer else r.host

/-- A lane of a result takes n all-ones bytes as a load takes them, and its source is then settled. -/
def Result.lose (r : Result) (peer : Bool) (lane n : Nat) : Result :=
  let r := { r.fill lane (loadWords (List.replicate n 0xFF)) with due := r.due }
  if peer then { r with peer := r.peer.filter (fun p => p.1 ≠ lane) } else { r with host := r.host.filter (fun p => p.1 ≠ lane) }

/-- An atomic of a result's lane is still in the write buffer: it has not been performed. -/
def Core.buffered (k : Core) (id lane : Nat) : Bool :=
  k.wb.any (fun e => match e.kind with | .atom _ _ l i _ _ _ => l == lane && i == id | _ => false)

/-- A read of a core's warps that the error can meet, one that has been performed: warp, result, lane, address, bytes. -/
def Core.outerRead (k : Core) (peer : Bool) : Option (Nat × Nat × Nat × Nat × Nat) :=
  (k.warps.flatMap (fun w => w.2.results.flatMap (fun r =>
    ((r.outer peer).filter (fun p => !k.buffered r.id p.1)).map (fun p => (w.1, r.id, p.1, p.2.1, p.2.2))))).head?

/-- A part of a copy request that the error can meet: slot and part. -/
def Core.outerPart (k : Core) (peer : Bool) : Option (Nat × CPart) :=
  (k.copy.flatMap (fun q => (q.2.parts.filter (fun p =>
    (match p.stage with | .fetch _ => true | .store _ => true | _ => false)
      && p.pas.any (fun a => isOuter peer a.1))).map (fun p => (q.1, p)))).head?

/-- A folio load of core c with a line, any of its image's, that is read from the host or from a peer (assumption 79). -/
def State.outerFolio (s : State) (c : Nat) (peer : Bool) : Option FLoad :=
  (s.core c).floads.find? (fun f =>
    match (s.core c).warps.find? f.warp with
    | none => false
    | some w =>
      match (s.core c).blocks.find? w.rix with
      | none => false
      | some b =>
        let va := f.addr + 128 * (Config.lostLine s.nonce % 121)
        match s.xrange c b.pasid va 1 false with
        | .ok l => f.lost.isNone && l.any (fun p => isOuter peer (p.2.2.phys p.1))
        | .miss _ => false)

/-- A completion error, or a loss on the links: a read that is still to land gives all ones, or a write that has not
been performed is dropped; the event is recorded. -/
def State.outerError (s : State) (c : Nat) (peer : Bool) : State :=
  let k := s.core c
  let note (a pasid : Nat) (s : State) : State := s.endpaper (quireOf c) 8 c (if peer then 1 else 0) a pasid
  let pasidOf (rix : Nat) : Nat := match k.blocks.find? rix with | some b => b.pasid | none => 0
  let pasidW (w : Nat) : Nat := match k.warps.find? w with | some x => pasidOf x.rix | none => 0
  match k.outerRead peer with
  | some (w, id, lane, ea, n) =>
    note ea (pasidW w) (s.modWarp c w (fun x => x.modResult id (fun r => r.lose peer lane n)))
  | none =>
    match k.wb.find? (fun e => isOuter peer e.addr) with
    | some e =>
      let s := s.modCore c (fun k => { k with wb := k.wb.erase e })
      let s := match e.kind with
        | .atom _ n lane id _ _ _ =>
          s.modWarp c e.warp (fun x =>
            (x.modResult id (fun r => { r.lose peer lane n with due := r.due - 1 })).hashDone lane id none)
        | _ => s
      note (e.addr % 2 ^ 64) (pasidW e.warp) s
    | none =>
      match k.outerPart peer with
      | none =>
        match s.outerFolio c peer with
        | some f =>
          let line := Config.lostLine s.nonce % 121
          note (f.addr + 128 * line) (pasidW f.warp) ((s.modCore c (fun k => { k with
            floads := k.floads.map (fun x => if x = f then { x with lost := some (peer, line) } else x) })).tickNonce)
        | none => s
      | some (slot, p) =>
        match k.copy.find? slot with
        | none => s
        | some q =>
          let bad (x : Nat × Nat) : Bool := isOuter peer x.1
          let dropped : CPart := { p with pas := p.pas.map (fun x => if bad x then (2 ^ 128, 2 ^ 128) else x) }
          note (((p.elems.zip p.pas).find? (fun x => bad x.2)).map (·.1.gbit / 8) |>.getD 0) (pasidOf q.rix)
            (match p.stage with
              | .fetch _ => s.partBack c slot q p bad
              | _ => s.putReq c slot { q with parts := q.parts.map (fun y => if y.id = p.id then dropped else y) })

/-! ## The press (R432, R433) -/

/-- The tick edge of a press asked for now. -/
def pressEdgeOf (time : Nat) : Nat := (time + 1000 + 35) / 36 * 36

/-- The press pin is asserted. -/
def State.pinAssert (s : State) : State :=
  let p := { s.press with pin := true }
  { s with press := if p.at_.isSome || p.pressed then p else { p with at_ := some (pressEdgeOf s.time), byPin := true } }

/-- The press pin is deasserted: a request by the pin is withdrawn, a press by the pin is released. -/
def State.pinDeassert (s : State) : State :=
  let p := { s.press with pin := false }
  { s with press :=
      if p.byPin && p.pressed then { p with releasing := true }
      else if p.byPin && p.at_.isSome then { p with at_ := none, byPin := false } else p }

/-- PRESSCTL.PRESS. -/
def State.pressAsk (s : State) : State :=
  if s.press.at_.isSome || s.press.pressed then s
  else { s with press := { s.press with at_ := some (pressEdgeOf s.time), byPin := false } }

/-- PRESSCTL.RELEASE. -/
def State.pressRelease (s : State) : State :=
  if s.press.pressed then { s with press := { s.press with releasing := true } } else s

/-- An endpaper event in the records of all four quires. -/
def State.endpaperAll (s : State) (code src a1 a2 a3 : Nat) : State :=
  (List.range 4).foldl (fun s q => s.endpaper q code src a1 a2 a3) s

/-- The press begins. -/
def State.pressBegin (s : State) : State :=
  ({ s with press := { s.press with at_ := none, pressed := true } } : State).endpaperAll 11 2047 0 s.time 0

/-- The press is released. -/
def State.pressEnd (s : State) : State :=
  ({ s with press := { s.press with pressed := false, releasing := false, byPin := false } } : State).endpaperAll 11 2047 1 s.time 0

/-! ## Boot and resets (R435 to R438, R442, R453) -/

/-- ATTCTL. -/
def offAtt : Nat := 0x3A060

/-- What has been written to the flash: it outlasts a loss of power (assumption 99). -/
def State.flash (s : State) : SMap W32 := s.ctl.filter (fun p => decide (offFlash ≤ p.1))

/-- The step at which the boot sequence ends in an error of a number; none (0) without one (R436, R438, R440). -/
def bootFails (err : Nat) : Nat := if err = 1 then 2 else err

/-- BOOTSTAT after the last step completed (R438); b: copy B is booted. -/
def bootStat (stage err : Nat) (b kept : Bool) : W32 :=
  BitVec.ofNat 32 (stage + (if b then 8 else 0) + (if kept then 16 else 0) + (if err = 0 then 0 else 32) + err * 2 ^ 8)

/-- BOOTSTAT as the boot sequence stands: the last step completed and its error. -/
def State.bootSet (s : State) (stage err : Nat) (kept : Bool) : State :=
  s.setCtl 0x3A000 (bootStat stage err (match s.boot.image with | some x => x.1 | none => false) kept)

/-- The boot sequence stops, or is complete: the host interface opens, in recovery mode after an error (R436, R438). -/
def State.bootEnd (s : State) (stage err : Nat) (kept : Bool) : State :=
  { s.bootSet stage err kept with boot := { s.boot with booting := none } }

/-- A step of the boot sequence is complete; after step 5 MEMKEPT says whether memory was kept. -/
def State.bootNext (s : State) (b : Booting) : State :=
  if 7 ≤ b.next then s.bootEnd 7 0 b.kept
  else { s.bootSet b.next 0 (b.kept && decide (5 ≤ b.next)) with boot := { s.boot with booting := some { b with next := b.next + 1 } } }

/-- The boot sequence goes on. -/
def State.bootDue (s : State) : Bool := s.boot.powered && !s.press.pressed && s.boot.booting.isSome

/-- The next step of the boot sequence: 3 selects the image, and 6 trains the links with the headband port (R436, R437, R453). -/
def State.bootStep (s : State) : State :=
  match s.boot.booting with
  | none => s
  | some b =>
    let s := if b.next = 6 ∧ Config.captureAttached s.boot.resets then s.setCtl offHbctl 2 else s
    if b.next = bootFails b.err then s.bootEnd (b.next - 1) b.err (b.kept && decide (6 ≤ b.next))
    else if b.next = 3 then
      match imageChosen (s.flash) with
      | none => s.bootEnd 2 3 false
      | some c => { s with boot := { s.boot with image := some (c, s.flash) } }.bootNext b
    else s.bootNext b

/-- The boot sequence begins at a step. -/
def State.bootBegin (s : State) (first err : Nat) (kept : Bool) : State :=
  let s := ({ s with boot := { s.boot with image := none, booting := some ⟨first, err, kept⟩ } } : State).setCtl offHbctl 0
  s.bootSet (first - 1) 0 false

/-- Power good: every state of the module is as after power-on, and the boot sequence runs from step 1, with the error number
of the step that fails (0: none). The top tree has a leaf for each of 32,768 power-ons (R440). The host's and the peers' memory is
not the module's. -/
def State.powerOn (s : State) (err : Nat) : State :=
  if s.boot.powered || 6 < err || err == 3 then s
  else
    let n := s.boot.count + 1
    let leaf := Config.leafAdvances n && decide (s.boot.leaf < 32768)
    ({ State.reset with
        mem := s.mem.filter (fun p => !isModule p.1), ctl := s.flash
        inbox := s.inbox, nonce := s.nonce, cfg := (false, false, false)
        press := { State.reset.press with pin := s.press.pin }
        boot := { s.boot with
          powered := true, count := n, noLeaf := !leaf, leaf := s.boot.leaf + (if leaf then 1 else 0), reports := 0
          signing := none, out := [], resets := s.boot.resets + 1 } } : State).bootBegin 1 err false

/-- The contents of module memory after a reset that did not keep them (assumption 20). -/
def lostMemory (n : Nat) (m : Memory) : Memory :=
  m.foldl (fun (acc : Memory) p => SMap.set 0 acc p.1 (if isModule p.1 then Config.lostByte n p.1 else p.2)) []

/-- A block that a warm module reset ends writes its status word, where its page has a translation in the module's tables
(R332, R435; assumption 78). -/
def State.statusNow (s : State) (b : Block) : State :=
  match s.grids.find? b.grid with
  | none => s
  | some g =>
    if !b.lr.bstat then s
    else
      match s.xlateNow schedCore g.pasid (b.lr.compl + 64 + 4 * b.bno) true with
      | .ok t =>
        if t.readOnly then s.endpaper g.quire 1 2047 cAccess.toNat (b.lr.compl + 64 + 4 * b.bno) g.pasid
        else s.write (t.phys (b.lr.compl + 64 + 4 * b.bno)) (wBytes b.status)
      | .error r =>
        if r = rHost then s
        else s.endpaper g.quire 1 2047 ((if r = rRefused then cAccess else cPageFault).toNat + 256 * r) (b.lr.compl + 64 + 4 * b.bno)
          g.pasid

/-- Every block of core c ends as a core reset ends it (R343, R435). -/
def State.endsAll (s : State) (c : Nat) : State :=
  if (s.core c).blocks.isEmpty then s
  else
    let s := s.coreReset c
    (s.core c).blocks.foldl (fun s b => s.statusNow b.2) s

/-- MRESET or a management command: every block ends, and boot steps 3 to 7 run again. A request for a report that is under
way ends without one (assumption 123), and while a boot is under way nothing happens (assumption 140). -/
def State.warmReset (s : State) (memKept : Bool) (err : Nat) : State :=
  if !s.boot.powered || s.boot.booting.isSome || 6 < err || (err != 0 && decide (err < 4)) then s
  else
    let kept := memKept && (err == 0 || err == 6) && (imageChosen s.flash).isSome
    let s := s.cores.foldl (fun s p => s.endsAll p.1) s
    ({ State.reset with
        mem := if kept then s.mem else lostMemory s.boot.resets s.mem
        ctl := (s.setCtl offAtt (s.ctlAt offAtt &&& 0xC)).ctl.filter (fun p => p.1 == 0xF000 || decide (0x3A000 ≤ p.1))
        inbox := s.inbox, nonce := s.nonce, rings := s.rings, cfg := s.cfg
        press := { State.reset.press with pin := s.press.pin }
        boot := { s.boot with signing := none, resets := s.boot.resets + 1 } } : State).bootBegin 3 err kept

/-- The module's supply is lost: nothing goes on, and seed, memory and endpaper record are gone (R440). -/
def State.losePower (s : State) : State :=
  { State.reset with
    mem := s.mem.filter (fun p => !isModule p.1), ctl := s.flash
    nonce := s.nonce, cfg := (false, false, false), press := { State.reset.press with pin := s.press.pin }
    boot := { s.boot with powered := false, signing := none, out := [], image := none, booting := none } }

/-! ## Attestation (R440, R441) -/

/-- GO: the request begins, unless one is under way. -/
def State.attestBegin (s : State) : State :=
  if s.boot.signing.isSome then s
  else
    let s := s.setCtl offAtt 2
    { s with boot := { s.boot with signing := some (s.time + Config.signDelay s.nonce) } }.tickNonce

/-- The 128 bytes of a report. -/
def State.report (s : State) : List Byte :=
  (List.range 8).flatMap (fun i => wBytes (s.ctlAt (0x3A040 + 4 * i)))
    ++ (List.range 8).flatMap (fun i => wBytes (s.boot.header (8 + i))) ++ wBytes (s.boot.header 1) ++ natBytes 4 s.boot.count
    ++ wBytes (s.boot.header 4) ++ wBytes (s.boot.header 5) ++ natBytes 8 s.time ++ natBytes 32 Config.identity.toNat ++ zeros 8

/-- The report is signed, or no leaf is left for it. -/
def State.attestEnd (s : State) : State :=
  let b := s.boot
  if b.noLeaf || 1024 ≤ b.reports then { (s.setCtl offAtt 8) with boot := { b with signing := none } }
  else
    { (s.setCtl offAtt 4) with
      boot := { b with
        signing := none, reports := b.reports + 1
        out := SMap.setMany 0 [] 0
          (s.report ++ (List.range 5236).map (Config.signature (1024 * b.count + b.reports))) } }

end Sys2Proof.Machine
end

