-- ==== Sys2Proof/Machine/Fetch.lean ====
section
/-! DEFINITION. Fetch from resident folios, the instruction that a path would issue next, what it would wait for, and
the choice of the SIMT decoder (R116, R122, R123, R126, R127). -/

namespace Sys2Proof.Machine

/-! ## Fetch (R122, R123) -/

/-- What the fetch of a path gives: an instruction with its words, a wait for a slot that is being loaded, or a
trap with its lanes. -/
inductive Fetched where
  | instr (i : Instr) (words : List W64)
  | wait
  | trap (cause : BitVec 8) (lanes : W32)
deriving DecidableEq, Repr

/-- The words of a folio from an offset on; none when the offset lies outside it. -/
def Folio.from (f : Folio) (pc : W32) : Option (List W64) :=
  if f.start ≤ pc.toNat ∧ pc.toNat < f.start + f.len then some (f.words.drop ((pc.toNat - f.start) / 8)) else none

/-- Read a path's next words from the folio store: in sequence only from the folio that held the instruction before,
after a transfer from any resident folio (R122). An offset that is in no resident folio while a slot of the block
is being loaded waits for the load (assumption 43). -/
def Block.fetchWords (b : Block) (p : Path) : Except Fetched (List W64) :=
  match p.home with
  | some sl =>
    if b.loading.contains sl then .error .wait
    else
      match (b.folio sl).bind (·.from p.pc) with
      | some l => .ok l
      | none => .error (.trap cFolioEnd p.mask)
  | none =>
    match (b.folios.filterMap (fun f => f.2.from p.pc)).head? with
    | some l => .ok l
    | none => if b.loading.isEmpty then .error (.trap cFolioMiss p.mask) else .error .wait

/-- The instruction of a warp's path. -/
def Block.fetch (b : Block) (p : Path) : Fetched :=
  match b.fetchWords p with
  | .error x => x
  | .ok [] => .trap cFolioEnd p.mask
  | .ok (w :: _) =>
    match decode w with
    | .ok i => .instr i [w]
    | .error _ => .trap cIllegalEncoding 0xFFFFFFFF

/-- The bundle at a strand's path: header and slots within one folio (R122). -/
def Block.fetchBundle (b : Block) (p : Path) : Fetched :=
  match b.fetchWords p with
  | .error x => x
  | .ok [] => .trap cFolioEnd p.mask
  | .ok (h :: l) =>
    if l.length < hdrSlots h then .trap cFolioEnd p.mask else .instr (.bundle h (l.take (hdrSlots h))) (h :: l.take (hdrSlots h))

/-- What a path of a warp would issue next. -/
def Core.fetch (k : Core) (w : Nat) (alt : Bool) : Fetched :=
  match k.warps.find? w with
  | none => .wait
  | some x =>
    match k.blocks.find? x.rix with
    | none => .wait
    | some b =>
      if x.bundled then
        (match b.fetchBundle x.pri with
          | .trap cause _ => .trap cause (match k.strand with | some t => ownedLanes t.clusters | none => 0)
          | y => y)
      else b.fetch (x.path alt)

/-- The guard of an instruction, as its word gives it. -/
def instrGuard (i : Instr) : Guard := guardOf ((encode i).headD 0)

/-- Issue an instruction for the selected issuer, by its meaning. -/
def runInstr (i : Instr) (s : State) : State :=
  match i with
  | .bundle h l => (match issueBundle h l s with | .next t => t | _ => s)
  | i => (match issue (costOf i) (instrGuard i) (slotBody i) s with | .next t => t | _ => s)

/-! ## What a parked path still waits for -/

/-- The wait that the instruction at a path meets now: none when it would go on. -/
def State.wouldWait (s : State) (c w : Nat) (alt : Bool) : Option Park :=
  match (s.core c).fetch w alt with
  | .instr i _ =>
    let t := runInstr i (({ s with sel := ⟨c, w, .path alt⟩ } : State).modPath c w alt (fun p => { p with park := none }))
    match (t.core c).warps.find? w with
    | some x => (x.path alt).park
    | none => none
  | .wait => some .fetch
  | .trap .. => none

/-! ## Selection by the SIMT decoder (R126) -/

/-- A path that the SIMT decoder can select: warp, slot, path, its class, issue cycles that its warp has waited. -/
structure Cand where
  warp : Nat
  alt : Bool
  path : Path
  cls : Nat
  wait : Nat

/-- The class of what a path would issue next (R54, R45). -/
def Core.nextClass (k : Core) (w : Nat) (alt : Bool) : Nat :=
  match k.fetch w alt with
  | .instr i _ => let x := (costOf i).cls; if (instrGuard i).tail.getLsbD 0 then min 3 (x + 1) else x
  | _ => 0

/-- Does the warp's block run? -/
def Core.warpRuns (k : Core) (w : Warp) : Bool :=
  match k.blocks.find? w.rix with | some b => b.runs | none => false

/-- Does a path of the warp go on with its instruction while its block is being halted: it has issued it and waits within it (R336)?
-/
def Core.warpEnds (k : Core) (w : Warp) (p : Path) : Bool :=
  match k.blocks.find? w.rix with | some b => b.dead.isNone && p.held.isSome | none => false

/-- A path of the warp has trapped and waits for its results: the other one is suspended (R159). -/
def Warp.trapping (w : Warp) : Bool :=
  let t (p : Path) : Bool := p.live && (match p.park with | some (.trap ..) => true | _ => false)
  t w.pri || t w.alt

/-- A path may issue as far as its warp goes: it is not parked, no switch marker or trap of the warp waits for results,
and no loop end is still to be taken. -/
def Warp.mayIssue (w : Warp) (p : Path) : Bool := p.live && p.park.isNone && !w.sw && w.edge.isNone && !w.trapping

/-- A path's next instruction is an FP64 FMA for which its lanes' float units are not yet free (R10; assumption 115). -/
def Core.fmaWaits (k : Core) (w : Nat) (alt : Bool) (x : Warp) : Bool :=
  match k.fetch w alt with
  | .instr (.ffma f) _ => f.mod == 3 && k.fmaBusy (k.pathLanes x.strand)
  | .instr (.fnma f) _ => f.mod == 3 && k.fmaBusy (k.pathLanes x.strand)
  | _ => false

/-- The ready paths of a core, in the order of the ties: ascending warp, primary first. A strand that owns every
cluster leaves only its own handler. -/
def Core.ready (k : Core) : List Cand :=
  (k.livePaths.filter (fun x => x.2.2.1.mayIssue x.2.2.2 && (k.warpRuns x.2.2.1 || k.warpEnds x.2.2.1 x.2.2.2)
      && (decide (0 < k.simtClusters) || x.2.2.1.strand)
      && k.fetch x.1 x.2.1 != .wait && !k.fmaWaits x.1 x.2.1 x.2.2.1)).map
    (fun x => ⟨x.1, x.2.1, x.2.2.2, k.nextClass x.1 x.2.1, x.2.2.1.wait⟩)

/-- The candidate whose warp has waited longest, the first of several. -/
def longest : List Cand → Option Cand
  | [] => none
  | x :: l =>
    match longest l with
    | none => some x
    | some y => if x.wait < y.wait then some y else some x

/-- The first that a choice finds among the candidates that have not yielded, else among those that have (R125). -/
def eagerFirst (choose : List Cand → Option Cand) (l : List Cand) : Option Cand :=
  match choose (l.filter (fun x => !x.path.yielded)) with
  | some x => some x
  | none => choose l

/-- The choice of the second and third rule of R126: a class not above the cycle's before any. -/
def byClass (cls : Nat) (l : List Cand) : Option Cand :=
  match longest (l.filter (fun x => decide (x.cls ≤ cls))) with
  | some x => some x
  | none => longest l

/-- The path that the SIMT decoder selects (R126): of a warp that has waited 32 issue cycles first; a path that has
yielded comes last, but a warp that has waited so long still issues (R125, R127; assumption 103). -/
def State.select (s : State) (c : Nat) : Option Cand :=
  let l := (s.core c).ready
  match eagerFirst longest (l.filter (fun x => decide (32 ≤ x.wait))) with
  | some x => some x
  | none => eagerFirst (byClass (s.cycleClass c)) l

/-! ## The hazard check (R422) -/

/-- Is a register read by the instruction in some lane: it would wait for it? -/
def Env.reads (e : Env) (i : Instr) (s : State) (isW : Bool) (reg : Nat) : Bool :=
  match slotBody i { e with probe := some (isW, reg) } s with
  | .error (.wait .interlock _) => true
  | _ => false

/-- The register code that names a register now: the inverse of the rotation (R144). -/
def unrotate (rb : W32) (reg : Nat) : Nat :=
  let base := (rb.extractLsb' 23 9).toNat
  let size := (rb.extractLsb' 14 9).toNat
  let rrb := (rb.extractLsb' 0 9).toNat
  if base ≤ reg ∧ reg < base + size then base + (reg - base + size - rrb) % size else reg

/-- The active lanes that read a v register pending in some lanes: a cross-lane source takes A from others (R40). -/
def hazardLanes (e : Env) (i : Instr) (pending : W32) : W32 :=
  let m : BitVec 12 := ((encode i).headD 0).extractLsb' 11 12
  let k : Nat := (((encode i).headD 0).extractLsb' 62 2).toNat
  if k < 2 && m.extractLsb' 10 2 != 0 then
    maskOf (fun l => e.act.getLsbD l && (pending.getLsbD l || pending.getLsbD (amodLane m 0 l)))
  else e.act &&& pending

/-- The findings of a warp instruction: register code, kind, lanes. -/
def hazardsOf (e : Env) (i : Instr) (s : State) : List (Nat × Nat × W32) :=
  let res := e.warp.results.flatMap (fun r =>
    let kind := if r.lock then 1 else 2
    match r.dest with
    | .v => r.regs.filterMap (fun x =>
        if e.reads i s false x then some (unrotate e.warp.rotbase x, kind, hazardLanes e i r.lanes) else none)
    | .w => r.regs.filterMap (fun x => if e.reads i s true x then some (384 + x, kind, e.act) else none)
    | _ => [])
  let low := match lowest e.path.mask with | some l => e.act.getLsbD l | none => false
  let off := if low then e.path.mask &&& ~~~e.act else e.path.mask &&& e.act
  res.filter (fun x => x.2.2 != 0) ++ (match i with
    | .braU f => if off = 0 then [] else [(f.g.pred.toNat, 3, off)]
    | _ => [])

end Sys2Proof.Machine
end

