-- ==== Sys2Proof/Machine/Tick.lean ====
section
/-! DEFINITION. The end of a core's cycle: what counts down, the scratchpad banks, the charges, the governor, the
watchdogs and the length of the cycle (R16, R128, R155, R168, R345, R376 to R379, R392, R393, R398, R402, R423). -/

namespace Sys2Proof.Machine

/-! ## Warps (R114, R126, R128, R155) -/

/-- A path after a cycle: its waits count. -/
def Path.tick (held : Bool) (p : Path) : Path :=
  if !p.live then p
  else
    let p := { p with age := p.age + 1 }
    match p.park with
    | some (.nop n) => if held then p else { p with park := some (.nop (n - 1)) }
    | some (.mode n) => if held then p else { p with park := some (.mode (n - 1)) }
    | _ => p

/-- A warp after a cycle. It has waited one issue cycle more, unless it has issued or has no path that may issue. -/
def Warp.tick (frozen strandFrozen issue issued : Bool) (w : Warp) : Warp :=
  { w with
    results := countResults (frozen || (w.bundled && strandFrozen)) w.results
    hand := w.hand.map (fun h => { h with snap := countResults true h.snap })
    pri := w.pri.tick (frozen || (w.bundled && strandFrozen)), alt := w.alt.tick frozen
    wait := if issued || !(w.mayIssue w.pri || w.mayIssue w.alt) then 0 else if issue then w.wait + 1 else w.wait }

/-- A path whose fetch waits for a folio parks for it. -/
def Core.parkFetch (k : Core) (n : Nat) (alt : Bool) (w : Warp) (p : Path) : Path :=
  if p.live && p.park.isNone && k.warpRuns w && k.fetch n alt == .wait then { p with park := some .fetch } else p

/-- The cycle is a frozen one of the core's strand: it issued nothing in it (R150). -/
def Core.strandStood (k : Core) : Bool := k.strandFrozen && !k.ck.named.any (·.1)

/-- The warps of a core after a cycle. -/
def Core.tickWarps (k : Core) (frozen : Bool) : KMap Warp :=
  let sf := k.strandStood
  let issued (n : Nat) : Bool := !k.ck.busy && k.ck.named.any (fun x => !x.1 && x.2.1 == n)
  k.warps.map (fun p =>
    let w := { p.2 with pri := k.parkFetch p.1 false p.2 p.2.pri, alt := k.parkFetch p.1 true p.2 p.2.alt }
    (p.1, w.tick frozen sf (!frozen && decide (0 < k.simtClusters)) (issued p.1)))

/-- A warp whose threads have all exited ends once its accesses have been performed (R139). -/
def State.warpEnds (s : State) (c w : Nat) (x : Warp) : Bool :=
  x.exited == 0xFFFFFFFF && x.results.isEmpty && x.hq.isEmpty && !s.atomicsDue c w s.nonce
    && (s.core c).wb.all (fun e => e.warp ≠ w) && s.qsubs.all (fun q => !(q.core == c && q.warp == w))
    && (match (s.core c).strand with | some t => t.warp ≠ w || t.deferred.isEmpty | none => true)

/-- A strand whose warp has ended is gone. The warp keeps its number, its record's place and its hash until its block ends (R139,
R330, R338, R428). -/
def State.endStrand (s : State) (c : Nat) : State :=
  match (s.core c).strand with
  | none => s
  | some t =>
    match (s.core c).warps.find? t.warp with
    | none => s
    | some x =>
      if s.warpEnds c t.warp x then
        (s.modWarp c t.warp (fun w => { w with strand := false })).modCore c (fun k => { k with strand := none })
      else s

/-! ## The scratchpad banks (R16, R168, R345, R423) -/

/-- The rank of a request for its bank in a cycle; the lowest is served. -/
def BankReq.rank (cycle : Nat) (w : BankReq) : Nat :=
  if w.port < 5 ∧ w.lost = some (cycle / 8) then 1
  else if w.port = 5 ∧ 8 ≤ w.wait then 2
  else if (cycle % 64 = 62 ∧ w.port = 6) ∨ (cycle % 64 = 63 ∧ w.port = 7) then 3
  else 4 + w.port

/-- The request that a bank serves: of lowest rank; of several of one rank, which R16 does not order (two words of one LS port,
remote accesses of several cores), the first to have asked: DESIGN CHOICE, assumption 109. -/
def bankWinner (cycle bank : Nat) : List BankReq → Option BankReq
  | [] => none
  | w :: l =>
    match bankWinner cycle bank l with
    | none => if w.delay = 0 ∧ w.word % 32 = bank then some w else none
    | some x => if w.delay = 0 ∧ w.word % 32 = bank ∧ w.rank cycle ≤ x.rank cycle then some w else some x

/-- Are two requests of a bank served together: they ask for the same word, and neither is an atomic (R168, R174)? -/
def BankReq.with (x w : BankReq) : Bool := x.word == w.word && (x == w || (decide (x.tag < 16) && decide (w.tag < 16)))

/-- The requests after a cycle: the word that a bank serves is served for all who ask for it, the others have
waited. -/
def serveBanks (cycle : Nat) (frozen : Bool) (l : List BankReq) : List BankReq :=
  let win := (List.range 32).map (fun b => bankWinner cycle b l)
  l.filterMap (fun w =>
    if w.delay ≠ 0 then some (if frozen then w else { w with delay := w.delay - 1 })
    else
      match win.getD (w.word % 32) none with
      | some x =>
        if x.with w then none
        else some { w with wait := w.wait + 1, lost := if w.port < 5 ∧ x.port = 5 then some (cycle / 8) else w.lost }
      | none => some w)

/-- The cells of the bank-conflict matrix after a cycle: one more for each requester and bank that waited. -/
def countConflicts (m : SMap W32) (l : List BankReq) : SMap W32 :=
  (List.range 256).foldl (fun m i =>
    if l.any (fun w => w.delay == 0 && decide (0 < w.wait) && w.port == i / 32 && w.word % 32 == i % 32) then
      SMap.set 0 m i (if SMap.get 0 m i == 0xFFFFFFFF then 0xFFFFFFFF else SMap.get 0 m i + 1)
    else m) m

/-! ## The engines (R270, R277, R280, R300, R398) -/

/-- The matrix engine is held in this cycle. -/
def State.mxHolds (s : State) (c : Nat) : Bool := s.frozen c || (s.core c).mxHeld

/-- A heavy operation stands at the head of engine order. -/
def Mx.headHeavy (m : Mx) : Bool := match m.queue with | x :: _ => x.heavy | [] => false

/-- The charge of the matrix engine in a cycle (R392). -/
def Mx.charge (m : Mx) : Nat :=
  (match m.cur with | some r => r.charge | none => 0)
    + (match m.reading with | some r => if r.asked && !r.held then 170 else 0 | none => 0)
    + (if m.filler = 0 then 0 else 10 * (15 - (16 - m.filler)))

/-- The matrix engine after a cycle; a heavy operation that can start abandons the fillers (R398). -/
def Mx.tick (m : Mx) (held stuck heavy : Bool) : Mx :=
  let m := { m with reset := if m.reset ≤ 1 then m.reset else m.reset - 1, dead := if stuck then m.dead + 1 else 0 }
  if held then m
  else
    { m with
      cur := m.cur.map (fun r => { r with left := r.left - 1 })
      reading := m.reading.map (fun r => if r.held || !r.asked then r else { r with age := r.age + 1 })
      filler := if heavy then 0 else m.filler - 1 }

/-- The copy and marbling engines hold: a precise stop that names them (R418). -/
def State.enginesHeld (s : State) (c : Nat) : Bool := (s.core c).obs.stopped && (s.stopctl c).getLsbD 3

/-! ## Charges (R392, R393) -/

/-- The marbling engine is in its run time (R300). -/
def Marble.runs (m : Marble) : Bool := match m.run with | some r => r.stage == .run | none => false

/-- The line that core c's copy engine moves is served in this cycle: none of its words is left at any bank (R392). -/
def State.lineServed (s : State) (c : Nat) : Bool :=
  let mine (w : BankReq) : Bool := w.port == 5 && w.src == c && w.tag == 0
  let k := s.core c
  k.ck.moving && !(serveBanks k.ck.cycle (s.frozen c) k.ck.words).any mine && s.cores.all (fun p => p.1 == c || !p.2.ck.words.any mine)

/-- The second line of a move that takes two is served in this cycle, one after the first (R214). -/
def State.secondServed (s : State) (c : Nat) : Bool :=
  let mine (w : BankReq) : Bool := w.port == 5 && w.src == c && w.tag == 4
  let k := s.core c
  k.ck.second && !k.ck.moving && !(serveBanks k.ck.cycle (s.frozen c) k.ck.words).any mine
    && s.cores.all (fun p => p.1 == c || !p.2.ck.words.any mine)

/-- The charges of the current cycle: core part and engine part. -/
def State.charges (s : State) (c : Nat) : Nat × Nat :=
  let k := s.core c
  (k.ck.coreCharge + (if s.mxHolds c then 0 else k.mx.charge),
    (if s.lineServed c || s.secondServed c then 4 else 0) + (if k.mar.runs && !s.enginesHeld c then 12 else 0))

/-- The sums of the last 63 cycles: all charges, and the core parts. -/
def Clock.window63 (k : Clock) : Nat × Nat :=
  ((k.window.map (fun p => p.1 + p.2)).foldl (· + ·) 0, (k.window.map (·.1)).foldl (· + ·) 0)

/-! ## The watchdogs (R402, R403) -/

/-- The cycle leaves both hang counters as they are. -/
def State.hangKept (s : State) (c : Nat) : Bool :=
  let k := s.core c
  k.ck.stalled || k.gov.set || k.walks.any (fun w => w.stage != 0) || k.mx.filler != 0 || k.mx.reset != 0
    || (k.mx.headHeavy && k.mx.idle && !s.mayLight c)

/-- The mark of a core hang counter that has fired and waits for progress (R404). -/
def hangFired : Nat := 2 ^ 33

/-- The core hang counter after a cycle. -/
def State.hangNext (s : State) (c : Nat) : Nat :=
  let k := s.core c
  if k.ck.progress then 0
  else if k.gov.hang = hangFired || s.hangKept c then k.gov.hang
  else if k.blocks.isEmpty then 0 else k.gov.hang + 1

/-- The MX hang counter after a cycle. -/
def State.mxhangNext (s : State) (c : Nat) : Nat :=
  let k := s.core c
  let at_ := (match k.mx.cur with | some r => r.entry.instr.isSome | none => false) || k.mx.reading.isSome
    || (match k.mx.queue with | x :: _ => x.instr.isSome | [] => false)
  let pending := at_ || k.mx.queue.any (fun x => x.instr.isSome)
  if k.ck.mxProgress then 0
  else if s.hangKept c then k.gov.mxhang
  else if !pending then 0
  else if s.mxHolds c || !at_ then k.gov.mxhang else k.gov.mxhang + 1

/-! ## The length of a cycle (R379) -/

/-- Ticks of a cycle of class A to D at an operating point. -/
def cycleTicks (op cls : Nat) : Nat :=
  ((([[30, 36, 45, 60], [24, 29, 36, 48], [20, 24, 30, 40], [17, 21, 26, 34], [15, 18, 23, 30], [13, 16, 20, 26],
    [11, 14, 17, 22], [10, 12, 15, 20]] : List (List Nat)).getD op []).getD cls 30)

/-- The tick edge at which the current cycle ends: the alignment cycle ends at the release edge (R164). -/
def State.cycleEnd (s : State) (c : Nat) : Nat :=
  let k := s.core c
  match k.ck.aligning, k.ck.align with
  | true, some (_, t) => t
  | _, _ => k.ck.edge + cycleTicks k.gov.run (s.cycleClass c)

/-! ## The end of the cycle -/

/-- Issues of the cycle that a MODE 2 stop counts (R417): the first SIMT entry of a later span cycle is old. -/
def State.stopCounts (s : State) (c : Nat) : Nat :=
  let k := s.core c
  let ctl := s.stopctl c
  let wi := ctl.getLsbD 13
  let mine (x : Bool × Nat × Bool × W32) : Bool :=
    x.1 != wi && x.2.2.2 == s.ctlAt (offObs c + 0xC)
      && (match k.warps.find? x.2.1 with | some w => w.rix == (ctl.extractLsb' 8 5).toNat | none => false)
  let l := k.ck.named.filter mine
  l.length - (if wi && k.ck.busy then min 1 l.length else 0)

/-- The cycle of core c ends: everything counts, and the next cycle begins at its edge. -/
def State.endCycle (s : State) (c : Nat) : State :=
  let k := s.core c
  let frozen := s.frozen c
  let ch := s.charges c
  let cyc := k.ck.cycle
  let words := serveBanks cyc frozen k.ck.words
  let counts := k.obs.armed && (s.stopctl c).extractLsb' 0 2 == 2
  let k' : Core := { k with
    warps := k.tickWarps frozen
    mx := k.mx.tick (s.mxHolds c) k.accStuck (s.heavyReady c)
    mar := { k.mar with run := k.mar.run.map (fun r => if s.enginesHeld c || r.stage != .run then r else { r with ran := r.ran + 1 }) }
    obs := { k.obs with
      bcm := if words.all (fun w => w.wait = 0) then k.obs.bcm else countConflicts k.obs.bcm words
      count := if counts then k.obs.count + s.stopCounts c else k.obs.count
      sampled := false }
    gov := { k.gov with hang := s.hangNext c, mxhang := s.mxhangNext c }
    ck := { k.ck with
      cycle := (cyc + 1) % 2 ^ 64
      gstall := if k.ck.stalled then (k.ck.gstall + 1) % 2 ^ 64 else k.ck.gstall
      edge := s.cycleEnd c
      stage := .start
      named := if k.ck.span.isEmpty then [] else k.ck.named.filter (fun x => !x.1)
      words := words
      exec := if frozen then k.ck.exec
        else (k.ck.exec.map (fun x => if x.1 && k.strandStood then x else (x.1, x.2.1, x.2.2 - 1))).filter (fun x => x.2.2 != 0)
      fma := if frozen then k.ck.fma else (k.ck.fma.map (fun x => (x.1, x.2 - 1))).filter (fun x => x.2 != 0)
      window := ch :: k.ck.window.take 62
      coreCharge := 0, moving := k.ck.moving && !s.lineServed c, second := k.ck.second && !s.secondServed c
      eacc := k.ck.eacc + BitVec.ofNat 64 (ch.1 + ch.2)
      stalled := false, aligning := false, busy := false, moved := false, progress := false, mxProgress := false } }
  ((s.putCore c k'.govEdge).endStrand c).stopEdge c

/-! ## What the decoders do in a cycle -/

/-- A decoder's next act: an instruction to execute for an issuer, or a change of the state. -/
inductive Act where
  | run (i : Instr) (s : State)
  | move (s : State)

/-- The strand may issue its next bundle: nothing holds it. -/
def State.strandMay (s : State) (c : Nat) (t : Strand) (w : Warp) : Bool :=
  t.st == .run && w.bundled && w.pri.live && w.pri.park.isNone && ((s.core c).warpRuns w || (s.core c).warpEnds w w.pri) && !(s.core c).obs.stopped
    && (s.core c).obs.bkpt.isNone && w.edge.isNone && !(s.core c).ck.lined

/-- The start of a cycle: a frozen core does nothing, an alignment cycle lasts to the release edge, else the strand
issues a bundle or has none to issue. -/
def State.strandAct (s : State) (c : Nat) : Act :=
  let k := s.core c
  if k.ck.last then .move (s.modClock c (fun x => { x with aligning := true, stage := .done }))
  else
    if s.frozen c then .move (s.setStage c .done)
    else
      match k.strand with
      | none => .move (s.setStage c .simt)
      | some t =>
        match k.warps.find? t.warp with
        | none => .move (s.setStage c .simt)
        | some w =>
          if s.strandMay c t w then
            match k.fetch t.warp false with
            | .instr i _ => .run i { s with sel := ⟨c, t.warp, .core⟩ }
            | .wait => .move (s.bundleWait c t.warp .fetch)
            | .trap cause lanes => .move ((s.takeTrap c t.warp false cause w.pri.pc lanes).setStage c .simt)
          else .move (s.setStage c .simt)

/-- The SIMT decoder's turn: a later cycle of a processing span, or the path that it selects. -/
def State.simtAct (s : State) (c : Nat) : Act :=
  let k := s.core c
  match k.ck.span with
  | x :: l =>
    .move (s.modClock c (fun k => { k with coreCharge := k.coreCharge + x, span := l, busy := true, stage := .done }))
  | [] =>
    if k.obs.bkpt.isSome || k.ck.lined then .move (s.setStage c .done)
    else
      match s.select c with
      | none => .move (s.setStage c .done)
      | some x =>
        match k.fetch x.warp x.alt with
        | .instr i _ => .run i { s with sel := ⟨c, x.warp, .path x.alt⟩ }
        | .wait => .move (s.setStage c .done)
        | .trap cause lanes => .move ((s.takeTrap c x.warp x.alt cause x.path.pc lanes).setStage c .done)

/-- The findings of the hazard check on an instruction that has issued (R422): before is the state at its issue. -/
def State.hazAfter (s before : State) (i : Instr) : State :=
  let c := before.sel.core
  let w := before.sel.warp
  match i, before.sel.who with
  | .bundle _ _, _ => s
  | i, .path alt =>
    if (s.core c).ck.named.any (fun x => !x.1 && x.2.1 == w && x.2.2.1 == alt) then
      if before.obsBit c 5 then
        match before.env (instrGuard i) with
        | none => s
        | some e => (hazardsOf e i before).foldl (fun t x => t.hazard c w (e.blk.abs e.pc) x.1 x.2.1 x.2.2) s
      else s
    else s
  | _, _ => s

/-- Carry out an act with the meanings themselves. -/
def Act.carry : Act → State
  | .run i s => (runInstr i s).hazAfter s i
  | .move s => s

end Sys2Proof.Machine
end

