-- ==== Sys2Proof/Machine/EventsWarp.lean ====
section
/-! DEFINITION. Events of warps and strands: results that land, waits that end, loops, merges, folios, collapse and
expansion, faults of strands, traps, and the kettle lines (R120, R126, R128, R133, R142, R146, R148, R151, R156, R158,
R159, R163, R164, R169, R180). Each event is due under a condition on the state and does nothing otherwise. -/

namespace Sys2Proof.Machine

/-! ## When events happen -/

/-- The module runs: it has power and has booted, and is not pressed (R432, R436, R440). -/
def State.goes (s : State) : Bool := s.boot.powered && !s.press.pressed && s.boot.booting.isNone

/-- Core c stands at the beginning of a cycle that has come. -/
def State.begun (s : State) (c : Nat) : Bool :=
  s.goes && (s.core c).ck.stage == .start && decide ((s.core c).ck.edge ≤ s.time)

/-- The live paths of a core, those of its strand included: warp, alternate, the warp, the path. -/
def Core.allPaths (k : Core) : List (Nat × Bool × Warp × Path) :=
  k.warps.flatMap (fun w =>
    (if w.2.pri.live then [(w.1, false, w.2, w.2.pri)] else []) ++ (if w.2.alt.live then [(w.1, true, w.2, w.2.alt)] else []))

/-- The first live path of a running block for which p holds. -/
def Core.findPath (k : Core) (p : Nat → Bool → Warp → Path → Bool) : Option (Nat × Bool × Warp × Path) :=
  k.allPaths.find? (fun x => (k.warpRuns x.2.2.1 || (x.2.2.2.done != 0 && k.warpEnds x.2.2.1 x.2.2.2)) && p x.1 x.2.1 x.2.2.1 x.2.2.2)

/-- The first live path for which p holds, of a block that runs or is being halted: what it has begun ends (R336). -/
def Core.findEnding (k : Core) (p : Nat → Bool → Warp → Path → Bool) : Option (Nat × Bool × Warp × Path) :=
  k.allPaths.find? (fun x => (match k.blocks.find? x.2.2.1.rix with | some b => b.dead.isNone | none => false)
    && p x.1 x.2.1 x.2.2.1 x.2.2.2)

/-! ## Results (R128, R151) -/

/-- A stop or a snapshot keeps the results of a warp back (R156, R418). -/
def Core.captured (k : Core) (w : Warp) : Bool :=
  k.stopAll || (w.bundled && (k.obs.stopped || (match k.strand with | some t => t.snapped | none => false)))

/-- The result of a list that was issued first. -/
def firstIssued : List Result → Option Result
  | [] => none
  | r :: l =>
    match firstIssued l with
    | some x => if x.id < r.id then some x else some r
    | none => some r

/-- The result that lands now, interlocked or not, of the first warp of core c whose next one is such: of several that are
ready in a warp the one issued first, so that the last to issue stays (R129). -/
def Core.landing (k : Core) (lock : Bool) : Option (Nat × Result) :=
  (k.warps.filterMap (fun w =>
    if k.captured w.2 then none
    else (firstIssued (w.2.results.filter Result.ready)).bind (fun r => if r.lock == lock then some (w.1, r) else none))).head?

/-- A result leaves its warp's list and is written. -/
def State.landOne (s : State) (c : Nat) (x : Nat × Result) : State :=
  ((s.modWarp c x.1 (fun w => { w with results := w.results.erase x.2 })).land c x.1 x.2).progress c

/-- RESULT_LANDS is due. -/
def State.resultDue (s : State) (c : Nat) : Bool := s.begun c && ((s.core c).landing false).isSome

/-- A fixed-latency result lands (R128). -/
def State.resultLands (s : State) (c : Nat) : State :=
  match (s.core c).landing false with | some x => s.landOne c x | none => s

/-! ## Accesses of a strand that waited for a translation (R158, R355) -/

/-- What each lane of a deferred access meets now. -/
def State.deferredMeets (s : State) (c : Nat) (t : Strand) (a : Access) (rix : Nat) : List (LaneAcc × Meets) :=
  let pasid := match (s.core c).blocks.find? rix with | some b => b.pasid | none => 0
  if a.space = 0 then a.lanes.map (fun l => (l, s.meetGlobal c pasid a.kind a.n l.lane l.ea t.faults)) else []

/-- The deferred access of core c's strand whose turn it is, with what its lanes meet, when no walk for it is under way: the
first that does not stay until the strand resumes. An ARRIVE meets nothing any more. -/
def State.deferredHead (s : State) (c : Nat) : Option (Strand × Deferred × List (LaneAcc × Meets)) :=
  match (s.core c).strand with
  | some t =>
    if (s.core c).walks.any (fun w => w.who.contains .strand) then none
    else
      match t.deferred.find? (fun d => !t.stays d) with
      | some d => some (t, d, s.deferredMeets c t d.acc d.rix)
      | none => none
  | none => none

/-- Does the access meet a fault or a violation? -/
def meetsTrap (l : List (LaneAcc × Meets)) : Bool := l.any (fun p => match p.2 with | .trap .. => true | _ => false)

/-- The deferred access may be performed as far as the accesses before it go (R179, R203). -/
def State.deferredFree (s : State) (c : Nat) (t : Strand) (a : Access) (l : List (LaneAcc × Meets)) : Bool :=
  (!lsSc (meetsPlaces l) || s.performed c t.warp a.id true) && (!a.rel || s.performed c t.warp a.id false)
    && !(meetsPlaces l).any (fun p => s.homeFirst c t.warp a.id a p.2)

/-- The access has met a fault that is kept until the strand resumes, since it is stopped by snapshot; or it is to an SC page
and stands behind one that is kept (R203). -/
def Strand.keepsFault (t : Strand) (stopped : Bool) (d : Deferred) (l : List (LaneAcc × Meets)) : Bool :=
  (t.snapped || stopped) && meetsMissing l == []
    && (meetsTrap l || (lsSc (meetsPlaces l) && t.deferred.any (fun x => x.redo && decide (x.acc.id < d.acc.id))))

/-- The deferred access can go on: ask for pages anew, be performed, also into a snapshot, or be kept with its fault to be
performed again (R156, R158). -/
def State.deferredDue (s : State) (c : Nat) : Bool :=
  match s.deferredHead c with
  | some (t, d, l) =>
    meetsMissing l != [] || t.keepsFault (s.core c).obs.stopped d l
      || (!meetsTrap l && decide (lsLines (meetsPlaces l) ≤ (s.core c).freeEntries) && s.deferredFree c t d.acc l)
  | none => false

/-- Process a block belongs to: the PASID of its translations. -/
def State.pasidOf (s : State) (c rix : Nat) : Nat :=
  match (s.core c).blocks.find? rix with | some b => b.pasid | none => 0

/-- Load the last-page registers of the lanes of a deferred access that are translated (R353, R355). -/
def State.deferredLprs (s : State) (c : Nat) (d : Deferred) : State :=
  d.acc.lanes.foldl (fun s x =>
    match (s.core c).lookup x.lane (s.pasidOf c d.rix) x.ea d.acc.kind.writes with
    | some y => s.loadLpr c x.lane y
    | none => s) s

/-- An ARRIVE that followed a strand's accesses goes to the write buffer, when its object is still there (R190). -/
def State.arriveLater (s : State) (c w : Nat) (d : Deferred) : State :=
  match d.acc.lanes, (s.core c).blocks.find? d.rix with
  | x :: _, some b =>
    match s.scratchPlace c b.grid d.rix d.acc.space 16 x.ea with
    | some p => s.wbPush c w 0 (.arrive p.1 p.2.1 p.2.2 (x.data.headD 0).toNat) true
    | none => s
  | _, _ => s

/-- A deferred access is performed: its translations are held, and its result takes its entries (R180, R355). -/
def State.deferredRun (s : State) (c : Nat) (t : Strand) (d : Deferred) (l : List (LaneAcc × Meets)) : State :=
  let at_ := meetsPlaces l
  let rel := match (s.core c).warps.find? t.warp with | some w => w.relSeq != 0 | none => false
  let s := (s.deferredLprs c d).modWarp c t.warp (fun w => w.modResult d.acc.id (fun r => { r with lines := lsLines at_ }))
  let s := (s.modStrand c (fun t => { t with deferred := t.deferred.erase d, faults := [] })).perform c t.warp d.acc at_ rel
  if d.acc.space ≠ 0 then s.arriveLater c t.warp d
  else if scWaits d.acc.kind at_ then
    s.modPath c t.warp false (fun p => if p.park.isNone && !t.snapped then { p with park := some (.sc s.nonce) } else p)
  else s

/-- The deferred access asks for its missing pages, is kept with its fault, or is performed. -/
def State.deferredStep (s : State) (c : Nat) : State :=
  match s.deferredHead c with
  | none => s
  | some (t, d, l) =>
    if meetsMissing l != [] then s.startWalks c (s.pasidOf c d.rix) d.acc.kind.writes false .strand (meetsMissing l)
    else if t.keepsFault (s.core c).obs.stopped d l then
      s.modStrand c (fun t => { t with
        deferred := t.deferred.map (fun x =>
          if x = d then (if meetsTrap l then { x with redo := true } else { x with acc := { x.acc with rel := true } }) else x)
        faults := [] })
    else s.deferredRun c t d l

/-- INTERLOCKED_RESULT_RETURN is due: a result, or a strand's access whose translation has returned. -/
def State.interlockedDue (s : State) (c : Nat) : Bool :=
  s.begun c && (((s.core c).landing true).isSome || s.deferredDue c)

/-- An interlocked result lands (R151); an access that waited for its translation is performed (R355). -/
def State.interlockedReturn (s : State) (c : Nat) : State :=
  match (s.core c).landing true with
  | some x => s.landOne c x
  | none => s.deferredStep c

/-! ## Waits that end (R126, R169, R180) -/

/-- The first path parked on an absent line whose lines are now present (R169). -/
def State.presentPath (s : State) (c : Nat) : Option (Nat × Bool × Warp × Path) :=
  (s.core c).findPath (fun w alt _ p => p.park == some .presence && s.wouldWait c w alt != some .presence)

/-- LINE_PRESENT is due. -/
def State.lineDue (s : State) (c : Nat) : Bool := s.begun c && (s.presentPath c).isSome

/-- A path goes on with the instruction that it waits at. -/
def State.wakeFound (s : State) (c : Nat) (x : Option (Nat × Bool × Warp × Path)) : State :=
  match x with
  | some (w, alt, _, _) => s.wake c w alt
  | none => s

/-- The first path whose access now finds enough outstanding-request entries (R180). -/
def State.entriesPath (s : State) (c : Nat) : Option (Nat × Bool × Warp × Path) :=
  (s.core c).findPath (fun _ _ _ p =>
    match p.park with | some (.requests n) => decide (n ≤ (s.core c).freeEntries) | _ => false)

/-- REQUEST_ENTRY_FREE is due. -/
def State.entryDue (s : State) (c : Nat) : Bool := s.begun c && (s.entriesPath c).isSome

/-- Is the wait of a path over, by nothing but the state itself? Waits that another event ends do not count. -/
def State.waitOver (s : State) (c w : Nat) (alt : Bool) (x : Warp) (r : Park) : Bool :=
  let k := s.core c
  match r with
  | .switch => x.results.isEmpty
  | .flags => !x.results.any (fun r => r.unit == 1 || r.unit == 2)
  | .translate => !k.walks.any (fun y => y.who.contains (.path w alt))
  | .kick => s.wouldWait c w alt != some .kick
  | .token => s.wouldWait c w alt != some .token
  | .mode n => n == 0
  | .nop n => n == 0
  | .fence seq drain => s.performed c w seq drain
  | .sc seq => s.performed c w seq true
  | .engines => k.enginesDone w (x.path alt).mask
  | .domset => !k.syncWaiting
  | .fetch => k.fetch w alt != .wait
  | .eret => x.results.isEmpty && (x.snapLanded k || x.keepsPc k)
  | .interlock => s.wouldWait c w alt != some .interlock
  | .capacity => s.wouldWait c w alt != some .capacity
  | .fma => s.wouldWait c w alt != some .fma
  | .home => s.wouldWait c w alt != some .home
  | .mx => k.mx.reset == 0 && !k.mx.queue.any (fun x => x.instr.isSome && x.warp == w && x.alt == alt)
  | _ => false

/-- The first path whose wait is over. -/
def State.readyPath (s : State) (c : Nat) : Option (Nat × Bool × Warp × Path) :=
  (s.core c).findEnding (fun w alt x p =>
    match p.park with
    | some r => ((s.core c).warpRuns x || !r.abandons || p.done != 0) && s.waitOver c w alt x r
    | none => false)

/-- The first warp whose switch marker is over: every outstanding result has landed (R128). -/
def Core.switched (k : Core) : Option Nat := (List.find? (fun w : Nat × Warp => w.2.sw && w.2.results.isEmpty) k.warps).map (·.1)

/-- WARP_READY is due. -/
def State.readyDue (s : State) (c : Nat) : Bool := s.begun c && ((s.readyPath c).isSome || ((s.core c).switched).isSome)

/-- A parked path becomes ready: it goes on at its instruction, or after it, and after an access to an SC page with the
acquire of its fence (R203); or a warp's switch marker is over. -/
def State.warpReady (s : State) (c : Nat) : State :=
  match s.readyPath c, (s.core c).switched with
  | some (w, alt, _, p), _ =>
    match p.park with
    | some r =>
      let s := match r with | .sc _ => s.acquire c 5 | _ => s
      if r.after then s.resume c w alt else s.wake c w alt
    | none => s
  | none, some w => s.modWarp c w (fun x => { x with sw := false })
  | none, none => s

/-! ## Loops (R142, R143) -/

/-- The warp of core c that has issued the last of a loop's body. -/
def Core.edgeWarp (k : Core) : Option (Nat × Warp × Bool) :=
  (k.warps.filterMap (fun w => w.2.edge.map (fun a => (w.1, w.2, a)))).head?

/-- LOOP_BACK_EDGE is due. -/
def State.edgeDue (s : State) (c : Nat) : Bool := s.goes && ((s.core c).edgeWarp).isSome

/-- The innermost loop of a warp goes back or closes; a pipelined one rotates, and of another the executions still to start
count down (R142; assumptions 104, 119). When it closes, an outer loop that ends at the same instruction is next. -/
def State.warpEdge (s : State) (c w : Nat) (x : Warp) (alt : Bool) : State :=
  let x := { x with edge := none }
  match x.loops with
  | [] => s.modWarp c w (fun _ => x)
  | l :: rest =>
    let r := if l.pipe then x.rotateWith 0xFFFFFFFF (l :: rest) else (x, { l with k := l.k - 1 } :: rest)
    match r.2 with
    | [] => s
    | m :: _ =>
      if 1 < m.e then
        s.modWarp c w (fun _ => { (r.1.modPath alt (fun p => p.jump m.q)) with loops := { m with e := m.e - 1 } :: rest })
      else (s.modWarp c w (fun _ => { r.1 with loops := rest, edge := if rest.head?.any (fun o => o.stop == l.stop) then some alt else none })).loopClosed c

/-- The innermost loop of a strand goes back or closes; its bundles rotate by themselves. -/
def State.strandEdge (s : State) (c w : Nat) (t : Strand) : State :=
  let s := s.modWarp c w (fun x => { x with edge := none })
  match t.loops with
  | [] => s
  | l :: rest =>
    if 1 < l.e then
      (s.modStrand c (fun t => { t with loops := { l with e := l.e - 1, k := if l.pipe then l.k else l.k - 1 } :: rest })).modPath c w false (fun p => p.jump l.q)
    else (s.modStrand c (fun t => { t with loops := rest })).loopClosed c

/-- A loop decrements or closes. -/
def State.backEdge (s : State) (c : Nat) : State :=
  match (s.core c).edgeWarp with
  | none => s
  | some (w, x, alt) =>
    match x.bundled, (s.core c).strand with
    | true, some t => s.strandEdge c w t
    | _, _ => s.warpEdge c w x alt

/-! ## Reconvergence (R133) -/

/-- The first warp of core c with something to merge. -/
def Core.mergeWarp (k : Core) : Option (Nat × Warp) :=
  (k.warps.filterMap (fun w =>
    if w.2.bundled || w.2.edge.isSome || w.2.trapping || !k.warpRuns w.2 then none
    else w.2.mergeStep.map (fun y => (w.1, y)))).head?

/-- RECONVERGE_MERGE is due. -/
def State.mergeDue (s : State) (c : Nat) : Bool := s.goes && !(s.core c).stopAll && ((s.core c).mergeWarp).isSome

/-- One step of R133. -/
def State.mergeOne (s : State) (c : Nat) : State :=
  match (s.core c).mergeWarp with
  | some (w, y) => s.modWarp c w (fun _ => y)
  | none => s

/-! ## Folio loads, collapse, expansion (R120, R146, R148) -/

/-- FOLLD_COMPLETE is due. -/
def State.folldDue (s : State) (c : Nat) : Bool := s.begun c && ((s.core c).folldReady s.time).isSome

/-- A folio load goes on or ends. -/
def State.folldDone (s : State) (c : Nat) : State :=
  match (s.core c).folldReady s.time with
  | some f => s.folldStep c f
  | none => s

/-- No processing span of a warp instruction lies on the clusters that a collapsing path asks for: those from the highest
down (R12, R146). -/
def Core.spanClear (k : Core) (p : Path) : Bool :=
  k.ck.span.isEmpty || (match p.park with | some (.collapse n _) => decide (k.ck.spanOn + n ≤ 4) | _ => true)

/-- The path whose collapse can complete: its results have landed, its accesses have been performed, and no strand
and no processing span hold the clusters. Of several the lowest warp's (assumption 126). -/
def State.collapsing (s : State) (c : Nat) : Option (Nat × Bool × Warp × Path) :=
  (s.core c).findPath (fun w _ x p =>
    (match p.park with | some (.collapse ..) => true | _ => false)
      && x.results.isEmpty && s.performed c w s.nonce true && (s.core c).strand.isNone && (s.core c).spanClear p)

/-- COLLAPSE_COMPLETE is due. -/
def State.collapseDue (s : State) (c : Nat) : Bool := s.begun c && (s.collapsing c).isSome

/-- The warp becomes the core's strand (R146, R147). -/
def State.collapse (s : State) (c : Nat) : State :=
  match s.collapsing c with
  | some (w, _, _, p) =>
    match p.park with
    | some (.collapse n entry) =>
      (s.modWarp c w (fun x => { x with
        strand := true, alt := Path.none, pri := { (p.jump entry) with park := some (.mode 4), ptail := 0 } })).modCore c
        (fun k => { k with strand := some ⟨w, n, .run, [], [], [], [], [], 0, false, (0, 0)⟩ })
    | _ => s
  | none => s

/-- The expanding strand with nothing left in flight. -/
def State.expanding (s : State) (c : Nat) : Option Strand :=
  match (s.core c).strand with
  | some t =>
    match (s.core c).warps.find? t.warp with
    | some x =>
      if t.expands && x.results.isEmpty && t.deferred.isEmpty && s.performed c t.warp s.nonce true
          && ((s.core c).warpRuns x || (s.core c).blocks.any (fun b => b.1 == x.rix && b.2.dead.isNone))
          && x.edge.isNone && !(s.core c).obs.stopped then some t else none
    | none => none
  | none => none

/-- EXPAND_COMPLETE is due. -/
def State.expandDue (s : State) (c : Nat) : Bool := s.begun c && (s.expanding c).isSome

/-- The clusters return to the warp, which issues 4 cycles after the last of the strand (R148): the cycle of MODE.EXPAND
itself counts when nothing was in flight then. -/
def State.expand (s : State) (c : Nat) : State :=
  match s.expanding c with
  | some t =>
    (s.modWarp c t.warp (fun x => { x with
      strand := false
      pri := { (Path.none.jump t.cont) with live := true, mask := ~~~x.exited, park := some (.mode (if t.st == .expand true then 3 else 4)) } })).modCore c
      (fun k => { k with strand := none })
  | none => s

/-! ## Strands: faults and snapshots (R156, R158) -/

/-- STRAND_FAULT_FREEZE is due: a deferred access of a running strand has met a fault. -/
def State.faultDue (s : State) (c : Nat) : Bool :=
  s.begun c && !(s.core c).obs.stopped &&
    (match s.deferredHead c with
      | some (t, d, l) =>
        !t.snapped && meetsTrap l && meetsMissing l == []
          && (match (s.core c).blocks.find? d.rix, (s.core c).warps.find? t.warp with
            | some b, some x => b.runs && x.edge.isNone
            | _, _ => false)
      | none => false)

/-- The strand freezes by snapshot at the bundle boundary and its handler runs, with %trappc at the bundle of the access;
the access stays to be performed again (R158, R160, R357). -/
def State.strandFault (s : State) (c : Nat) : State :=
  match s.deferredHead c with
  | some (t, d, l) =>
    match firstCause (l.map (fun p => (p.1.lane, p.2))) with
    | some (cause, lanes) =>
      ((faultEvent c (s.pasidOf c d.rix) cause l (s.deferredLprs c d)).modStrand c (fun t => { t with
        deferred := t.deferred.map (fun x => if x = d then { x with redo := true } else x), faults := [] })).takeTrap
        c t.warp false cause d.pc lanes
    | none => s
  | none => s

/-- STRAND_SNAPSHOT_RESUME is due: the strand is to be resumed, and its block runs. -/
def State.snapDue (s : State) (c : Nat) : Bool :=
  s.begun c &&
    (match (s.core c).strand with
      | some t =>
        (t.st == .resume || t.st == .resumeExpand) && !(s.core c).obs.stopped
          && (match (s.core c).warps.find? t.warp with | some x => (s.core c).warpRuns x | none => false)
      | none => false)

/-- The strand resumes; its captured results land after what remains of their latencies, and accesses that met a fault
are performed again. -/
def State.snapResume (s : State) (c : Nat) : State :=
  s.modStrand c (fun t => { t.again with st := if t.st == .resumeExpand then .expand false else .run })

/-! ## Traps (R159, R162) -/

/-- The path whose trap waited for results that have now landed. -/
def Core.trapPath (k : Core) : Option (Nat × Bool × Warp × Path) :=
  k.findEnding (fun _ _ x p =>
    (match p.park with | some (.trap ..) => true | _ => false) && (x.results.isEmpty || x.bundled) && x.edge.isNone
      && !k.captured x)

/-- TRAP_ENTRY is due. -/
def State.trapDue (s : State) (c : Nat) : Bool := s.begun c && ((s.core c).trapPath).isSome

/-- The warp enters its handler; after TRAP and BKPT %trappc names where the path has gone (R153, R160). -/
def State.trapEntry (s : State) (c : Nat) : State :=
  match (s.core c).trapPath with
  | some (w, alt, _, p) =>
    match p.park with
    | some (.trap cause pc lanes) =>
      (s.modPath c w alt (fun p => { p with park := none, ptail := 0 })).enterTrap c w alt cause
        (if trapsAfter cause then p.pc else pc) lanes
    | _ => s
  | none => s

/-- The code of an asynchronous cause (R55). -/
def Async.code (x : Async) : BitVec 8 :=
  match x with
  | .mxReset => cMxReset
  | .accDeadlock => cAccDeadlock
  | .replayDiverge => cReplayDiverge

/-- The warp whose oldest pending asynchronous cause can be delivered: it runs no handler, and the path that takes
the trap, the primary while it is live, stands at an instruction boundary. -/
def Core.asyncWarp (k : Core) : Option (Nat × Warp × Async × Bool) :=
  (k.warps.filterMap (fun w =>
    match w.2.pend with
    | [] => none
    | x :: _ =>
      let alt := !w.2.pri.live
      let p := w.2.path alt
      if p.live && k.warpRuns w.2 && w.2.hand.isNone && w.2.edge.isNone && !w.2.trapping
          && p.park.isNone && p.held.isNone
          && !(w.2.strand && (match k.strand with | some t => t.st != .run | none => false))
          && !k.captured w.2 then some (w.1, w.2, x, alt)
      else none)).head?

/-- ASYNC_TRAP_DELIVERY is due. -/
def State.asyncDue (s : State) (c : Nat) : Bool := s.begun c && ((s.core c).asyncWarp).isSome

/-- The oldest pending asynchronous cause enters the handler, with an empty lane mask. -/
def State.asyncTrap (s : State) (c : Nat) : State :=
  match (s.core c).asyncWarp with
  | some (w, x, a, alt) =>
    (s.modWarp c w (fun x => { x with pend := x.pend.tail })).takeTrap c w alt a.code (x.path alt).pc 0
  | none => s

/-! ## Kettle lines (R163, R164, R333, R334) -/

/-- The level of a kettle line: lines 0 to 71 of the gatherings, 72 to 75 of the quires, 76 of the module. -/
def lineLevel (l : Nat) : Nat := if l < 72 then 1 else if l < 76 then 2 else 3

/-- The cores that a line can join. -/
def lineCores (l : Nat) : List Nat :=
  if l < 72 then (List.range 8).map (8 * l + ·)
  else if l < 76 then (List.range 144).map (144 * (l - 72) + ·)
  else List.range 576

/-- The members of a line: the cores of the state whose bit for the level is 1. -/
def State.lineMembers (s : State) (l : Nat) : List Nat :=
  (s.cores.filter (fun p => (lineCores l).contains p.1 && p.2.domain.getLsbD (lineLevel l - 1))).map (·.1)

/-- A warp has a SYNC of a level pending. -/
def Warp.synced (w : Warp) (level : Nat) : Bool :=
  (w.pri.live || w.alt.live) && (!w.pri.live || w.pri.park == some (.sync level)) && (!w.alt.live || w.alt.park == some (.sync level))

/-- Core c asserts arrival at a level (R163, R390): every live warp and the strand of its member block has a SYNC of
the level pending, or the member block has ended; a settling rise and a pre-emption withdraw it, a precise stop does not (R434). -/
def State.arrives (s : State) (c level : Nat) : Bool :=
  let k := s.core c
  !k.gov.set &&
    (match k.member with
      | none => true
      | some m =>
        match List.find? (fun b : Nat × Block => (b.2.grid, b.2.bno) == m) k.blocks with
        | some b =>
          b.2.dead.isSome || (b.2.halt == 0
            && k.warps.all (fun w => w.2.rix ≠ b.1 || w.2.exited == 0xFFFFFFFF || w.2.synced level))
        | none => !(s.waitList c).any (fun x => (x.grid, x.bno) == m))

/-- KETTLE_LINE_RISE is due. -/
def State.riseDue (s : State) (l : Nat) : Bool :=
  s.goes && (s.kettles.find? l).isNone && !(s.lineMembers l).isEmpty && (s.lineMembers l).all (fun c => s.arrives c (lineLevel l))
    && (s.lineMembers l).any (fun c => (s.core c).warps.any (fun w =>
      w.2.synced (lineLevel l)))

/-- Ticks within which the members of a line restart after the last arrival: 24 ns, 220 ns and 600 ns (R21). -/
def lineBound (level : Nat) : Nat := if level = 1 then 864 else if level = 2 then 7920 else 21600

/-- The propagation delay of a line, which leaves room for the release edge within the bound (R21, R164). -/
def lineDelay (l : Nat) : Nat := Config.kettleDelay l % (lineBound (lineLevel l) - 94)

/-- The release edge of a line that rises now. -/
def State.releaseEdge (s : State) (l : Nat) : Nat := (s.time + lineDelay l + 60 + 35) / 36 * 36

/-- The line rises: each member learns of it within the propagation delay, and holds from then to the release edge. -/
def State.lineRise (s : State) (l : Nat) : State :=
  let t := s.releaseEdge l
  (s.lineMembers l).foldl (fun u c => u.modClock c (fun k => { k with
    align := some (s.time + Config.kettleLearn l c % (lineDelay l + 1), t) })) { s with kettles := s.kettles.put l ⟨some t⟩ }

/-- KETTLE_RELEASE is due. -/
def State.releaseDue (s : State) (l : Nat) : Bool :=
  s.goes && (match s.kettles.find? l with | some x => (match x.release with | some t => decide (t ≤ s.time) | none => false) | none => false)

/-- A member core is released: its waiting paths go on after the acquire of the level (R164, R197). -/
def State.releaseCore (s : State) (c level : Nat) : State :=
  let s := s.modCore c (fun k => { k with gov := k.gov.release, ck := { k.ck with align := none } })
  let s := s.acquire c (syncScope level)
  (s.core c).allPaths.foldl (fun s x =>
    if x.2.2.2.park = some (.sync level) then
      if x.2.2.1.bundled then
        (s.modPath c x.1 false (fun p => { p with park := none })).modStrand c (fun t => { t with synced := true })
      else s.finish c x.1 x.2.1
    else s) s

/-- The release edge of a line. -/
def State.lineRelease (s : State) (l : Nat) : State :=
  let m := s.lineMembers l
  let s := { s with kettles := s.kettles.del l }
  m.foldl (fun s c => s.releaseCore c (lineLevel l)) s

end Sys2Proof.Machine
end

