-- ==== Sys2Proof/Machine/EventsMem.lean ====
section
/-! DEFINITION. Events of memory: the write buffer, promotion requests, atomics at their home slices and at the order
gate, remote scratchpad accesses, arbitration logs and store hashes (R167, R170, R173, R174, R183, R190, R229, R372,
R425 to R429). -/

namespace Sys2Proof.Machine

/-! ## The write buffer (R170, R190, R197) -/

/-- An entry of the write buffer may be delivered: a release after the warp's earlier atomics, and in a fused gathering the
entries of all its cores in the order of their issue, so that no result depends on which core issued them (R170, R171, R197). -/
def State.drainMay (s : State) (c : Nat) (e : WbEntry) : Bool :=
  (!e.rel || !s.atomicsDue c e.warp e.seq) && s.drained c e.seq

/-- WRITE_BUFFER_DRAIN is due: the oldest entry may be delivered. -/
def State.drainDue (s : State) (c : Nat) : Bool :=
  s.goes && (match (s.core c).wb with
    | e :: _ => decide (e.due ≤ s.time) && s.drainMay c e
    | [] => false)

/-- What an entry of the write buffer of core c does at its home. -/
def State.deliver (s : State) (c : Nat) (e : WbEntry) : State :=
  match e.kind with
  | .store b => s.write e.addr b
  | .atom kind n lane id ea data cmp =>
    if isModule e.addr then
      s.modSlice (homeSlice e.addr) (fun x => { x with
        reqs := x.reqs ++ [⟨c, e.warp, false, e.addr, kind, n, lane, id, data, cmp, s.time, ea⟩] })
    else s.atomMem c e.warp kind n lane id e.addr ea data cmp
  | .arrive core rix off n => (s.askBar core rix off (if core = c then 0 else 4) c).barOp core rix off (Bar.arrive n)

/-- The oldest entry of the write buffer is delivered. -/
def State.drain (s : State) (c : Nat) : State :=
  match (s.core c).wb with
  | e :: l => (s.modCore c (fun k => { k with wb := l })).deliver c e
  | [] => s

/-! ## Promotion requests (R183) -/

/-- PROMOTION_REQUEST is due: every store that the write buffer held at the request has been performed. -/
def State.promoDue (s : State) (c : Nat) : Bool :=
  s.goes && (match (s.core c).promo with
    | p :: _ => (s.core c).wb.all (fun e => decide (p.seq ≤ e.seq))
    | [] => false)

/-- The core acknowledges, and the path that waits for it goes on. -/
def State.promote (s : State) (c : Nat) : State :=
  match (s.core c).promo with
  | p :: l => (s.modCore c (fun k => { k with promo := l })).wake p.src p.warp p.alt
  | [] => s

/-! ## Atomics at a slice (R174, R229, R372, R426, R427) -/

/-- SLICE_ATOMIC is due: a slice cycle has come, an atomic may be performed, and no record of the slice waits. -/
def State.sliceDue (s : State) (sl : Nat) : Bool :=
  s.goes && decide ((s.slice sl).next ≤ s.time) && (s.nextAtomic sl).isSome
    && !(s.hb.waiting.any (fun p => p.1 = srcOfSlice sl))

/-- One add of a copy request has been performed: one fewer is on its way (R229, R234). -/
def State.addDone (s : State) (c slot id : Nat) : State :=
  s.modCore c (fun k => { k with copy := k.copy.map (fun q =>
    if q.1 = slot then (q.1, { q.2 with parts := q.2.parts.map (fun p =>
      if p.id = id then (match p.stage with | .adds n => { p with stage := .adds (n - 1) } | _ => p) else p) }) else q) })

/-- The effect of an atomic at its slice: for a thread, for the copy engine (its slot stands as the lane), or for the
host or a peer, which takes the old value. -/
def State.sliceEffect (s : State) (r : SliceReq) : State :=
  if r.eng || 576 ≤ r.core then
    let old := s.read r.addr r.n
    let s := match (atomBytes r.kind r.n old r.data r.cmp).2 with
      | some b => s.write r.addr b
      | none => s
    if r.eng then (s.l1Drop r.core r.addr).addDone r.core r.lane r.id
    else { s with answer := bytesNat old }
  else s.atomMem r.core r.warp r.kind r.n r.lane r.id r.addr r.ea r.data r.cmp

/-- One slice cycle: an atomic is performed, and logged or gated. -/
def State.sliceStep (s : State) (sl : Nat) : State :=
  match s.nextAtomic sl with
  | none => s
  | some r =>
    let s := s.modSlice sl (fun x => { x with reqs := x.reqs.erase r, next := (s.time / 10 + 1) * 10 })
    let s := s.sliceEffect r
    if s.rpmode sl = 1 then s.logAtomic sl r.core r.tag.2.1 r.eng else s.gateUse sl

/-! ## Remote scratchpad accesses (R167, R168) -/

/-- REMOTE_SCRATCH_ACCESS is due: an access has come to core c's banks. -/
def State.remoteDue (s : State) (c : Nat) : Bool := s.goes && !(s.core c).remote.isEmpty

/-- The access is performed at core c's banks. -/
def State.remoteStep (s : State) (c : Nat) : State :=
  match (s.core c).remote with
  | r :: l =>
    (s.modCore c (fun k => { k with remote := l })).scratchAccess r.src r.warp r.kind r.n r.lane r.id 2 r.ea r.data r.cmp
      c r.rix r.off
  | [] => s

/-! ## The arbitration log and the order gate (R426, R427) -/

/-- RLOG_PARTIAL_FLUSH is due: 2^20 slice cycles since the first chunk of a partial record closed. -/
def State.rlogDue (s : State) (sl : Nat) : Bool :=
  s.goes && !(s.slice sl).closed.isEmpty && decide ((s.slice sl).age + 10 * 2 ^ 20 ≤ s.time)

/-- GATE_TIMEOUT is due: an atomic has waited GTIMEOUT slice cycles in which none of the head's requester has arrived. -/
def State.gateDue (s : State) (sl : Nat) : Bool :=
  s.goes && (match s.gate sl with
    | some ch =>
      !((s.slice sl).reqs.any (fun r => ch.matches r))
        && (s.slice sl).reqs.any (fun r => decide (max r.age (s.slice sl).quiet + s.gtimeout sl ≤ s.time))
    | none => false)

/-- The gate passes everything from now on; each warp whose atomic waited receives REPLAY_DIVERGE (R427, R430). -/
def State.gateGive (s : State) (sl : Nat) : State :=
  let x := s.slice sl
  let ws := ((x.reqs.filter (fun r => !r.eng && decide (r.core < 576))).map (fun r => (r.core, r.warp))).dedup
  ws.foldl (fun s p => (s.endpaper (sl / 128) 9 (srcOfSlice sl) (p.1 * 2 ^ 16) x.idx p.2).pend p.1 p.2 .replayDiverge)
    (s.modSlice sl (fun y => { y with div := true, pass := true }))

/-! ## Store hashes (R429) -/

/-- The first SHASH of core c whose path's earlier writes have retired, and whose record fits. -/
def State.shashReady (s : State) (c : Nat) : Option (Nat × Bool × Nat × W32 × W32) :=
  (s.core c).hashes.find? (fun h =>
    match (s.core c).warps.find? h.1 with
    | none => false
    | some x =>
      x.hashQuiet (x.path h.2.1).mask
        && (match (s.core c).strand with | some t => t.warp != h.1 || t.deferred.isEmpty | none => true)
        && (!(s.hmode c == 1 && s.obsBit c 0) || s.hashRoom c))

/-- SHASH_RETIRE is due. -/
def State.shashDue (s : State) (c : Nat) : Bool := s.goes && (s.shashReady c).isSome

/-- The hash is written and recorded or checked, and the path goes on. -/
def State.shashStep (s : State) (c : Nat) : State :=
  match s.shashReady c with
  | some (w, alt, d, id, lanes) =>
    ((s.modCore c (fun k => { k with hashes := k.hashes.erase (w, alt, d, id, lanes) })).shash c w d id lanes).wake c w alt
  | none => s

end Sys2Proof.Machine
end

