-- ==== Sys2Proof/Machine/EventsXlate.lean ====
section
/-! DEFINITION. Events of translation: walks, the host's answers to translation and page requests, invalidations that
complete, and QSUB's record writes (R329, R350 to R372). -/

namespace Sys2Proof.Machine

/-! ## The end of a walk (R352, R355, R360) -/

/-- A walk leaves core c's list. -/
def State.walkGone (s : State) (c : Nat) (w : Walk) : State := s.modCore c (fun k => { k with walks := k.walks.erase w })

/-- The lanes of an XLATE that a walk serves take a status; a translation also loads their last-page registers. -/
def State.xlateFill (s : State) (c id : Nat) (w : Walk) (st : W32) (t : Option Tlb) : State :=
  match (s.core c).xlates.find? (fun x => x.id == id) with
  | none => s
  | some x =>
    let mine := x.lanes.filter (fun l => page4K l.2 = page4K w.va)
    let left := x.lanes.filter (fun l => page4K l.2 ≠ page4K w.va)
    let s := s.modCore c (fun k => { k with
      xlates := if left.isEmpty then k.xlates.filter (fun y => y.id != id)
        else k.xlates.map (fun y => if y.id = id then { y with lanes := left } else y) })
    mine.foldl (fun s l =>
      let s := match t with | some t => s.loadLpr c l.1 t | none => s
      s.fill c x.warp id l.1 [st]) s

/-- A walk has found a translation: it is cached, unless a sweep has covered the walk, and those who asked go on. -/
def State.walkServe (s : State) (c : Nat) (w : Walk) (t : Tlb) (quire : Bool) : State :=
  let s := s.walkGone c w
  let s := if w.nocache then s else
    let s := (s.cacheCore c t).tickNonce
    if quire then (s.cacheQuire (quireOf c) t).tickNonce else s
  w.who.foldl (fun s a =>
    match a with
    | .xlate id => s.xlateFill c id w (t.status false) (if w.nocache then none else some t)
    | _ => s) s

/-- The cause that a reason gives to an access (R356, R368). -/
def reasonCause (r : Nat) : BitVec 8 := if r = rRefused then cAccess else cPageFault

/-- A walk has ended in a fault: everyone who asked learns the reason (R352, R355, R360, R241, R319, R337). -/
def State.walkFail (s : State) (c : Nat) (w : Walk) (r : Nat) : State :=
  let pg := (page4K w.va, r)
  w.who.foldl (fun s a =>
    match a with
    | .path n alt => s.modPath c n alt (fun p => { p with faults := p.faults ++ [pg] })
    | .strand => s.modStrand c (fun t => { t with faults := t.faults ++ [pg] })
    | .xlate id => s.xlateFill c id w (faultStatus r) none
    | .copy slot =>
      match (s.core c).copy.find? slot with
      | some q =>
        let va := q.elemOn w.va
        (if q.err.isNone then s.noteFault c w.pasid (reasonCause r).toNat r va else s).modCore c (fun k => { k with
          copy := k.copy.put slot { q with err := some (q.err.getD ((reasonCause r).toNat, va)) } })
      | none => if slot = 64 then s.modCore c (fun k => { k with kfaults := k.kfaults ++ [pg] }) else s
    | .folio n alt =>
      s.modCore c (fun k => { k with floads := k.floads.map (fun f =>
        if f.warp = n ∧ f.alt = alt then { f with fault := some r } else f) })
    | .sched => s.modCore c (fun k => { k with faults := k.faults ++ [(w.pasid, pg)] })) (s.walkGone c w)

/-- Change a walk of core c. -/
def State.walkSet (s : State) (c : Nat) (w w' : Walk) : State :=
  s.modCore c (fun k => { k with walks := k.walks.map (fun x => if x = w then w' else x) })

/-- Ticks for which an ATS or a page request waits for its answer (R368, R369). -/
def answerTime : Nat := 2 ^ 36

/-! ## The walk itself (R350, R353, R367) -/

/-- Outstanding page requests of the module: those of one core for one page are one (R369). -/
def State.pageRequests (s : State) : List (Nat × Nat × Nat) :=
  (s.cores.flatMap (fun p => (p.2.walks.filter (fun w => w.stage == 2)).map (fun w => (p.1, w.pasid, page4K w.va)))).dedup

/-- A page request can be sent: one for the page is under way, or the host's allocation leaves room (R366, R369). -/
def State.mayRequest (s : State) (c : Nat) (w : Walk) : Bool :=
  s.pageRequests.contains (c, w.pasid, page4K w.va) || decide (s.pageRequests.length < Config.pageRequests % 512 + 1)

/-- A walk asks the host for its page, joins a request under way, or waits for the allocation; it faults when no request may be
made (R366, R368, R369). -/
def State.requestPage (s : State) (c : Nat) (w : Walk) : State :=
  if !(w.prien && s.cfg.2.2 && !s.priFailed) then s.walkFail c w rHost
  else if s.mayRequest c w then
    let due := match (s.core c).walks.find? (fun x => x.stage == 2 && x.pasid == w.pasid && page4K x.va == page4K w.va) with
      | some x => x.due
      | none => s.time + answerTime
    s.walkSet c w { w with stage := 2, due := due }
  else s.walkSet c w { w with stage := 3 }

/-- The first walk of core c that waits to send its page request and may now. -/
def State.requestNow (s : State) (c : Nat) : Option Walk :=
  (s.core c).walks.find? (fun w => w.stage == 3 && (s.priFailed || s.mayRequest c w))

/-- A walk with what it has found out of its leaf: a sweep since it was asked for covers the page, and its result is not
cached (R364). -/
def Walk.swept (w : Walk) (t : Tlb) : Walk := { w with nocache := w.nocache || w.covers.any (fun v => v.removes t), covers := [] }

/-- The first walk of core c in a stage whose time has come. -/
def State.walkNow (s : State) (c stage : Nat) : Option Walk :=
  (s.core c).walks.find? (fun w => w.stage == stage && decide (w.due ≤ s.time))

/-- WALK is due. -/
def State.walkDue (s : State) (c : Nat) : Bool := s.goes && ((s.walkNow c 0).isSome || (s.requestNow c).isSome)

/-- A walk meets a cached translation; a sweep since it was asked for, which covers the page, keeps the result uncached (R363,
R364). -/
def State.walkMet (s : State) (c : Nat) (w : Walk) (t : Tlb) : State :=
  (s.walkSet c w (w.swept t)).walkServe c (w.swept t) t false

/-- The tables are walked: a translation, a fault, or a translation request to the host. -/
def State.walkTake (s : State) (c : Nat) (w : Walk) : State :=
  match (s.core c).tlbHit w.pasid w.va w.write with
  | some t => s.walkMet c w t
  | none =>
    match s.qtlbHit (quireOf c) w.pasid w.va w.write with
    | some t => s.walkMet c w t
    | none =>
      match s.walkTables (quireOf c) w.pasid w.va with
      | .error r => s.tickNonce.walkFail c w r
      | .ok f =>
        let host := f.leaf.extractLsb' 6 2 == 1
        let x := w.swept (if host then w.hostTlb true true false 0 else f.tlb w.pasid w.va)
        let s := s.tickNonce.walkSet c w x
        let s := if x.nocache then s else { s with wcache := s.wcache ++ f.path.filter (fun x => !s.wcache.contains x) }
        if host then
          s.walkSet c x { x with
            stage := 1, due := s.time + answerTime, ro := f.leaf.getLsbD 2, sc := f.leaf.getLsbD 3, fa := f.leaf.getLsbD 4
            nc := f.leaf.getLsbD 5, prien := f.dir.getLsbD 2 }
        else s.walkServe c x (f.tlb w.pasid w.va) true

/-- WALK. -/
def State.walkStep (s : State) (c : Nat) : State :=
  match s.walkNow c 0, s.requestNow c with
  | some w, _ => s.walkTake c w
  | none, some w => s.requestPage c w
  | none, none => s

/-! ## The host's answers (R367 to R369) -/

/-- The first walk of core c that waits for an answer of a stage: 1 ATS, 2 page request. -/
def State.awaits (s : State) (c stage : Nat) : Option Walk := (s.core c).walks.find? (fun w => w.stage == stage)

/-- ATS_COMPLETION can arrive. -/
def State.atsDue (s : State) (c : Nat) : Bool := s.goes && (s.awaits c 1).isSome

/-- A completion with the rights it grants (R368). -/
def State.atsTake (s : State) (c : Nat) (w : Walk) (r : AtsAnswer) : State :=
  match r with
  | .refused => s.walkFail c w rRefused
  | .success rd wr u frame =>
    let t := if u then w.hostTlb true true true frame else w.hostTlb rd wr false frame
    if t.serves w.write then s.walkServe c w t true
    else if w.probe then s.walkFail c w rHost
    else if w.write && w.retried then s.walkFail c w rRefused
    else s.requestPage c w

/-- ATS_COMPLETION. -/
def State.atsStep (s : State) (c : Nat) (r : AtsAnswer) : State :=
  match s.awaits c 1 with | some w => s.atsTake c w r | none => s

/-- ATS_TIMEOUT is due. -/
def State.atsLate (s : State) (c : Nat) : Bool := s.goes && (s.walkNow c 1).isSome

/-- PRG_RESPONSE can arrive. -/
def State.prgDue (s : State) (c : Nat) : Bool := s.goes && (s.awaits c 2).isSome

/-- The response to a page request (R369). -/
def State.prgTake (s : State) (c : Nat) (w : Walk) (r : PrgAnswer) : State :=
  match r with
  | .success => s.walkSet c w { w with stage := 1, due := s.time + answerTime, retried := true }
  | .invalid => s.walkFail c w rHost
  | .failure => { s.walkFail c w rHost with priFailed := true }

/-- PRG_RESPONSE: it answers every walk of the core that its request serves (R369). -/
def State.prgStep (s : State) (c : Nat) (r : PrgAnswer) : State :=
  match s.awaits c 2 with
  | some w =>
    ((s.core c).walks.filter (fun x => x.stage == 2 && x.pasid == w.pasid && page4K x.va == page4K w.va)).foldl
      (fun s x => s.prgTake c x r) s
  | none => s

/-- PAGE_REQUEST_TIMEOUT is due. -/
def State.prgLate (s : State) (c : Nat) : Bool := s.goes && (s.walkNow c 2).isSome

/-- A walk whose answer of a stage has not come in time faults with reason 2. -/
def State.answerLate (s : State) (c stage : Nat) : State :=
  match s.walkNow c stage with | some w => s.walkFail c w rHost | none => s

/-! ## Invalidations (R364, R370) -/

/-- An access of core c that was translated before an invalidation, with a translation that it removes, is in flight (R364). -/
def State.flying (s : State) (c : Nat) (v : Inval) : Bool :=
  (s.core c).flights.any (fun f => decide (f.lo < v.since)
    && f.tlbs.any (fun t => (⟨v.mode, v.pasid, v.va, v.len⟩ : Cover).removes t) && s.aloft c f)

/-- The sweep of an invalidation is complete: no access that it covers is in flight (R364); those of the host's ATS requests
complete in arrival order. -/
def State.invalOver (s : State) (v : Inval) : Bool :=
  (if v.mode = 4 then !s.flying v.core v else s.cores.all (fun p => !s.flying p.1 v))
    && (v.mode != 5 || (s.invals.find? (fun x => x.mode == 5)) == some v)

/-- INVALIDATION_COMPLETE is due. -/
def State.invalDue (s : State) : Bool := s.goes && (s.invals.find? s.invalOver).isSome

/-- The invalidation completes; the path that waits for it goes on. -/
def State.invalStep (s : State) : State :=
  match s.invals.find? s.invalOver with
  | none => s
  | some v =>
    let s := { s with invals := s.invals.erase v }
    match v.who with
    | some (w, alt) =>
      match (s.core v.core).warps.find? w with
      | some x => if (x.path alt).park = some .inval then s.wake v.core w alt else s
      | none => s
    | none => s

/-! ## QSUB (R329) -/

/-- QSUB_RECORD_WRITTEN is due. -/
def State.qsubDue (s : State) (q : Nat) : Bool := s.goes && (s.qsubReady q).isSome && !s.schedBusy

/-- The record whose turn it is has been written. -/
def State.qsubStep (s : State) (q : Nat) : State :=
  match s.qsubReady q with | some x => s.qsubWrite q x | none => s

end Sys2Proof.Machine
end

