-- ==== Sys2Proof/Machine/EventsCopy.lean ====
section
/-! DEFINITION. Events of the copy engine: acceptance, KICK entries, the movement of lines, landings, errors, prefetches
and waits for pages (R213, R214, R226 to R245). -/

namespace Sys2Proof.Machine

/-! ## Acceptance (R226, R230, R231) -/

/-- The engines of core c may act: the module runs and no stop holds them. -/
def State.enginesGo (s : State) (c : Nat) : Bool := s.begun c && !s.enginesHeld c

/-- Is the block of a resident index not being halted? -/
def Core.rixKept (k : Core) (rix : Nat) : Bool := match k.blocks.find? rix with | some b => b.halt == 0 | none => true

/-- The first request of a running block that is parked for acceptance, when it can be accepted. -/
def State.acceptNext (s : State) (c : Nat) : Option CReq :=
  match (s.core c).caccept.find? (fun q => (s.core c).rixRuns q.rix) with
  | some q => if s.acceptable c q then some q else none
  | none => none

/-- COPY_ACCEPT is due. -/
def State.acceptDue (s : State) (c : Nat) : Bool := s.enginesGo c && (s.acceptNext c).isSome

/-- The request is accepted, and its path goes on. -/
def State.acceptStep (s : State) (c : Nat) : State :=
  match s.acceptNext c with
  | some q => (((s.modCore c (fun k => { k with caccept := k.caccept.erase q })).accept c q).putToken c q).wake c q.warp q.alt
  | none => s

/-- KICK_ENTRY_ACCEPT is due: the next entry can be read, and is accepted, fails, or lacks a page. -/
def State.kickDue (s : State) (c : Nat) : Bool :=
  s.enginesGo c && s.kickReady c && !(s.core c).copyWaits 64
    && (match (s.core c).kickBy with
      | some (rix, warp, by_) =>
        (s.core c).rixKept rix
          && (match kickEntry rix warp by_ (s.scratchRead c rix (((s.core c).kick.extractLsb' 0 19).toNat) 48) with
            | none => true
            | some q => (match s.prep c q (s.core c).kfaults with | .ok q => s.acceptable c q | _ => true))
      | none => false)

/-! ## Movement (R214, R237, R238, R392) -/

/-- The request may move bytes now: it is whole, waits for no page, and its block is not halted before it begins. -/
def Core.moves (k : Core) (q : CReq) : Bool := q.err.isNone && !q.paged && (q.begun || k.rixKept q.rix)

/-- The indices of a request are read, or it has none. -/
def CReq.indexed (q : CReq) : Bool := q.op == .copy || (q.op != .pfl2 && decide (q.n ≤ q.idx.length))

/-- PASID of a resident block. -/
def State.rixPasid (s : State) (c rix : Nat) : Nat := match (s.core c).blocks.find? rix with | some b => b.pasid | none => 0

/-- What moves in a cycle: an index line, a part into its local line, or a part out of its local line. -/
inductive Move where
  | index (slot : Nat) (q : CReq)
  | into (slot : Nat) (q : CReq) (p : CPart)
  | out (slot : Nat) (q : CReq)
deriving DecidableEq, Repr

/-- The move of a request. -/
def State.moveOf (s : State) (c : Nat) (x : Nat × CReq) : Option Move :=
  let k := s.core c
  let q := x.2
  if !k.moves q || q.op == .pfl2 then none
  else if s.indexReady c q then some (.index x.1 q)
  else
    match q.parts.find? (fun p => s.moveReady c q p) with
    | some p => some (.into x.1 q p)
    | none => if q.shape.dir ≠ 0 ∧ q.indexed ∧ !q.todo.isEmpty then some (.out x.1 q) else none

/-- The first request in progress with something to move. -/
def State.moveNext (s : State) (c : Nat) : Option Move := ((s.core c).inProgress.filterMap (s.moveOf c)).head?

/-- The first request in progress that still has data to fetch. -/
def State.fetchNext (s : State) (c : Nat) : Option (Nat × CReq) :=
  (s.core c).inProgress.find? (fun x =>
    (s.core c).moves x.2 && x.2.op != .pfl2 && x.2.shape.dir == 0 && x.2.indexed && !x.2.todo.isEmpty)

/-- The engine may move a line in this cycle: it has moved none, and its words of earlier moves are served. -/
def State.lineFreeNow (s : State) (c : Nat) : Bool := !(s.core c).ck.moved && s.engineIdle c

/-- COPY_LINE_MOVE is due. -/
def State.moveDue (s : State) (c : Nat) : Bool :=
  s.enginesGo c && s.lineFreeNow c && ((s.moveNext c).isSome || (s.fetchNext c).isSome)

/-- Take a step only while the engine holds at most 256 global lines (R214). -/
def State.within (s t : State) (c : Nat) : State := if (t.core c).engineLines ≤ 256 then t else s

/-- A line is on the move, and a second one after it when an element lies in two (R214, R392). -/
def State.lineOn (s : State) (c : Nat) (two : Bool) : State := s.modClock c (fun k => { k with moving := true, second := two })

/-- Does some element of a part lie in two lines of the local end, or of the own scratchpad that a DIR 2 request reads (R214)? -/
def State.partSplit (s : State) (c : Nat) (q : CReq) (own : Bool) (p : CPart) : Bool :=
  p.elems.any (fun e => if own then e.inb && e.gbit / 8 / 128 != (e.gbit + e.bits - 1) / 8 / 128
    else !(s.localOf c q).oneLine false e)

/-- The move is made. -/
def State.makeMove (s : State) (c : Nat) (m : Move) : State :=
  match m with
  | .index slot q => (s.readIndices c slot q).lineOn c false
  | .into slot q p => (s.copyMove c slot q p).lineOn c (s.partSplit c q false p)
  | .out slot q =>
    let t := s.within (s.copyTake c slot q (s.rixPasid c q.rix)) c
    match (t.core c).copy.find? slot with
    | some r =>
      match r.parts.drop q.parts.length with
      | p :: _ => t.lineOn c (s.partSplit c q (q.shape.dir == 2) p)
      | [] => t
    | none => t

/-- A cycle of the engine: a line moves, and the data of one more part is asked for. -/
def State.moveStep (s : State) (c : Nat) : State :=
  let s := match s.moveNext c with | some m => s.makeMove c m | none => s
  let s := match s.fetchNext c with
    | some (slot, q) => s.within (s.copyFetch c slot q (s.rixPasid c q.rix)) c
    | none => s
  s.modClock c (fun k => { k with moved := true })

/-! ## Data that returns (R210, R215, R228, R242) -/

/-- The first part of a request of core c for which p holds. -/
def Core.findPart (k : Core) (p : CReq → CPart → Bool) : Option (Nat × CReq × CPart) :=
  (k.copy.filterMap (fun q => (q.2.parts.find? (fun x => p q.2 x)).map (fun x => (q.1, q.2, x)))).head?

/-- A part whose global data is back. -/
def State.returned (s : State) (c : Nat) : Option (Nat × CReq × CPart) :=
  (s.core c).findPart (fun _ p => match p.stage with | .fetch d => decide (d ≤ s.time) | _ => false)

/-- COPY_GLOBAL_RETURN is due. -/
def State.returnDue (s : State) (c : Nat) : Bool := s.goes && (s.returned c).isSome

/-- The global data of a part is read. -/
def State.returnStep (s : State) (c : Nat) : State :=
  match s.returned c with
  | none => s
  | some (slot, q, p) => s.partBack c slot q p (fun _ => false)

/-! ## Landings (R213, R229, R234) -/

/-- No older buffered store of the cores that share its L1 touches the part's global bytes (R210). -/
def State.storesPast (s : State) (c : Nat) (q : CReq) (p : CPart) : Bool :=
  (s.l1Peers c).all (fun o => (s.core o).wb.all (fun e => decide (q.seq ≤ e.seq) ||
    (match e.kind with
      | .store b => p.pas.all (fun a => decide (a.2 + 1 ≤ e.addr ∨ e.addr + b.length ≤ a.1))
      | _ => true)))

/-- A part of core c that can land: in a local line once its words are served; in memory when its time has come, the
parts of a SCATTER in order; or with its last add. A request that has met an error lands no more (R241, R244). -/
def State.landable (s : State) (c : Nat) : Option (Nat × CReq × CPart) :=
  (s.core c).findPart (fun q p => q.err.isNone &&
    match p.stage with
    | .moving => s.engineIdle c
    | .store d => decide (d ≤ s.time) && s.storesPast c q p
        && (q.op == .copy || (q.parts.head?.map (·.id)) == some p.id)
    | .adds n => n == 0
    | _ => false)

/-- COPY_BYTES_LAND is due. -/
def State.landDue (s : State) (c : Nat) : Bool := s.goes && (s.landable c).isSome

/-- The elements of a part that its write reaches: in bounds, and not lost on the way (R371, R374). -/
def CPart.writes (p : CPart) : List (Elem × Nat × Nat) := (p.elems.zip p.pas).filter (fun x => x.1.inb && decide (x.2.1 < 2 ^ 128))

/-- A part without its place in the request: its bytes have landed. -/
def State.partLanded (s : State) (c slot : Nat) (q : CReq) (p : CPart) : State :=
  let q := { q with parts := q.parts.filter (fun y => y.id ≠ p.id) }
  (s.putReq c slot q).copyLanded c slot q ((p.elems.map (·.bits)).foldl (· + ·) 0 / 8) p.elems

/-- One add of a SCATTER: to its home slice, or to the host's or a peer's memory at once. -/
def State.sendAdd (s : State) (c slot : Nat) (q : CReq) (p : CPart) (x : Elem × Nat × Nat) : State :=
  let n := x.1.bits / 8
  let kind : AccKind := .atom (if q.shape.atype then 7 else 0)
  let data := wordsOfBytes (natBytes n x.1.val)
  if isModule x.2.1 then
    s.modSlice (homeSlice x.2.1) (fun y => { y with
      reqs := y.reqs ++ [⟨c, 0, true, x.2.1, kind, n, slot, p.id, data, [], s.time, 0⟩] })
  else
    match (atomBytes kind n (s.read x.2.1 n) data []).2 with
    | some b => s.write x.2.1 b
    | none => s

/-- A part lands, or its adds leave for their slices. -/
def State.landStep (s : State) (c : Nat) : State :=
  match s.landable c with
  | none => s
  | some (slot, q, p) =>
    match p.stage with
    | .moving =>
      let x := s.localOf c q
      let t := p.elems.foldl (fun s e => s.localPut c x e) s
      let t := match x, localSpan q.shape.swz p.elems with
        | .scr tc r off _, some sp => t.recheck tc r (off + sp.1) (sp.2 - sp.1)
        | _, _ => t
      t.partLanded c slot q p
    | .store _ =>
      if q.op == .scatterAdd then
        let ws := p.writes
        let n := (ws.filter (fun x => isModule x.2.1)).length
        let t := ws.foldl (fun s x => s.sendAdd c slot q p x) s
        t.putReq c slot { q with parts := q.parts.map (fun y => if y.id = p.id then { y with stage := .adds n } else y) }
      else (p.writes.foldl (fun s x => s.globalPut c x.2 x.1) s).partLanded c slot q p
    | _ => s.partLanded c slot q p

/-! ## Errors (R241, R244) -/

/-- The first request with an error, with no add of it still on its way. -/
def Core.failed (k : Core) : Option (Nat × CReq) :=
  List.find? (fun q : Nat × CReq => q.2.err.isSome
    && q.2.parts.all (fun p => match p.stage with | .adds n => n == 0 | _ => true)) k.copy

/-- REQUEST_ERROR is due. -/
def State.errorDue (s : State) (c : Nat) : Bool := s.goes && ((s.core c).failed).isSome

/-- The request ends in its error. -/
def State.errorStep (s : State) (c : Nat) : State :=
  match (s.core c).failed with
  | some (slot, q) =>
    (s.modCore c (fun k => { k with
      walks := k.walks.map (fun w => { w with who := w.who.filter (· != askCopy slot) }) })).copyError c slot q
  | none => s

/-! ## Prefetches and page waits (R232, R242, R355) -/

/-- The first prefetch in progress. -/
def State.pflNext (s : State) (c : Nat) : Option (Nat × CReq) :=
  (s.core c).inProgress.find? (fun x => x.2.op == .pfl2 && !x.2.todo.isEmpty && (s.core c).moves x.2)

/-- PFL2_LINE_DONE is due. -/
def State.pflDue (s : State) (c : Nat) : Bool := s.enginesGo c && (s.pflNext c).isSome

/-- A line of a prefetch is done. -/
def State.pflStep (s : State) (c : Nat) : State :=
  match s.pflNext c with | some (slot, q) => s.pflLine c slot q | none => s

/-- The first request whose pages are there. -/
def Core.pageBack (k : Core) : Option (Nat × CReq) :=
  List.find? (fun q : Nat × CReq => q.2.paged && !k.copyWaits q.1) k.copy

/-- PAGE_WAIT_RESUME is due. -/
def State.pageDue (s : State) (c : Nat) : Bool := s.goes && ((s.core c).pageBack).isSome

/-- The request continues. -/
def State.pageStep (s : State) (c : Nat) : State :=
  match (s.core c).pageBack with | some (slot, q) => s.putReq c slot { q with paged := false } | none => s

end Sys2Proof.Machine
end

