-- ==== Sys2Proof/Machine/EventsEngine.lean ====
section
/-! DEFINITION. Events of the matrix engine, the bank allocator, the slew limiters and the marbling engine (R261, R262,
R268, R277, R280, R293, R297 to R310, R396 to R399). -/

namespace Sys2Proof.Machine

/-! ## Engine order (R268, R269, R298) -/

/-- The engine could start the entry: nothing runs, no filler cycle and no freeze holds it, and the limiter grants it. -/
def State.mxFree (s : State) (c : Nat) (x : MxEntry) : Bool :=
  (s.core c).mx.idle && (s.core c).mx.filler == 0 && !s.mxHolds c && (!x.heavy || s.mayLight c)

/-- The entry to start in the current cycle of core c: a strand's before its bundle issues, a warp's in place of what
the SIMT decoder would select. -/
def State.mxStarts (s : State) (c : Nat) : Option MxEntry :=
  let k := s.core c
  match k.mxNext with
  | none => none
  | some x =>
    if x.instr.isNone || !s.mxFree c x || (k.mxPath x).isNone || k.obs.bkpt.isSome || k.ck.lined then none
    else if x.strand then (if k.ck.stage = .start then some x else none)
    else if k.ck.stage = .simt then some x else none

/-- MX_START is due. -/
def State.mxDue (s : State) (c : Nat) : Bool :=
  s.goes && decide ((s.core c).ck.edge ≤ s.time) && (s.mxStarts c).isSome

/-- The charges of two processing spans together. -/
def addSpans : List Nat → List Nat → List Nat
  | x :: l, y :: m => (x + y) :: addSpans l m
  | [], m => m
  | l, [] => l

/-- The entry is next in the queue. -/
def Mx.toFront (m : Mx) (x : MxEntry) : Mx := { m with queue := x :: m.queue.erase x }

/-- The instruction starts: a strand's bundle goes on and issues in this cycle, a warp's instruction issues now. -/
def State.mxStart (s : State) (c : Nat) : State :=
  match s.mxStarts c with
  | none => s
  | some x =>
    let s := (s.modMx c (fun m => m.toFront x)).wake c x.warp x.alt
    if x.strand then s
    else
      match x.instr with
      | none => s
      | some i =>
        let old := (s.core c).ck.span
        let s := { s with sel := ⟨c, x.warp, .path x.alt⟩ }
        ((runInstr i s).hazAfter s i).modClock c (fun k => { k with
          coreCharge := k.coreCharge + old.headD 0, span := addSpans old.tail k.span, stage := .done })

/-- The bank transfer that comes next (R298). -/
def State.transferNext (s : State) (c : Nat) : Option (MxEntry × MReq) :=
  match (s.core c).mxNext with
  | some x =>
    if x.instr.isNone && s.mxFree c x then ((s.core c).mar.slots.find? x.slot).map (fun q => (x, q)) else none
  | none => none

/-- BANK_TRANSFER is due. -/
def State.transferDue (s : State) (c : Nat) : Bool := s.begun c && (s.transferNext c).isSome

/-- The transfer enters its occupancy of 16 cycles. -/
def State.transferStart (s : State) (c : Nat) : State :=
  match s.transferNext c with
  | none => s
  | some (x, q) =>
    let bank := match (s.core c).blocks.find? q.rix with | some b => (KMap.find? b.banks q.bank).getD 0 | none => 0
    (s.modMx c (fun m => { m with queue := m.queue.erase x })).mxBegin c ⟨.transfer x.slot bank, x, 16, 0, 0⟩ 32

/-- MX_OCCUPANCY_END is due. -/
def State.occupancyDue (s : State) (c : Nat) : Bool :=
  s.begun c && (match (s.core c).mx.cur with | some r => r.left == 0 | none => false)

/-- A record that has been read and can be checked: one cycle after its read, its words served. -/
def State.recordNext (s : State) (c : Nat) : Option MxRead :=
  match (s.core c).mx.reading with
  | some r =>
    if r.asked && !r.held && decide (1 ≤ r.age) && !(s.mxHolds c) && (s.core c).ck.words.all (fun w => w.tag != 1) then some r
    else none
  | none => none

/-- A record whose read waited for an absent line and can begin (R293). -/
def State.recordStart (s : State) (c : Nat) : Option MxRead :=
  match (s.core c).mx.reading with
  | some r => if !r.asked && !r.held && !(s.mxHolds c) && s.bytesPresent c r.entry.rix r.off 64 then some r else none
  | none => none

/-- The read begins: the banks are asked. -/
def State.recordAsk (s : State) (c : Nat) (r : MxRead) : State :=
  (s.modMx c (fun m => { m with reading := some { r with held := false, age := 0, asked := true } })).askRecord c r.entry.rix r.off

/-- A read held after a FORMAT in a strand, once the strand has resumed, or its block no longer runs (R158; assumption
45). -/
def State.recordHeld (s : State) (c : Nat) : Option MxRead :=
  match (s.core c).mx.reading with
  | some r =>
    let away := match (s.core c).strand with | some t => !t.snapped | none => true
    if r.held && (away || !(s.core c).rixRuns r.entry.rix) then some r else none
  | none => none

/-- MMSG_RECORD_READ is due. -/
def State.recordDue (s : State) (c : Nat) : Bool :=
  s.begun c && ((s.recordHeld c).isSome || (s.recordStart c).isSome || (s.recordNext c).isSome)

/-- The record is checked: the step's occupancy begins, or FORMAT (R293); a read that waited for a line begins, and a record
that was held is read again. -/
def State.recordStep (s : State) (c : Nat) : State :=
  match s.recordHeld c, s.recordStart c, s.recordNext c with
  | some r, _, _ =>
    if (s.core c).rixRuns r.entry.rix && (s.core c).strand.isSome then
      s.modMx c (fun m => { m with reading := some { r with held := false, age := 0, asked := false } })
    else s.modMx c (fun m => { m with reading := none })
  | none, some r, _ => s.recordAsk c r
  | none, none, some r => s.recordRead c r
  | none, none, none => s

/-! ## The bank allocator (R261, R262, R277) -/

/-- The first waiting ACCALLOC of a running block, when enough banks are free. -/
def Core.allocNext (k : Core) : Option AccWait :=
  match k.mx.allocq.find? (fun x => k.rixRuns x.rix) with
  | some x => if x.n ≤ k.freeBanks.length then some x else none
  | none => none

/-- ACCALLOC_GRANT is due, outside a reset of the engine (R280; assumption 129). -/
def State.allocDue (s : State) (c : Nat) : Bool :=
  s.begun c && (s.core c).mx.reset == 0 && ((s.core c).allocNext).isSome

/-- The banks are granted; the base is on its way to its register, and the path goes on. -/
def State.allocGrant (s : State) (c : Nat) : State :=
  match (s.core c).allocNext with
  | none => s
  | some x =>
    let s := (s.modMx c (fun m => { m with allocq := m.allocq.erase x })).grantBanks c x.rix x.base x.n
    (s.putBase c x.warp x.dest x.base x.id).wake c x.warp x.alt

/-- The first waiting ACCFREE whose banks are quiet, outside a reset (R280; assumption 129). -/
def Core.freeNext (k : Core) : Option AccFree :=
  k.mx.freeq.find? (fun x => k.mx.reset == 0 && k.banksQuiet x.rix x.seq x.banks)

/-- ACCFREE_RELEASE is due. -/
def State.freeDue (s : State) (c : Nat) : Bool := s.begun c && ((s.core c).freeNext).isSome

/-- The path that waited goes on, and issues its ACCFREE. -/
def State.freeRelease (s : State) (c : Nat) : State :=
  match (s.core c).freeNext with
  | some x => (s.modMx c (fun m => { m with freeq := m.freeq.erase x })).wake c x.warp x.alt
  | none => s

/-- ACC_DEADLOCK is due: 1,024 cycles of deadlock. -/
def State.deadlockDue (s : State) (c : Nat) : Bool :=
  s.begun c && decide (1024 ≤ (s.core c).mx.dead) && ((s.core c).evictee).isSome

/-- The block of lowest priority, placed last, is evicted. -/
def State.deadlock (s : State) (c : Nat) : State :=
  match (s.core c).evictee with
  | some r => (s.modMx c (fun m => { m with dead := 0 })).halt c r 2
  | none => s

/-- MX_RESET_END is due: the reset's 256 cycles are over. -/
def State.resetOver (s : State) (c : Nat) : Bool := s.begun c && (s.core c).mx.reset == 1

/-- The engine starts instructions again. -/
def State.resetEnd (s : State) (c : Nat) : State :=
  { (s.modMx c (fun m => { m with reset := 0 })) with commanded := s.commanded.filter (· ≠ (c, 1)) }

/-! ## Slew limiters (R396 to R399) -/

/-- A core waits for a grant. -/
def State.slewWaits (s : State) (c : Nat) : Bool :=
  let m := (s.core c).mx
  (match (s.core c).mxNext with | some x => x.heavy | none => false) && m.idle && !m.lit && (s.slewRegs (gatheringOf c)).2

/-- The core is lit. -/
def State.light (s : State) (c : Nat) : State := s.modMx c (fun m => { m with lit := true })

/-- FILLER_END is due: the fillers are over, or there are none, and no heavy operation can start. -/
def State.fillerDue (s : State) (c : Nat) : Bool :=
  let m := (s.core c).mx
  s.begun c && m.lit && m.filler == 0 && m.cur.isNone && m.reading.isNone && !s.heavyReady c

/-- The core is no longer lit. -/
def State.unlight (s : State) (c : Nat) : State := s.modMx c (fun m => { m with lit := false })

/-- SLEWRAMP and EN of a gathering as they stand in the registers. -/
def State.slewWritten (s : State) (g : Nat) : W64 × Bool := (s.ctl64 (offSlew g), (s.ctlAt (offSlew g + 8)).getLsbD 0)

/-- The next step boundary of a gathering's limiter changes something. -/
def State.slewNeeds (s : State) (g : Nat) : Bool :=
  s.slewWritten g != s.slewRegs g || SMap.get 0 s.slew g != 0 || decide (0 < s.litCount g)
    || (List.range 8).any (fun i => s.slewWaits (8 * g + i))

/-- The gatherings that have cores in the state, levels or registers of their own. -/
def State.slewGroups (s : State) : List Nat :=
  (List.range 72).filter s.slewNeeds

/-- SLEW_STEP is due: %time is a multiple of 40 at which no step has been taken. -/
def State.slewStepDue (s : State) : Bool :=
  s.goes && decide (s.time % 40 = 0 ∧ s.slewTick < s.time) && !s.slewGroups.isEmpty

/-- The level of a ramp that is not waited for: the lowest that reaches the lit cores, or the lowest of the largest entry. -/
def slewLevel (r : W64) (lit : Nat) : Nat :=
  let most := ((List.range 16).map (rampAt r)).foldl max 0
  if lit = 0 then 0 else (firstBelow (fun k => decide (min lit most ≤ rampAt r k)) 16 0).getD 0

/-- A gathering's limiter at a step boundary; with EN = 0 no filler cycle runs any longer (R399). -/
def State.slewOne (s : State) (g : Nat) : State :=
  let r := s.slewWritten g
  let s := { s with slewEff := s.slewEff.put g r }
  let s := if r.2 then s else (List.range 8).foldl (fun s i =>
    if (s.core (8 * g + i)).mx.filler = 0 then s else s.modMx (8 * g + i) (fun m => { m with filler := 0 })) s
  let l := SMap.get 0 s.slew g
  let new := if (List.range 8).any (fun i => s.slewWaits (8 * g + i)) then min 15 (l + 1) else slewLevel r.1 (s.litCount g)
  { s with slew := SMap.set 0 s.slew g new }

/-- The step boundary of every limiter. -/
def State.slewStep (s : State) : State := { (s.slewGroups.foldl State.slewOne s) with slewTick := s.time }

/-! ## The marbling engine (R297 to R310) -/

/-- The first marbling request parked for a slot and entries, when it can be accepted. -/
def Core.marbleNext (k : Core) : Option MReq :=
  match k.marbleWaiting with
  | q :: _ => if k.marbleFits q then some q else none
  | [] => none

/-- MARBLE_ACCEPT is due. -/
def State.marbleAcceptDue (s : State) (c : Nat) : Bool := s.enginesGo c && ((s.core c).marbleNext).isSome

/-- The request is accepted, and its path goes on. -/
def State.marbleAcceptStep (s : State) (c : Nat) : State :=
  match (s.core c).marbleNext with
  | some q =>
    ((s.modCore c (fun k => { k with mar := { k.mar with accepting := k.mar.accepting.erase q } })).marbleAccept c q).wake
      c q.warp q.alt
  | none => s

/-- MARBLE_START is due. -/
def State.marbleStartDue (s : State) (c : Nat) : Bool :=
  s.enginesGo c && (((s.core c).marbleServed).isSome
    || (match s.marbleReady c with | some (_, q) => (s.core c).rixKept q.rix | none => false))

/-- The running request of core c, when p holds of it and of the target buffer. -/
def State.marbleRuns (s : State) (c : Nat) (p : MRun → MReq → List W32 → Bool) : Bool :=
  s.enginesGo c
    && (match (s.core c).running with | some (r, q) => r.stage == .run && p r q (s.core c).mar.elems | none => false)

/-- CANDIDATE_COMPLETE is due. -/
def State.candidateDue (s : State) (c : Nat) : Bool := s.marbleRuns c MRun.candidateDue

/-- The candidate in progress completes. -/
def State.candidateStep (s : State) (c : Nat) : State :=
  match (s.core c).running with
  | some (r, q) =>
    match scanDesc r.src with
    | some (seed0, count, _) => s.modRun c (fun r => r.candidate seed0 count q.c (s.core c).mar.elems)
    | none => s
  | none => s

/-- SCAN_DEADLINE is due: candidates that complete by it count first. -/
def State.deadlineDue (s : State) (c : Nat) : Bool :=
  s.marbleRuns c (fun r q t => r.deadlineDue q t && !r.candidateDue q t)

/-- The scan ends by its deadline. -/
def State.deadlineStep (s : State) (c : Nat) : State := s.modRun c (fun r => { r with ended := some 1 })

/-- MARBLE_COMPLETE is due: the run is over, or the banks have served words of the destination. -/
def State.marbleEndDue (s : State) (c : Nat) : Bool :=
  s.marbleRuns c MRun.completeDue
    || (s.enginesGo c && (match (s.core c).mar.run with
      | some r => r.stage == .write && r.left.any (fun w => !(s.core c).marbleAsked.contains w)
      | none => false))

end Sys2Proof.Machine
end

