-- ==== Sys2Proof/Machine/EventsRun.lean ====
section
/-! DEFINITION. Events of the launch scheduler, the governor, the watchdogs and the observation unit, with the order in
which the events of a core are taken (R323 to R336, R383 to R393, R401 to R420). -/

namespace Sys2Proof.Machine

/-! ## The outside (R432, R438) -/

/-- The host reaches the module's registers: it runs, and is not in recovery mode. -/
def State.open_ (s : State) : Bool := s.goes && !s.recovery

/-! ## The launch scheduler (R323, R326, R330, R331, R335, R336) -/

/-- RECORD_ADMIT is due. -/
def State.admitDue (s : State) : Bool := s.open_ && !s.admits.isEmpty && !s.schedBusy

/-- BLOCK_PLACE is due. -/
def State.placeDue (s : State) (c : Nat) : Bool := s.goes && s.placeReady c && !s.schedBusy

/-- The first block of core c that can end. -/
def State.endNext (s : State) (c : Nat) : Option (Nat × Block) :=
  List.find? (fun b : Nat × Block => (b.2.halt == 0 || b.2.dead.isSome) && (s.core c).blockOver b.1 b.2 && s.blockQuiet c b.1 b.2)
    (s.core c).blocks

/-- BLOCK_END is due. -/
def State.endDue (s : State) (c : Nat) : Bool := s.goes && (s.endNext c).isSome && !s.schedBusy

/-- The block ends. -/
def State.endStep (s : State) (c : Nat) : State :=
  match s.endNext c with | some b => s.endBlock c b.1 | none => s

/-- GRID_COMPLETE is due. -/
def State.gridDue (s : State) : Bool := s.goes && (s.gridDone).isSome && !s.schedBusy

/-- The grid completes. -/
def State.gridStep (s : State) : State :=
  match s.gridDone with | some g => s.completeGrid g.1 g.2 | none => s

/-- PREEMPT is due. -/
def State.preemptDue (s : State) (c : Nat) : Bool := s.goes && !(s.preempts c).isEmpty

/-- PREEMPT_HALT_DONE is due. -/
def State.haltDue (s : State) (c : Nat) : Bool := s.goes && (s.haltedBlock c).isSome && !s.schedBusy

/-- The halted block is saved. -/
def State.haltStep (s : State) (c : Nat) : State :=
  match s.haltedBlock c with | some b => s.saveBlock c b.1 b.2 | none => s

/-- ERESET command 1 (R281, R430). -/
def State.mxResetCmd (s : State) (c : Nat) : State := ((s.noteReset c 1).mxReset c).endpaper (quireOf c) 5 c 0 0 0

/-- ERESET command 2 (R342, R343). -/
def State.coreResetCmd (s : State) (c : Nat) : State := ((s.noteReset c 2).coreReset c).resetsOver c

/-- A write of a control register by the host or the management interface: commands of ERESET take effect, others are stored
(R342). -/
def State.controlWrite (s : State) (mgmt : Bool) (off : Nat) (v : W32) : State :=
  let c := (v.extractLsb' 0 10).toNat
  match (if off = 0xF100 then (v.extractLsb' 16 2).toNat else 0) with
  | 1 => if s.open_ && decide (c < 576) then s.mxResetCmd c else s
  | 2 => if s.open_ && decide (c < 576) then s.coreResetCmd c else s
  | _ => s.writeControl mgmt off v

/-! ## The governor and the watchdogs (R389, R404) -/

/-- A new grant or self-limit takes effect at the edge at which this cycle has begun (R383, R387). -/
def State.grantDue (s : State) (c : Nat) : Bool :=
  s.begun c && ((s.core c).gov.grant != s.ctl64 (offCgrant c) || (s.core c).gov.slim.isSome)

/-- Grant and self-limit take effect. -/
def State.grantStep (s : State) (c : Nat) : State := s.modCore c (fun k => k.grantEdge (s.ctl64 (offCgrant c)))

/-- SETTLE_COMPLETE is due. -/
def State.settleDue (s : State) (c : Nat) : Bool := s.begun c && (s.core c).gov.pending

/-- The core runs at its effective point. -/
def State.settleStep (s : State) (c : Nat) : State := s.modCore c (fun k => { k with gov := k.gov.settle })

/-- HANGLIM and MXLIM of a core. -/
def State.hangLim (s : State) (c : Nat) : Nat := (s.ctlAt (offWatch c)).toNat
def State.mxLim (s : State) (c : Nat) : Nat := (s.ctlAt (offWatch c + 4)).toNat

/-- HANG_TIMEOUT is due. -/
def State.hangDue (s : State) (c : Nat) : Bool :=
  s.begun c && s.hangLim c != 0 && decide (s.hangLim c ≤ (s.core c).gov.hang ∧ (s.core c).gov.hang < hangFired)

/-- The hang is reported; the counter stays until progress. -/
def State.hangStep (s : State) (c : Nat) : State :=
  let s := s.modCore c (fun k => { k with gov := { k.gov with hang := hangFired } })
  let s := s.setCtl (offWatch c + 8) (s.ctlAt (offWatch c + 8) ||| 1)
  let s := s.endpaper (quireOf c) 6 c 0 (s.core c).ck.cycle 0
  let v := s.ctlAt (offWatch c + 12)
  if v.getLsbD 31 then { s with irqs := s.irqs ++ [(v.extractLsb' 0 11).toNat] } else s

/-- MXHANG_TIMEOUT is due. -/
def State.mxhangDue (s : State) (c : Nat) : Bool :=
  s.begun c && s.mxLim c != 0 && decide (s.mxLim c ≤ (s.core c).gov.mxhang)

/-- The hang is reported and the matrix engine is reset. -/
def State.mxhangStep (s : State) (c : Nat) : State :=
  let s := s.modCore c (fun k => { k with gov := { k.gov with mxhang := 0 } })
  let s := s.setCtl (offWatch c + 8) (s.ctlAt (offWatch c + 8) ||| 2)
  let s := s.endpaper (quireOf c) 6 c 1 (s.core c).ck.cycle 0
  (s.mxReset c).endpaper (quireOf c) 5 c 1 0 0

/-! ## The events of a core in their order -/

/-- An event of a core: when it is due, and what it does. -/
structure CoreEvent where
  due : State → Nat → Bool
  eff : State → Nat → State

/-- The events that a core takes at the beginning of a cycle, before the test of R393, in this order. -/
def coreEvents : List CoreEvent :=
  [⟨State.grantDue, State.grantStep⟩, ⟨State.walkDue, State.walkStep⟩, ⟨State.atsLate, fun s c => s.answerLate c 1⟩,
   ⟨State.prgLate, fun s c => s.answerLate c 2⟩,
   ⟨State.drainDue, State.drain⟩, ⟨State.promoDue, State.promote⟩,
   ⟨State.remoteDue, State.remoteStep⟩]
  ++ [⟨State.resultDue, State.resultLands⟩,
   ⟨State.interlockedDue, State.interlockedReturn⟩, ⟨State.edgeDue, State.backEdge⟩,
   ⟨State.mergeDue, State.mergeOne⟩, ⟨State.settleDue, State.settleStep⟩,
   ⟨State.returnDue, State.returnStep⟩,
   ⟨State.landDue, State.landStep⟩, ⟨State.errorDue, State.errorStep⟩,
   ⟨State.pageDue, State.pageStep⟩]
  ++ [⟨State.occupancyDue, State.mxEnd⟩, ⟨State.resetOver, State.resetEnd⟩,
   ⟨State.recordDue, State.recordStep⟩,
   ⟨State.candidateDue, State.candidateStep⟩, ⟨State.deadlineDue, State.deadlineStep⟩,
   ⟨State.marbleEndDue, State.marbleComplete⟩, ⟨State.marbleStartDue, State.marbleStart⟩,
   ⟨State.acceptDue, State.acceptStep⟩, ⟨State.marbleAcceptDue, State.marbleAcceptStep⟩,
   ⟨State.kickDue, State.kickAccept⟩,
   ⟨State.pflDue, State.pflStep⟩, ⟨State.freeDue, State.freeRelease⟩,
   ⟨State.allocDue, State.allocGrant⟩]
  ++ [⟨State.folldDue, State.folldDone⟩, ⟨State.shashDue, State.shashStep⟩,
   ⟨State.lineDue, fun s c => s.wakeFound c (s.presentPath c)⟩,
   ⟨State.entryDue, fun s c => s.wakeFound c (s.entriesPath c)⟩,
   ⟨State.readyDue, State.warpReady⟩,
   ⟨State.collapseDue, State.collapse⟩, ⟨State.expandDue, State.expand⟩,
   ⟨State.trapDue, State.trapEntry⟩, ⟨State.faultDue, State.strandFault⟩,
   ⟨State.snapDue, State.snapResume⟩,
   ⟨State.asyncDue, State.asyncTrap⟩]
  ++ [⟨State.hangDue, State.hangStep⟩, ⟨State.mxhangDue, State.mxhangStep⟩,
   ⟨State.deadlockDue, State.deadlock⟩,
   ⟨State.fillerDue, State.unlight⟩, ⟨State.moveDue, State.moveStep⟩]

/-- The events by which an operation in engine order starts. -/
def orderEvents : List CoreEvent := [⟨State.transferDue, State.transferStart⟩, ⟨State.mxDue, State.mxStart⟩]

/-- The first event of a list that is due at a core. -/
def firstDue (s : State) (c : Nat) (l : List CoreEvent) : Option CoreEvent := l.find? (fun e => e.due s c)

/-- The rest of core c's cycle with the events of a list: what the cycle does if it runs. -/
def State.runCycle (l : List CoreEvent) (c : Nat) : Nat → State → State
  | 0, s => s
  | fuel + 1, s =>
    if (s.core c).ck.stage = .done then s
    else
      match firstDue s c l with
      | some e => State.runCycle l c fuel (e.eff s c)
      | none =>
        if (s.core c).ck.stage = .start then State.runCycle l c fuel (s.strandAct c).carry
        else State.runCycle l c fuel (s.simtAct c).carry

/-- Steps that bound what a core does in one cycle. -/
def cycleFuel : Nat := 4096

/-! ## Grants of the slew limiter (R397) -/

/-- Cores of lower position in core c's gathering that a heavy operation which issues in their cycle of this edge will light:
they are granted first. -/
def State.litBefore (s : State) (c : Nat) : Nat :=
  ((List.range (c % 8)).filter (fun i =>
    let j := c / 8 * 8 + i
    s.begun j && !(s.core j).mx.lit && !s.slewWaits j && ((State.runCycle orderEvents j cycleFuel s).core j).mx.lit)).length

/-- SLEW_GRANT is due: the core waits, and the lit cores with those that are granted before it leave room. -/
def State.slewDue (s : State) (c : Nat) : Bool :=
  let g := gatheringOf c
  s.begun c && !s.mxHolds c && s.slewWaits c && s.mayLight c
    && decide (s.litCount g + s.litBefore c < rampAt (s.slewRegs g).1 (SMap.get 0 s.slew g))

/-- The events after the test of R393: what a governed stall keeps from starting. -/
def startEvents : List CoreEvent := ⟨State.slewDue, State.light⟩ :: orderEvents

/-! ## The governed stall (R393) -/

/-- GOVERNED_STALL is due: the cycle would exceed the budget of the window, and the window holds a core part. The core part is
what the cycle would carry if it ran, none in a bank-conflict freeze or a stop; the engine part is that without lane accesses. -/
def State.stallDue (s : State) (c : Nat) : Bool :=
  let k := s.core c
  let b := k.gov.budget
  if b = 0 || !s.begun c || k.ck.stalled || k.ck.aligning || k.ck.last then false
  else
    let w := k.ck.window63
    let ch := ((State.runCycle startEvents c cycleFuel s).charges c).1 + (s.charges c).2
    decide (b < w.1 + ch ∧ 0 < w.2)

/-- The cycle is a governed stall. -/
def State.stallStep (s : State) (c : Nat) : State := s.modClock c (fun k => { k with stalled := true, stage := .done })

/-! ## Precise stops (R413, R417, R418) -/

/-- The cause, tag and extent of the stop that core c meets at the beginning of this cycle. -/
def State.stopNext (s : State) (c : Nat) : Option (Nat × Nat × Bool) :=
  let k := s.core c
  let ctl := s.stopctl c
  if k.obs.stopped then none
  else
    match k.obs.bkpt with
    | some tag => some (3, tag, true)
    | none =>
      if !k.obs.armed then none
      else
        let whole := ctl.getLsbD 2 || ctl.getLsbD 13 || k.strand.isNone
        if ctl.extractLsb' 0 2 = 1 then
          if (s.ctl64 (offObs c + 0x10)).toNat ≤ k.ck.cycle then some (1, 0, whole) else none
        else
          let t := State.runCycle (coreEvents ++ [⟨State.stallDue, State.stallStep⟩] ++ startEvents) c cycleFuel s
          let n := t.stopCounts c
          if n ≠ 0 ∧ (s.ctlAt (offObs c + 0x10)).toNat ≤ k.obs.count + n then some (2, 0, whole) else none

/-- PRECISE_STOP is due. -/
def State.stopDue (s : State) (c : Nat) : Bool := s.begun c && (s.stopNext c).isSome

/-- The stop takes effect. -/
def State.stopStep (s : State) (c : Nat) : State :=
  match s.stopNext c with | some (cause, tag, whole) => s.stopNow c cause tag whole | none => s

/-! ## Samples and the trace buffer (R409, R410, R416) -/

/-- SAMPLE is due: the cycle's decoders are done, and its number is a multiple of SPER. -/
def State.sampleDue (s : State) (c : Nat) : Bool :=
  let k := s.core c
  s.goes && k.ck.stage == .done && decide (k.ck.edge ≤ s.time) && s.obsBit c 0 && s.obsBit c 1 && s.sper c != 0
    && k.ck.cycle % s.sper c == 0 && !k.obs.sampled

/-- BCMCTL.CLR (R423). -/
def State.clearBcm (s : State) (c : Nat) : State := s.modCore c (fun k => { k with obs := { k.obs with bcm := [] } })

/-- OSTAT.DIVERGED is cleared (R407). -/
def State.clearDiverged (s : State) (c : Nat) : State := s.setCtl (offObs c + 0x28) (s.ostat c &&& ~~~0x10000)

/-- DROP_COUNT_EMIT is due. -/
def State.dropDue (s : State) : Bool := s.goes && s.hb.full && decide (s.hb.fill < 512 * 1024) && s.portUp

/-- LOSSLESS_ROOM is due. -/
def State.roomDue (s : State) : Bool := s.goes && (s.roomNext s.hb.waiting []).isSome

/-- TIME_SYNC is due: %time[31:0] is 0 while EN is 1. -/
def State.syncDue (s : State) : Bool :=
  s.goes && (s.ctlAt offHbctl).getLsbD 0 && decide (s.time % 2 ^ 32 = 0) && s.hb.synced != some s.time

/-- The time sync record (R409). -/
def State.syncStep (s : State) : State :=
  let s := s.traceLossless 2 1 2047 [BitVec.ofNat 64 s.time]
  { s with hb := { s.hb with synced := some s.time } }

/-! ## The press and attestation (R432, R441) -/

/-- PRESS_EDGE is due. -/
def State.pressDue (s : State) : Bool := s.goes && (match s.press.at_ with | some t => decide (t ≤ s.time) | none => false)

/-- PRESS_RELEASE_EDGE is due: %time stands at the press edge, a multiple of 36. -/
def State.releaseEdgeDue (s : State) : Bool := s.boot.powered && s.press.pressed && s.press.releasing

/-- ATTEST_DONE is due. -/
def State.attestDue (s : State) : Bool := s.goes && (match s.boot.signing with | some t => decide (t ≤ s.time) | none => false)

end Sys2Proof.Machine
end

