-- ==== Sys2Proof/Machine/Events.lean ====
section
/-! DEFINITION. The meanings of the events of the opcode table, one for each constructor. An event that is not due, or
that comes from outside while the module cannot take it, changes nothing (assumption 17). -/

namespace Sys2Proof.Machine

/-- An event takes effect when it is due, and changes nothing otherwise. -/
@[inline] def whenDue (due : Bool) (t s : State) : Host.Outcome State Fault Refusal := .next (if due then t else s)

/-- A fixed-latency result is written when its latency count expires. (R128) -/
def execResultLands (c : Nat) (s : State) : Host.Outcome State Fault Refusal :=
  whenDue (s.resultDue c) (s.resultLands c) s

/-- A variable-latency result returns and lands, releasing parked or frozen readers. (R151) -/
def execInterlockedResultReturn (c : Nat) (s : State) : Host.Outcome State Fault Refusal :=
  whenDue (s.interlockedDue c) (s.interlockedReturn c) s

/-- A scratchpad line becomes present again and parked loads read the landed bytes. (R169) -/
def execLinePresent (c : Nat) (s : State) : Host.Outcome State Fault Refusal :=
  whenDue (s.lineDue c) (s.wakeFound c (s.presentPath c)) s

/-- Outstanding-request entries free up and a parked global access issues whole. (R180) -/
def execRequestEntryFree (c : Nat) (s : State) : Host.Outcome State Fault Refusal :=
  whenDue (s.entryDue c) (s.wakeFound c (s.entriesPath c)) s

/-- The write buffer delivers a store to its home L2 in issue order. (R170) -/
def execWriteBufferDrain (c : Nat) (s : State) : Host.Outcome State Fault Refusal :=
  whenDue (s.drainDue c) (s.drain c) s

/-- A remote-acquire promotion request reaches a core, which drains its write buffer at device scope and acknowledges. (R183) -/
def execPromotionRequest (c : Nat) (s : State) : Host.Outcome State Fault Refusal :=
  whenDue (s.promoDue c) (s.promote c) s

/-- An atomic arrives at its home L2 slice and is performed in the slice's arbitration order. (R174) -/
def execSliceAtomic (sl : Nat) (s : State) : Host.Outcome State Fault Refusal :=
  whenDue (s.sliceDue sl) (s.sliceStep sl) s

/-- A remote scratchpad access from a gathering core arrives at the target core's banks. (R167) -/
def execRemoteScratchAccess (c : Nat) (s : State) : Host.Outcome State Fault Refusal :=
  whenDue (s.remoteDue c) (s.remoteStep c) s

/-- A parked path becomes ready once its park reason clears. (R126) -/
def execWarpReady (c : Nat) (s : State) : Host.Outcome State Fault Refusal :=
  whenDue (s.readyDue c) (s.warpReady c) s

/-- At the last body instruction or LEND bundle the loop decrements or closes, rotating stage predicates. (R142) -/
def execLoopBackEdge (c : Nat) (s : State) : Host.Outcome State Fault Refusal :=
  whenDue (s.edgeDue c) (s.backEdge c) s

/-- Arrival at a reconvergence point frees a slot, fills it from the deferred path or pops the record. (R133) -/
def execReconvergeMerge (c : Nat) (s : State) : Host.Outcome State Fault Refusal :=
  whenDue (s.mergeDue c) (s.mergeOne c) s

/-- A folio image finishes loading, becomes resident and the path continues. (R120) -/
def execFolldComplete (c : Nat) (s : State) : Host.Outcome State Fault Refusal :=
  whenDue (s.folldDue c) (s.folldDone c) s

/-- A parked collapse finds its clusters free and the strand's first bundle issues 4 cycles later. (R146) -/
def execCollapseComplete (c : Nat) (s : State) : Host.Outcome State Fault Refusal :=
  whenDue (s.collapseDue c) (s.collapse c) s

/-- The strand's results land and the clusters return to the warp. (R148) -/
def execExpandComplete (c : Nat) (s : State) : Host.Outcome State Fault Refusal :=
  whenDue (s.expandDue c) (s.expand c) s

/-- A fault reported after a bundle issued freezes the strand by snapshot at the next bundle boundary. (R158) -/
def execStrandFaultFreeze (c : Nat) (s : State) : Host.Outcome State Fault Refusal :=
  whenDue (s.faultDue c) (s.strandFault c) s

/-- A snapshotted strand resumes and its captured results land after their remaining latencies. (R156) -/
def execStrandSnapshotResume (c : Nat) (s : State) : Host.Outcome State Fault Refusal :=
  whenDue (s.snapDue c) (s.snapResume c) s

/-- After outstanding results land, the warp enters its role's handler with banked registers and privilege. (R159) -/
def execTrapEntry (c : Nat) (s : State) : Host.Outcome State Fault Refusal :=
  whenDue (s.trapDue c) (s.trapEntry c) s

/-- A pending asynchronous cause enters the handler at the next instruction boundary. (R159) -/
def execAsyncTrapDelivery (c : Nat) (s : State) : Host.Outcome State Fault Refusal :=
  whenDue (s.asyncDue c) (s.asyncTrap c) s

/-- Every member core asserts arrival and the kettle line rises, fixing the release edge. (R164) -/
def execKettleLineRise (l : Nat) (s : State) : Host.Outcome State Fault Refusal :=
  whenDue (s.riseDue l) (s.lineRise l) s

/-- On the release edge all member cores begin a new cycle and their waiters issue. (R164) -/
def execKettleRelease (l : Nat) (s : State) : Host.Outcome State Fault Refusal :=
  whenDue (s.releaseDue l) (s.lineRelease l) s

/-- A parked engine request obtains a queue slot and clasp entries, registers them, clears presence and adds its count. (R226) -/
def execCopyAccept (c : Nat) (s : State) : Host.Outcome State Fault Refusal :=
  whenDue (s.acceptDue c) (s.acceptStep c) s

/-- The copy engine reads the next KICK list entry and accepts it, or ends the list on a request error. (R231) -/
def execKickEntryAccept (c : Nat) (s : State) : Host.Outcome State Fault Refusal :=
  whenDue (s.kickDue c) (s.kickAccept c) s

/-- The copy engine moves one 128-byte line into or out of a local store. (R214) -/
def execCopyLineMove (c : Nat) (s : State) : Host.Outcome State Fault Refusal :=
  whenDue (s.moveDue c) (s.moveStep c) s

/-- A copy engine global line request returns its data. (R214) -/
def execCopyGlobalReturn (c : Nat) (s : State) : Host.Outcome State Fault Refusal :=
  whenDue (s.returnDue c) (s.returnStep c) s

/-- Request bytes land and are subtracted from the barrier object's pending bytes. (R234) -/
def execCopyBytesLand (c : Nat) (s : State) : Host.Outcome State Fault Refusal :=
  whenDue (s.landDue c) (s.landStep c) s

/-- A copy request fails at an element, counts its remaining bytes as landed and records the error. (R241) -/
def execRequestError (c : Nat) (s : State) : Host.Outcome State Fault Refusal :=
  whenDue (s.errorDue c) (s.errorStep c) s

/-- A prefetched line becomes present in its home L2 or is skipped. (R232) -/
def execPfl2LineDone (c : Nat) (s : State) : Host.Outcome State Fault Refusal :=
  whenDue (s.pflDue c) (s.pflStep c) s

/-- An engine request waiting on a host page request continues. (R242) -/
def execPageWaitResume (c : Nat) (s : State) : Host.Outcome State Fault Refusal :=
  whenDue (s.pageDue c) (s.pageStep c) s

/-- The next MX instruction in engine order starts when its predecessor's occupancy ends. (R268) -/
def execMxStart (c : Nat) (s : State) : Host.Outcome State Fault Refusal :=
  whenDue (s.mxDue c) (s.mxStart c) s

/-- An MX instruction's occupancy count expires and its bank or table result is written. (R268) -/
def execMxOccupancyEnd (c : Nat) (s : State) : Host.Outcome State Fault Refusal :=
  whenDue (s.occupancyDue c) (s.mxEnd c) s

/-- At MMSG start the generator reads and checks the tile record, waiting on absent lines. (R293) -/
def execMmsgRecordRead (c : Nat) (s : State) : Host.Outcome State Fault Refusal :=
  whenDue (s.recordDue c) (s.recordStep c) s

/-- The head of the ACCALLOC queue finds enough free banks, which are mapped and zero-filled. (R261) -/
def execAccallocGrant (c : Nat) (s : State) : Host.Outcome State Fault Refusal :=
  whenDue (s.allocDue c) (s.allocGrant c) s

/-- After earlier MX instructions and copies on the banks complete, the banks become free. (R262) -/
def execAccfreeRelease (c : Nat) (s : State) : Host.Outcome State Fault Refusal :=
  whenDue (s.freeDue c) (s.freeRelease c) s

/-- After 1,024 cycles of accumulator deadlock the engine evicts the lowest-priority last-placed block. (R277) -/
def execAccDeadlock (c : Nat) (s : State) : Host.Outcome State Fault Refusal :=
  whenDue (s.deadlockDue c) (s.deadlock c) s

/-- The 256-cycle matrix engine reset ends and waiting MX instructions start on the reset state. (R280) -/
def execMxResetEnd (c : Nat) (s : State) : Host.Outcome State Fault Refusal :=
  whenDue (s.resetOver c) (s.resetEnd c) s

/-- A bank transfer copies a bank into the marbling target buffer in engine order. (R298) -/
def execBankTransfer (c : Nat) (s : State) : Host.Outcome State Fault Refusal :=
  whenDue (s.transferDue c) (s.transferStart c) s

/-- A parked marbling request obtains the target buffer, a slot and clasp entries and is enqueued. (R297) -/
def execMarbleAccept (c : Nat) (s : State) : Host.Outcome State Fault Refusal :=
  whenDue (s.marbleAcceptDue c) (s.marbleAcceptStep c) s

/-- A marbling request starts after the previous completes and reads its sources. (R300) -/
def execMarbleStart (c : Nat) (s : State) : Host.Outcome State Fault Refusal :=
  whenDue (s.marbleStartDue c) (s.marbleStart c) s

/-- A marbling request's run time expires and it writes its destination. (R300) -/
def execMarbleComplete (c : Nat) (s : State) : Host.Outcome State Fault Refusal :=
  whenDue (s.marbleEndDue c) (s.marbleComplete c) s

/-- A SEEDSCAN candidate's run time ends and it may become BEST. (R309) -/
def execCandidateComplete (c : Nat) (s : State) : Host.Outcome State Fault Refusal :=
  whenDue (s.candidateDue c) (s.candidateStep c) s

/-- The scan's deadline count expires, abandoning any candidate in progress and writing the result. (R310) -/
def execScanDeadline (c : Nat) (s : State) : Host.Outcome State Fault Refusal :=
  whenDue (s.deadlineDue c) (s.deadlineStep c) s

/-- A host write of a queue's write pointer makes records visible for admission. (R319) -/
def execQwpWrite (q : Nat) (v : W32) (s : State) : Host.Outcome State Fault Refusal :=
  whenDue (s.open_) (s.writeQwp q v) s

/-- A host write of queue control enables or configures a queue. (R317) -/
def execQctlWrite (q : Nat) (v : W32) (s : State) : Host.Outcome State Fault Refusal :=
  whenDue (s.open_) (s.writeQctl q v) s

/-- A host write of 1 clears queue status bits. (R318) -/
def execQstatClear (q : Nat) (v : W32) (s : State) : Host.Outcome State Fault Refusal :=
  whenDue (s.open_) (s.clearQstat q v) s

/-- The scheduler reads and checks a launch record and assigns every block to a core. (R323) -/
def execRecordAdmit (s : State) : Host.Outcome State Fault Refusal :=
  whenDue (s.admitDue) (s.admitOne) s

/-- The first block of a core's waiting list fits and is placed, loading folios and starting warps. (R326) -/
def execBlockPlace (c : Nat) (s : State) : Host.Outcome State Fault Refusal :=
  whenDue (s.placeDue c) (s.placeFirst c) s

/-- A block ends once threads have exited and requests completed, returning its resources. (R330) -/
def execBlockEnd (c : Nat) (s : State) : Host.Outcome State Fault Refusal :=
  whenDue (s.endDue c) (s.endStep c) s

/-- The last block ends, membership is cleared, the completion record is written and an interrupt raised. (R331) -/
def execGridComplete (s : State) : Host.Outcome State Fault Refusal :=
  whenDue (s.gridDue) (s.gridStep) s

/-- A priority-3 pre-empting block that does not fit causes lower-priority blocks to be halted. (R335) -/
def execPreempt (c : Nat) (s : State) : Host.Outcome State Fault Refusal :=
  whenDue (s.preemptDue c) (s.preempt c) s

/-- No path of the halted block issues any longer and its save begins. (R336) -/
def execPreemptHaltDone (c : Nat) (s : State) : Host.Outcome State Fault Refusal :=
  whenDue (s.haltDue c) (s.haltStep c) s

/-- ERESET command 1 resets one core's matrix engine. (R281) -/
def execMxResetCmd (c : Nat) (s : State) : Host.Outcome State Fault Refusal :=
  whenDue (s.open_) (s.mxResetCmd c) s

/-- ERESET command 2 resets a core, ending its resident blocks. (R343) -/
def execCoreResetCmd (c : Nat) (s : State) : Host.Outcome State Fault Refusal :=
  whenDue (s.open_) (s.coreResetCmd c) s

/-- The quire walker reads directory and table entries and ends in a translation or a fault. (R350) -/
def execWalk (c : Nat) (s : State) : Host.Outcome State Fault Refusal :=
  whenDue (s.walkDue c) (s.walkStep c) s

/-- An ATS translation completion arrives and the access proceeds, requests a page or faults. (R368) -/
def execAtsCompletion (c : Nat) (r : AtsAnswer) (s : State) : Host.Outcome State Fault Refusal :=
  whenDue (s.atsDue c) (s.atsStep c r) s

/-- No ATS completion within 2^36 ticks faults the access with reason 2. (R368) -/
def execAtsTimeout (c : Nat) (s : State) : Host.Outcome State Fault Refusal :=
  whenDue (s.atsLate c) (s.answerLate c 1) s

/-- The host's page request group response arrives and retranslation or a fault follows. (R369) -/
def execPrgResponse (c : Nat) (r : PrgAnswer) (s : State) : Host.Outcome State Fault Refusal :=
  whenDue (s.prgDue c) (s.prgStep c r) s

/-- No page request response within 2^36 ticks faults the access. (R369) -/
def execPageRequestTimeout (c : Nat) (s : State) : Host.Outcome State Fault Refusal :=
  whenDue (s.prgLate c) (s.answerLate c 2) s

/-- A host ATS invalidation request removes host translations by the sweep rule. (R370) -/
def execHostAtsInvalidate (pasid : Option Nat) (va : W64) (pages : Nat) (s : State) : Host.Outcome State Fault Refusal :=
  whenDue (s.open_) (s.atsInval pasid va pages) s

/-- No covered access remains in flight and the invalidation completes. (R364) -/
def execInvalidationComplete (s : State) : Host.Outcome State Fault Refusal :=
  whenDue (s.invalDue) (s.invalStep) s

/-- TINVC go with mode 0 starts a page invalidation. (R348) -/
def execHostInvPage (pasid : Nat) (s : State) : Host.Outcome State Fault Refusal :=
  whenDue (s.open_) (s.hostInval 0 pasid) s

/-- TINVC go with mode 1 starts a range invalidation. (R348) -/
def execHostInvRange (pasid : Nat) (s : State) : Host.Outcome State Fault Refusal :=
  whenDue (s.open_) (s.hostInval 1 pasid) s

/-- TINVC go with mode 2 invalidates one PASID. (R348) -/
def execHostInvPasid (pasid : Nat) (s : State) : Host.Outcome State Fault Refusal :=
  whenDue (s.open_) (s.hostInval 2 pasid) s

/-- TINVC go with mode 3 invalidates every PASID. (R348) -/
def execHostInvAll (s : State) : Host.Outcome State Fault Refusal :=
  whenDue (s.open_) (s.hostInval 3 0) s

/-- A host or peer access to module memory is performed at its home slice at system scope. (R372) -/
def execHostHostAccess (peer : Bool) (op : OuterOp) (pa : Nat) (s : State) : Host.Outcome State Fault Refusal :=
  whenDue (s.open_) (s.outerAccess peer op pa) s

/-- A host completion reports an error after the access, giving all-ones or dropping the write. (R371) -/
def execHostCompletionError (c : Nat) (s : State) : Host.Outcome State Fault Refusal :=
  whenDue (s.goes) (s.outerError c false) s

/-- The links lose a peer access, giving all-ones or dropping the write. (R374) -/
def execPeerLoss (c : Nat) (s : State) : Host.Outcome State Fault Refusal :=
  whenDue (s.goes) (s.outerError c true) s

/-- A write of a core's grant register takes effect at the next cycle edge. (R383) -/
def execCgrantWrite (c : Nat) (v : W64) (s : State) : Host.Outcome State Fault Refusal :=
  whenDue (s.open_) (s.writeCgrant c v) s

/-- The settling count reaches zero and the core runs at the effective point. (R389) -/
def execSettleComplete (c : Nat) (s : State) : Host.Outcome State Fault Refusal :=
  whenDue (s.settleDue c) (s.settleStep c) s

/-- The energy window test stalls a cycle, freezing issue while engines run. (R393) -/
def execGovernedStall (c : Nat) (s : State) : Host.Outcome State Fault Refusal :=
  whenDue (s.stallDue c) (s.stallStep c) s

/-- At a step boundary every 40 ticks the slew limiter updates its level. (R396) -/
def execSlewStep (s : State) : Host.Outcome State Fault Refusal :=
  whenDue (s.slewStepDue) (s.slewStep) s

/-- A waiting heavy operation is granted, lighting its core and starting. (R397) -/
def execSlewGrant (c : Nat) (s : State) : Host.Outcome State Fault Refusal :=
  whenDue (s.slewDue c) (s.light c) s

/-- The 16 filler cycles end and the core is no longer lit. (R398) -/
def execFillerEnd (c : Nat) (s : State) : Host.Outcome State Fault Refusal :=
  whenDue (s.fillerDue c) (s.unlight c) s

/-- A write of SLEWCTL or SLEWRAMP takes effect at the next step boundary. (R399) -/
def execSlewWrite (g : Nat) (hi : Bool) (isCtl : Bool) (v : W32) (s : State) : Host.Outcome State Fault Refusal :=
  whenDue (s.open_) (s.writeSlew g hi isCtl v) s

/-- The core hang counter reaches HANGLIM, setting status and raising an event. (R404) -/
def execHangTimeout (c : Nat) (s : State) : Host.Outcome State Fault Refusal :=
  whenDue (s.hangDue c) (s.hangStep c) s

/-- The MX hang counter reaches MXLIM and the matrix engine is reset. (R404) -/
def execMxhangTimeout (c : Nat) (s : State) : Host.Outcome State Fault Refusal :=
  whenDue (s.mxhangDue c) (s.mxhangStep c) s

/-- A write of 1 clears watchdog status bits. (R401) -/
def execWstatClear (c : Nat) (v : W32) (s : State) : Host.Outcome State Fault Refusal :=
  whenDue (s.open_) (s.clearWstat c v) s

/-- STOPCTL write with MODE 1 arms a stop at a cycle value. (R417) -/
def execStopArmCycle (c : Nat) (v : W32) (s : State) : Host.Outcome State Fault Refusal :=
  whenDue (s.open_) (s.writeStopctl c v 1) s

/-- STOPCTL write with MODE 2 arms a stop at the n-th issue of an instruction or bundle. (R417) -/
def execStopArmCount (c : Nat) (v : W32) (s : State) : Host.Outcome State Fault Refusal :=
  whenDue (s.open_) (s.writeStopctl c v 2) s

/-- STOPCTL write with MODE 0 disarms an armed stop. (R417) -/
def execStopDisarm (c : Nat) (v : W32) (s : State) : Host.Outcome State Fault Refusal :=
  whenDue (s.open_) (s.writeStopctl c v 0) s

/-- STOPCTL RESUME resumes a stopped core or strand after its dump is accepted. (R419) -/
def execStopResume (c : Nat) (s : State) : Host.Outcome State Fault Refusal :=
  whenDue (s.open_) (s.writeResume c) s

/-- An armed stop fires, freezing by snapshot and emitting the stop dump. (R418) -/
def execPreciseStop (c : Nat) (s : State) : Host.Outcome State Fault Refusal :=
  whenDue (s.stopDue c) (s.stopStep c) s

/-- A cycle that is a multiple of SPER produces a sample record per decoder. (R416) -/
def execSample (c : Nat) (s : State) : Host.Outcome State Fault Refusal :=
  whenDue (s.sampleDue c) (s.sampleCycle c) s

/-- BCMCTL CLR zeroes the live bank-conflict matrix. (R423) -/
def execBcmClear (c : Nat) (s : State) : Host.Outcome State Fault Refusal :=
  whenDue (s.open_) (s.clearBcm c) s

/-- A write of 1 clears OSTAT DIVERGED. (R407) -/
def execDivergedClear (c : Nat) (s : State) : Host.Outcome State Fault Refusal :=
  whenDue (s.open_) (s.clearDiverged c) s

/-- A write of OBSCTL sets the enables and, when HMODE changes, resets the store hashes. (R428) -/
def execObsctlWrite (c : Nat) (v : W32) (s : State) : Host.Outcome State Fault Refusal :=
  whenDue (s.open_) (s.writeObsctl c v) s

/-- HBCTL FLUSH emits pending drop counts and partial log chunks. (R410) -/
def execHeadbandFlush (s : State) : Host.Outcome State Fault Refusal :=
  whenDue (s.open_) (s.flushTrace) s

/-- A write of HBCTL EN enables or disables the headband port. (R453) -/
def execHeadbandEnable (en : Bool) (s : State) : Host.Outcome State Fault Refusal :=
  whenDue (s.open_) (s.enableTrace en) s

/-- The buffer fill falls below 512 KiB and drop-count records are placed. (R410) -/
def execDropCountEmit (s : State) : Host.Outcome State Fault Refusal :=
  whenDue (s.dropDue) (s.dropCounts) s

/-- Room in the record buffer frees a waiting lossless source. (R410) -/
def execLosslessRoom (s : State) : Host.Outcome State Fault Refusal :=
  whenDue (s.roomDue) (s.placeWaiting) s

/-- The spine emits a time sync record when %time[31:0] is zero. (R409) -/
def execTimeSync (s : State) : Host.Outcome State Fault Refusal :=
  whenDue (s.syncDue) (s.syncStep) s

/-- RPMODE write 0 turns a slice's replay off, emitting the pending chunk if recording. (R425) -/
def execRpmodeOff (sl : Nat) (s : State) : Host.Outcome State Fault Refusal :=
  whenDue (s.open_) (s.setRpmode sl 0) s

/-- RPMODE write 1 starts an empty arbitration log. (R425) -/
def execRpmodeRecord (sl : Nat) (s : State) : Host.Outcome State Fault Refusal :=
  whenDue (s.open_) (s.setRpmode sl 1) s

/-- RPMODE write 2 starts replay from the log's first chunk. (R425) -/
def execRpmodeReplay (sl : Nat) (s : State) : Host.Outcome State Fault Refusal :=
  whenDue (s.open_) (s.setRpmode sl 2) s

/-- A partial RLOG record is sent 2^20 slice cycles after its first chunk closed. (R426) -/
def execRlogPartialFlush (sl : Nat) (s : State) : Host.Outcome State Fault Refusal :=
  whenDue (s.rlogDue sl) (s.rlogFlush sl) s

/-- An atomic waits GTIMEOUT at the order gate, which passes everything and raises REPLAY_DIVERGE. (R427) -/
def execGateTimeout (sl : Nat) (s : State) : Host.Outcome State Fault Refusal :=
  whenDue (s.gateDue sl) (s.gateGive sl) s

/-- The path's earlier writes retire and SHASH writes the hash and checks or records it. (R429) -/
def execShashRetire (c : Nat) (s : State) : Host.Outcome State Fault Refusal :=
  whenDue (s.shashDue c) (s.shashStep c) s

/-- Assertion of the press pin requests a module press. (R432) -/
def execPressPinAssert (s : State) : Host.Outcome State Fault Refusal :=
  whenDue (s.boot.powered) (s.pinAssert) s

/-- Deassertion of the press pin withdraws a pending request or releases a pin press. (R432) -/
def execPressPinDeassert (s : State) : Host.Outcome State Fault Refusal :=
  whenDue (s.boot.powered) (s.pinDeassert) s

/-- PRESSCTL PRESS requests a press. (R433) -/
def execPressCmd (s : State) : Host.Outcome State Fault Refusal :=
  whenDue (s.boot.powered) (s.pressAsk) s

/-- PRESSCTL RELEASE releases a press. (R433) -/
def execPressReleaseCmd (s : State) : Host.Outcome State Fault Refusal :=
  whenDue (s.boot.powered) (s.pressRelease) s

/-- On the chosen tick edge every clock and counter stops and memory self-refreshes. (R432) -/
def execPressEdge (s : State) : Host.Outcome State Fault Refusal :=
  whenDue (s.pressDue) (s.pressBegin) s

/-- On the release edge every clock and counter resumes from its value. (R432) -/
def execPressReleaseEdge (s : State) : Host.Outcome State Fault Refusal :=
  whenDue (s.releaseEdgeDue) (s.pressEnd) s

/-- Periodic DRAM refresh occupies a stack bank above all accesses. (R345) It changes no architectural state: memory keeps its contents, and only timing is concerned. -/
def execDramRefresh (_stk : Nat) (s : State) : Host.Outcome State Fault Refusal := .next s

/-- A memory ECC scrub deferred 1 ms is forced ahead of accesses. (R345) It changes no architectural state: memory keeps its contents, and only timing is concerned. -/
def execEccScrubForced (_stk : Nat) (s : State) : Host.Outcome State Fault Refusal := .next s

/-- Power good starts the boot sequence from step 1. (R436) -/
def execPowerOn (err : Nat) (s : State) : Host.Outcome State Fault Refusal :=
  .next (s.powerOn err)

/-- MRESET or a management command ends every block and re-runs boot steps 3 to 7. (R435) -/
def execWarmReset (memKept : Bool) (err : Nat) (s : State) : Host.Outcome State Fault Refusal :=
  .next (s.warmReset memKept err)

/-- ATTCTL GO starts signing an attestation report over the nonce. (R441) -/
def execAttestGo (s : State) : Host.Outcome State Fault Refusal :=
  whenDue (s.goes) (s.attestBegin) s

/-- The attestation report is signed and DONE or EXH is set. (R441) -/
def execAttestDone (s : State) : Host.Outcome State Fault Refusal :=
  whenDue (s.attestDue) (s.attestEnd) s

/-- A host or management write to a control register without behaviour of its own stores the value. (R4) -/
def execControlRegisterWrite (off : Nat) (v : CtlWrite) (s : State) : Host.Outcome State Fault Refusal :=
  whenDue (s.goes) (s.controlWrite v.mgmt off v.val) s

/-- A QSUB's record write into the queue array completes and, once every lower ticket has advanced QWP, QWP advances to ticket plus one. (R329) -/
def execQsubRecordWritten (q : Nat) (s : State) : Host.Outcome State Fault Refusal :=
  whenDue (s.qsubDue q) (s.qsubStep q) s

/-- A host write of the endpoint's PCI Express configuration space enables PASID, ATS and PRI, or re-enables PRI after a Response Failure. (R366) -/
def execConfigurationSpaceWrite (pasidEn atsEn priEn : Bool) (s : State) : Host.Outcome State Fault Refusal :=
  whenDue (s.goes) (s.writeConfig pasidEn atsEn priEn) s

/-- Loss of the module supply ends all activity and discards the identity seed, memory contents and endpaper record, while the flash and its leaf counter persist. (R440) -/
def execPowerLoss (s : State) : Host.Outcome State Fault Refusal :=
  .next (s.losePower)

end Sys2Proof.Machine
end

