-- ==== Sys2Proof/Machine/Dispatch.lean ====
section
/-! DEFINITION. The dispatcher: one arm for each constructor of Instr. -/

namespace Sys2Proof.Machine

/-- What the instruction or event i does to the module (one meaning for each constructor). -/
def exec (i : Instr) (s : State) : Host.Outcome State Fault Refusal :=
  match i with
  | .mov f => Sys2Proof.Machine.execMov f s
  | .bundle hdr slots => Sys2Proof.Machine.execBundle hdr slots s
  | .iadd f => Sys2Proof.Machine.execIadd f s
  | .iaddI f => Sys2Proof.Machine.execIaddI f s
  | .isub f => Sys2Proof.Machine.execIsub f s
  | .isubI f => Sys2Proof.Machine.execIsubI f s
  | .imul f => Sys2Proof.Machine.execImul f s
  | .imulI f => Sys2Proof.Machine.execImulI f s
  | .imulh f => Sys2Proof.Machine.execImulh f s
  | .imulhI f => Sys2Proof.Machine.execImulhI f s
  | .imad f => Sys2Proof.Machine.execImad f s
  | .idiv f => Sys2Proof.Machine.execIdiv f s
  | .idivI f => Sys2Proof.Machine.execIdivI f s
  | .irem f => Sys2Proof.Machine.execIrem f s
  | .iremI f => Sys2Proof.Machine.execIremI f s
  | .imin f => Sys2Proof.Machine.execImin f s
  | .iminI f => Sys2Proof.Machine.execIminI f s
  | .imax f => Sys2Proof.Machine.execImax f s
  | .imaxI f => Sys2Proof.Machine.execImaxI f s
  | .iabs f => Sys2Proof.Machine.execIabs f s
  | .ineg f => Sys2Proof.Machine.execIneg f s
  | .iadds f => Sys2Proof.Machine.execIadds f s
  | .iaddsI f => Sys2Proof.Machine.execIaddsI f s
  | .isad f => Sys2Proof.Machine.execIsad f s
  | .idot4 f => Sys2Proof.Machine.execIdot4 f s
  | .and f => Sys2Proof.Machine.execAnd f s
  | .andI f => Sys2Proof.Machine.execAndI f s
  | .or f => Sys2Proof.Machine.execOr f s
  | .orI f => Sys2Proof.Machine.execOrI f s
  | .xor f => Sys2Proof.Machine.execXor f s
  | .xorI f => Sys2Proof.Machine.execXorI f s
  | .andn f => Sys2Proof.Machine.execAndn f s
  | .andnI f => Sys2Proof.Machine.execAndnI f s
  | .not f => Sys2Proof.Machine.execNot f s
  | .shl f => Sys2Proof.Machine.execShl f s
  | .shlI f => Sys2Proof.Machine.execShlI f s
  | .shr f => Sys2Proof.Machine.execShr f s
  | .shrI f => Sys2Proof.Machine.execShrI f s
  | .sar f => Sys2Proof.Machine.execSar f s
  | .sarI f => Sys2Proof.Machine.execSarI f s
  | .rotl f => Sys2Proof.Machine.execRotl f s
  | .rotlI f => Sys2Proof.Machine.execRotlI f s
  | .funnel f => Sys2Proof.Machine.execFunnel f s
  | .bfx f => Sys2Proof.Machine.execBfx f s
  | .bfi f => Sys2Proof.Machine.execBfi f s
  | .popc f => Sys2Proof.Machine.execPopc f s
  | .clz f => Sys2Proof.Machine.execClz f s
  | .ctz f => Sys2Proof.Machine.execCtz f s
  | .brev f => Sys2Proof.Machine.execBrev f s
  | .bshuf f => Sys2Proof.Machine.execBshuf f s
  | .lea f => Sys2Proof.Machine.execLea f s
  | .leaI f => Sys2Proof.Machine.execLeaI f s
  | .icmp f => Sys2Proof.Machine.execIcmp f s
  | .icmpI f => Sys2Proof.Machine.execIcmpI f s
  | .isel f => Sys2Proof.Machine.execIsel f s
  | .plop f => Sys2Proof.Machine.execPlop f s
  | .movh f => Sys2Proof.Machine.execMovh f s
  | .movhI f => Sys2Proof.Machine.execMovhI f s
  | .movi f => Sys2Proof.Machine.execMovi f s
  | .vote f => Sys2Proof.Machine.execVote f s
  | .rdlane f => Sys2Proof.Machine.execRdlane f s
  | .rdlaneI f => Sys2Proof.Machine.execRdlaneI f s
  | .find1 f => Sys2Proof.Machine.execFind1 f s
  | .cvti f => Sys2Proof.Machine.execCvti f s
  | .iredw f => Sys2Proof.Machine.execIredw f s
  | .clamp f => Sys2Proof.Machine.execClamp f s
  | .fadd f => Sys2Proof.Machine.execFadd f s
  | .faddI f => Sys2Proof.Machine.execFaddI f s
  | .fsub f => Sys2Proof.Machine.execFsub f s
  | .fsubI f => Sys2Proof.Machine.execFsubI f s
  | .fmul f => Sys2Proof.Machine.execFmul f s
  | .fmulI f => Sys2Proof.Machine.execFmulI f s
  | .ffma f => Sys2Proof.Machine.execFfma f s
  | .fnma f => Sys2Proof.Machine.execFnma f s
  | .fmin f => Sys2Proof.Machine.execFmin f s
  | .fminI f => Sys2Proof.Machine.execFminI f s
  | .fmax f => Sys2Proof.Machine.execFmax f s
  | .fmaxI f => Sys2Proof.Machine.execFmaxI f s
  | .fabs f => Sys2Proof.Machine.execFabs f s
  | .fneg f => Sys2Proof.Machine.execFneg f s
  | .fcmp f => Sys2Proof.Machine.execFcmp f s
  | .fcmpI f => Sys2Proof.Machine.execFcmpI f s
  | .fclass f => Sys2Proof.Machine.execFclass f s
  | .frint f => Sys2Proof.Machine.execFrint f s
  | .fcvt f => Sys2Proof.Machine.execFcvt f s
  | .f2i f => Sys2Proof.Machine.execF2i f s
  | .i2f f => Sys2Proof.Machine.execI2f f s
  | .fdot2 f => Sys2Proof.Machine.execFdot2 f s
  | .fredw f => Sys2Proof.Machine.execFredw f s
  | .fsetmode f => Sys2Proof.Machine.execFsetmode f s
  | .fgetmode f => Sys2Proof.Machine.execFgetmode f s
  | .fflags f => Sys2Proof.Machine.execFflags f s
  | .fflagsClr f => Sys2Proof.Machine.execFflagsClr f s
  | .fscale f => Sys2Proof.Machine.execFscale f s
  | .fscaleI f => Sys2Proof.Machine.execFscaleI f s
  | .rcp f => Sys2Proof.Machine.execRcp f s
  | .rsq f => Sys2Proof.Machine.execRsq f s
  | .sqrt f => Sys2Proof.Machine.execSqrt f s
  | .ex2 f => Sys2Proof.Machine.execEx2 f s
  | .lg2 f => Sys2Proof.Machine.execLg2 f s
  | .sinpi f => Sys2Proof.Machine.execSinpi f s
  | .cospi f => Sys2Proof.Machine.execCospi f s
  | .tanh f => Sys2Proof.Machine.execTanh f s
  | .sigm f => Sys2Proof.Machine.execSigm f s
  | .fdiv f => Sys2Proof.Machine.execFdiv f s
  | .ld f => Sys2Proof.Machine.execLd f s
  | .ldI f => Sys2Proof.Machine.execLdI f s
  | .st f => Sys2Proof.Machine.execSt f s
  | .stI f => Sys2Proof.Machine.execStI f s
  | .ldw f => Sys2Proof.Machine.execLdw f s
  | .ldwI f => Sys2Proof.Machine.execLdwI f s
  | .ldAcq f => Sys2Proof.Machine.execLdAcq f s
  | .ldAcqI f => Sys2Proof.Machine.execLdAcqI f s
  | .stRel f => Sys2Proof.Machine.execStRel f s
  | .stRelI f => Sys2Proof.Machine.execStRelI f s
  | .atom f => Sys2Proof.Machine.execAtom f s
  | .cas f => Sys2Proof.Machine.execCas f s
  | .red f => Sys2Proof.Machine.execRed f s
  | .atomX f => Sys2Proof.Machine.execAtomX f s
  | .casX f => Sys2Proof.Machine.execCasX f s
  | .fenceFull f => Sys2Proof.Machine.execFenceFull f s
  | .fenceAcq f => Sys2Proof.Machine.execFenceAcq f s
  | .fenceRel f => Sys2Proof.Machine.execFenceRel f s
  | .fenceEng f => Sys2Proof.Machine.execFenceEng f s
  | .ldRacq f => Sys2Proof.Machine.execLdRacq f s
  | .arrive f => Sys2Proof.Machine.execArrive f s
  | .waitph f => Sys2Proof.Machine.execWaitph f s
  | .tryph f => Sys2Proof.Machine.execTryph f s
  | .barinit f => Sys2Proof.Machine.execBarinit f s
  | .pres f => Sys2Proof.Machine.execPres f s
  | .cctlInvl f => Sys2Proof.Machine.execCctlInvl f s
  | .cctlInvall f => Sys2Proof.Machine.execCctlInvall f s
  | .cctlPref f => Sys2Proof.Machine.execCctlPref f s
  | .cctlEvf f => Sys2Proof.Machine.execCctlEvf f s
  | .bra f => Sys2Proof.Machine.execBra f s
  | .braU f => Sys2Proof.Machine.execBraU f s
  | .brx f => Sys2Proof.Machine.execBrx f s
  | .call f => Sys2Proof.Machine.execCall f s
  | .callx f => Sys2Proof.Machine.execCallx f s
  | .ret f => Sys2Proof.Machine.execRet f s
  | .brk f => Sys2Proof.Machine.execBrk f s
  | .loop f => Sys2Proof.Machine.execLoop f s
  | .loopPipe f => Sys2Proof.Machine.execLoopPipe f s
  | .rotset f => Sys2Proof.Machine.execRotset f s
  | .modeCollapse f => Sys2Proof.Machine.execModeCollapse f s
  | .modeExpand f => Sys2Proof.Machine.execModeExpand f s
  | .sync f => Sys2Proof.Machine.execSync f s
  | .exit f => Sys2Proof.Machine.execExit f s
  | .trap f => Sys2Proof.Machine.execTrap f s
  | .eret f => Sys2Proof.Machine.execEret f s
  | .nop f => Sys2Proof.Machine.execNop f s
  | .yield f => Sys2Proof.Machine.execYield f s
  | .elect f => Sys2Proof.Machine.execElect f s
  | .folld f => Sys2Proof.Machine.execFolld f s
  | .folfree f => Sys2Proof.Machine.execFolfree f s
  | .domset f => Sys2Proof.Machine.execDomset f s
  | .mms f => Sys2Proof.Machine.execMms f s
  | .mmsz f => Sys2Proof.Machine.execMmsz f s
  | .mmsg f => Sys2Proof.Machine.execMmsg f s
  | .accalloc f => Sys2Proof.Machine.execAccalloc f s
  | .accallocI f => Sys2Proof.Machine.execAccallocI f s
  | .accfree f => Sys2Proof.Machine.execAccfree f s
  | .accfreeI f => Sys2Proof.Machine.execAccfreeI f s
  | .accrd f => Sys2Proof.Machine.execAccrd f s
  | .accwr f => Sys2Proof.Machine.execAccwr f s
  | .accclr f => Sys2Proof.Machine.execAccclr f s
  | .fmtset f => Sys2Proof.Machine.execFmtset f s
  | .fmtsetI f => Sys2Proof.Machine.execFmtsetI f s
  | .accadd f => Sys2Proof.Machine.execAccadd f s
  | .copy f => Sys2Proof.Machine.execCopy f s
  | .kick f => Sys2Proof.Machine.execKick f s
  | .gather f => Sys2Proof.Machine.execGather f s
  | .scatter f => Sys2Proof.Machine.execScatter f s
  | .scatterAdd f => Sys2Proof.Machine.execScatterAdd f s
  | .pfl2 f => Sys2Proof.Machine.execPfl2 f s
  | .pfl2Tok f => Sys2Proof.Machine.execPfl2Tok f s
  | .cstat f => Sys2Proof.Machine.execCstat f s
  | .seedtry f => Sys2Proof.Machine.execSeedtry f s
  | .seedscan f => Sys2Proof.Machine.execSeedscan f s
  | .fit f => Sys2Proof.Machine.execFit f s
  | .proj f => Sys2Proof.Machine.execProj f s
  | .mgen f => Sys2Proof.Machine.execMgen f s
  | .mstat f => Sys2Proof.Machine.execMstat f s
  | .xlate f => Sys2Proof.Machine.execXlate f s
  | .xprobe f => Sys2Proof.Machine.execXprobe f s
  | .xinvPage f => Sys2Proof.Machine.execXinvPage f s
  | .xinvRange f => Sys2Proof.Machine.execXinvRange f s
  | .xinvPasid f => Sys2Proof.Machine.execXinvPasid f s
  | .xinvAll f => Sys2Proof.Machine.execXinvAll f s
  | .xflush f => Sys2Proof.Machine.execXflush f s
  | .pclass f => Sys2Proof.Machine.execPclass f s
  | .pclassI f => Sys2Proof.Machine.execPclassI f s
  | .opsel f => Sys2Proof.Machine.execOpsel f s
  | .opselI f => Sys2Proof.Machine.execOpselI f s
  | .grant f => Sys2Proof.Machine.execGrant f s
  | .tmark f => Sys2Proof.Machine.execTmark f s
  | .tmarkI f => Sys2Proof.Machine.execTmarkI f s
  | .bkpt f => Sys2Proof.Machine.execBkpt f s
  | .bkptI f => Sys2Proof.Machine.execBkptI f s
  | .shash f => Sys2Proof.Machine.execShash f s
  | .confrd f => Sys2Proof.Machine.execConfrd f s
  | .rpctlOff f => Sys2Proof.Machine.execRpctlOff f s
  | .rpctlRec f => Sys2Proof.Machine.execRpctlRec f s
  | .rpctlReplay f => Sys2Proof.Machine.execRpctlReplay f s
  | .rpctlQuery f => Sys2Proof.Machine.execRpctlQuery f s
  | .qsub f => Sys2Proof.Machine.execQsub f s
  | .getsp f => Sys2Proof.Machine.execGetsp f s
  | .setsp f => Sys2Proof.Machine.execSetsp f s
  | .resultLands c => Sys2Proof.Machine.execResultLands c s
  | .interlockedResultReturn c => Sys2Proof.Machine.execInterlockedResultReturn c s
  | .linePresent c => Sys2Proof.Machine.execLinePresent c s
  | .requestEntryFree c => Sys2Proof.Machine.execRequestEntryFree c s
  | .writeBufferDrain c => Sys2Proof.Machine.execWriteBufferDrain c s
  | .promotionRequest c => Sys2Proof.Machine.execPromotionRequest c s
  | .sliceAtomic sl => Sys2Proof.Machine.execSliceAtomic sl s
  | .remoteScratchAccess c => Sys2Proof.Machine.execRemoteScratchAccess c s
  | .warpReady c => Sys2Proof.Machine.execWarpReady c s
  | .loopBackEdge c => Sys2Proof.Machine.execLoopBackEdge c s
  | .reconvergeMerge c => Sys2Proof.Machine.execReconvergeMerge c s
  | .folldComplete c => Sys2Proof.Machine.execFolldComplete c s
  | .collapseComplete c => Sys2Proof.Machine.execCollapseComplete c s
  | .expandComplete c => Sys2Proof.Machine.execExpandComplete c s
  | .strandFaultFreeze c => Sys2Proof.Machine.execStrandFaultFreeze c s
  | .strandSnapshotResume c => Sys2Proof.Machine.execStrandSnapshotResume c s
  | .trapEntry c => Sys2Proof.Machine.execTrapEntry c s
  | .asyncTrapDelivery c => Sys2Proof.Machine.execAsyncTrapDelivery c s
  | .kettleLineRise l => Sys2Proof.Machine.execKettleLineRise l s
  | .kettleRelease l => Sys2Proof.Machine.execKettleRelease l s
  | .copyAccept c => Sys2Proof.Machine.execCopyAccept c s
  | .kickEntryAccept c => Sys2Proof.Machine.execKickEntryAccept c s
  | .copyLineMove c => Sys2Proof.Machine.execCopyLineMove c s
  | .copyGlobalReturn c => Sys2Proof.Machine.execCopyGlobalReturn c s
  | .copyBytesLand c => Sys2Proof.Machine.execCopyBytesLand c s
  | .requestError c => Sys2Proof.Machine.execRequestError c s
  | .pfl2LineDone c => Sys2Proof.Machine.execPfl2LineDone c s
  | .pageWaitResume c => Sys2Proof.Machine.execPageWaitResume c s
  | .mxStart c => Sys2Proof.Machine.execMxStart c s
  | .mxOccupancyEnd c => Sys2Proof.Machine.execMxOccupancyEnd c s
  | .mmsgRecordRead c => Sys2Proof.Machine.execMmsgRecordRead c s
  | .accallocGrant c => Sys2Proof.Machine.execAccallocGrant c s
  | .accfreeRelease c => Sys2Proof.Machine.execAccfreeRelease c s
  | .accDeadlock c => Sys2Proof.Machine.execAccDeadlock c s
  | .mxResetEnd c => Sys2Proof.Machine.execMxResetEnd c s
  | .bankTransfer c => Sys2Proof.Machine.execBankTransfer c s
  | .marbleAccept c => Sys2Proof.Machine.execMarbleAccept c s
  | .marbleStart c => Sys2Proof.Machine.execMarbleStart c s
  | .marbleComplete c => Sys2Proof.Machine.execMarbleComplete c s
  | .candidateComplete c => Sys2Proof.Machine.execCandidateComplete c s
  | .scanDeadline c => Sys2Proof.Machine.execScanDeadline c s
  | .qwpWrite q v => Sys2Proof.Machine.execQwpWrite q v s
  | .qctlWrite q v => Sys2Proof.Machine.execQctlWrite q v s
  | .qstatClear q v => Sys2Proof.Machine.execQstatClear q v s
  | .recordAdmit => Sys2Proof.Machine.execRecordAdmit s
  | .blockPlace c => Sys2Proof.Machine.execBlockPlace c s
  | .blockEnd c => Sys2Proof.Machine.execBlockEnd c s
  | .gridComplete => Sys2Proof.Machine.execGridComplete s
  | .preempt c => Sys2Proof.Machine.execPreempt c s
  | .preemptHaltDone c => Sys2Proof.Machine.execPreemptHaltDone c s
  | .mxResetCmd c => Sys2Proof.Machine.execMxResetCmd c s
  | .coreResetCmd c => Sys2Proof.Machine.execCoreResetCmd c s
  | .walk c => Sys2Proof.Machine.execWalk c s
  | .atsCompletion c r => Sys2Proof.Machine.execAtsCompletion c r s
  | .atsTimeout c => Sys2Proof.Machine.execAtsTimeout c s
  | .prgResponse c r => Sys2Proof.Machine.execPrgResponse c r s
  | .pageRequestTimeout c => Sys2Proof.Machine.execPageRequestTimeout c s
  | .hostAtsInvalidate pasid va pages => Sys2Proof.Machine.execHostAtsInvalidate pasid va pages s
  | .invalidationComplete => Sys2Proof.Machine.execInvalidationComplete s
  | .hostInvPage pasid => Sys2Proof.Machine.execHostInvPage pasid s
  | .hostInvRange pasid => Sys2Proof.Machine.execHostInvRange pasid s
  | .hostInvPasid pasid => Sys2Proof.Machine.execHostInvPasid pasid s
  | .hostInvAll => Sys2Proof.Machine.execHostInvAll s
  | .hostHostAccess peer op pa => Sys2Proof.Machine.execHostHostAccess peer op pa s
  | .hostCompletionError c => Sys2Proof.Machine.execHostCompletionError c s
  | .peerLoss c => Sys2Proof.Machine.execPeerLoss c s
  | .cgrantWrite c v => Sys2Proof.Machine.execCgrantWrite c v s
  | .settleComplete c => Sys2Proof.Machine.execSettleComplete c s
  | .governedStall c => Sys2Proof.Machine.execGovernedStall c s
  | .slewStep => Sys2Proof.Machine.execSlewStep s
  | .slewGrant c => Sys2Proof.Machine.execSlewGrant c s
  | .fillerEnd c => Sys2Proof.Machine.execFillerEnd c s
  | .slewWrite g hi isCtl v => Sys2Proof.Machine.execSlewWrite g hi isCtl v s
  | .hangTimeout c => Sys2Proof.Machine.execHangTimeout c s
  | .mxhangTimeout c => Sys2Proof.Machine.execMxhangTimeout c s
  | .wstatClear c v => Sys2Proof.Machine.execWstatClear c v s
  | .stopArmCycle c v => Sys2Proof.Machine.execStopArmCycle c v s
  | .stopArmCount c v => Sys2Proof.Machine.execStopArmCount c v s
  | .stopDisarm c v => Sys2Proof.Machine.execStopDisarm c v s
  | .stopResume c => Sys2Proof.Machine.execStopResume c s
  | .preciseStop c => Sys2Proof.Machine.execPreciseStop c s
  | .sample c => Sys2Proof.Machine.execSample c s
  | .bcmClear c => Sys2Proof.Machine.execBcmClear c s
  | .divergedClear c => Sys2Proof.Machine.execDivergedClear c s
  | .obsctlWrite c v => Sys2Proof.Machine.execObsctlWrite c v s
  | .headbandFlush => Sys2Proof.Machine.execHeadbandFlush s
  | .headbandEnable en => Sys2Proof.Machine.execHeadbandEnable en s
  | .dropCountEmit => Sys2Proof.Machine.execDropCountEmit s
  | .losslessRoom => Sys2Proof.Machine.execLosslessRoom s
  | .timeSync => Sys2Proof.Machine.execTimeSync s
  | .rpmodeOff sl => Sys2Proof.Machine.execRpmodeOff sl s
  | .rpmodeRecord sl => Sys2Proof.Machine.execRpmodeRecord sl s
  | .rpmodeReplay sl => Sys2Proof.Machine.execRpmodeReplay sl s
  | .rlogPartialFlush sl => Sys2Proof.Machine.execRlogPartialFlush sl s
  | .gateTimeout sl => Sys2Proof.Machine.execGateTimeout sl s
  | .shashRetire c => Sys2Proof.Machine.execShashRetire c s
  | .pressPinAssert => Sys2Proof.Machine.execPressPinAssert s
  | .pressPinDeassert => Sys2Proof.Machine.execPressPinDeassert s
  | .pressCmd => Sys2Proof.Machine.execPressCmd s
  | .pressReleaseCmd => Sys2Proof.Machine.execPressReleaseCmd s
  | .pressEdge => Sys2Proof.Machine.execPressEdge s
  | .pressReleaseEdge => Sys2Proof.Machine.execPressReleaseEdge s
  | .dramRefresh stk => Sys2Proof.Machine.execDramRefresh stk s
  | .eccScrubForced stk => Sys2Proof.Machine.execEccScrubForced stk s
  | .powerOn err => Sys2Proof.Machine.execPowerOn err s
  | .warmReset memKept err => Sys2Proof.Machine.execWarmReset memKept err s
  | .attestGo => Sys2Proof.Machine.execAttestGo s
  | .attestDone => Sys2Proof.Machine.execAttestDone s
  | .controlRegisterWrite off v => Sys2Proof.Machine.execControlRegisterWrite off v s
  | .qsubRecordWritten q => Sys2Proof.Machine.execQsubRecordWritten q s
  | .configurationSpaceWrite pasidEn atsEn priEn => Sys2Proof.Machine.execConfigurationSpaceWrite pasidEn atsEn priEn s
  | .powerLoss => Sys2Proof.Machine.execPowerLoss s

end Sys2Proof.Machine
end

