-- ==== Sys2Proof/Machine/Sched.lean ====
section
/-! DEFINITION. What a step does next: the order of outside events, events that are due, the cores' decoders and the
passing of time (R376, R409, R410, R432; assumption 5). -/

namespace Sys2Proof.Machine

/-! ## Outside events -/

/-- The events that come from outside the module. -/
def isOutside (i : Instr) : Bool :=
  match i with
  | .qwpWrite .. | .qctlWrite .. | .qstatClear .. | .mxResetCmd .. | .coreResetCmd .. | .atsCompletion .. | .prgResponse ..
  | .hostAtsInvalidate .. | .hostInvPage .. | .hostInvRange .. | .hostInvPasid .. | .hostInvAll | .hostHostAccess ..
  | .hostCompletionError .. | .peerLoss .. | .cgrantWrite .. | .slewWrite .. | .wstatClear .. | .stopArmCycle ..
  | .stopArmCount .. | .stopDisarm .. | .stopResume .. | .bcmClear .. | .divergedClear .. | .obsctlWrite ..
  | .headbandFlush | .headbandEnable .. | .rpmodeOff .. | .rpmodeRecord .. | .rpmodeReplay .. | .attestGo
  | .controlRegisterWrite .. | .configurationSpaceWrite .. | .dramRefresh .. | .eccScrubForced .. => true
  | _ => false

/-- The outside events that reach a pressed module, and one without power: pins, management commands, supply. -/
def reachesPressed (i : Instr) : Bool :=
  match i with
  | .pressPinAssert | .pressPinDeassert | .pressCmd | .pressReleaseCmd | .powerOn .. | .warmReset .. | .powerLoss => true
  | _ => false

/-- The outside event that is taken next: the first, while the module is pressed the first that reaches it. -/
def State.inboxNext (s : State) : Option Instr :=
  s.inbox.find? (fun i => reachesPressed i || !s.press.pressed || !isOutside i)

/-- The event is taken; one that is none of the outside's, or whose operands are none, is dropped. -/
def takes (i : Instr) : Bool := (isOutside i || reachesPressed i) && i.wf

/-- The state without the outside event taken. -/
def State.without (s : State) (i : Instr) : State := { s with inbox := s.inbox.erase i }

/-! ## Events that are due -/

/-- What an event makes of the state, under the condition that it is due. -/
def taken (due : Bool) (eff : Unit → State) : Option State := if due then some (eff ()) else none

/-- What the first event of a list that is due makes of the state. -/
def firstTaken : List (Unit → Option State) → Option State
  | [] => none
  | f :: l => match f () with | some t => some t | none => firstTaken l

/-- Events of the module as a whole. -/
def State.dueModule (s : State) : Option State :=
  firstTaken [fun _ => taken s.bootDue (fun _ => s.bootStep), fun _ => taken s.pressDue (fun _ => s.pressBegin), fun _ => taken s.releaseEdgeDue (fun _ => s.pressEnd),
    fun _ => taken s.slewStepDue (fun _ => s.slewStep), fun _ => taken s.attestDue (fun _ => s.attestEnd),
    fun _ => taken s.syncDue (fun _ => s.syncStep), fun _ => taken s.roomDue (fun _ => s.placeWaiting),
    fun _ => taken s.dropDue (fun _ => s.dropCounts), fun _ => taken s.invalDue (fun _ => s.invalStep)]

/-- The kettle lines that some core is a member of. -/
def State.lines (s : State) : List Nat :=
  (s.cores.flatMap (fun p => if p.2.domain &&& 7 = 0 then [] else [p.1 / 8, 72 + p.1 / 144, 76])).dedup

/-- Events of the kettle lines. -/
def State.dueLine (s : State) : Option State :=
  firstTaken ((s.kettles.map (·.1)).map (fun l _ => taken (s.releaseDue l) (fun _ => s.lineRelease l))
    ++ s.lines.map (fun l _ => taken (s.riseDue l) (fun _ => s.lineRise l)))

/-- Events of the slices and of the queues that QSUB feeds. -/
def State.dueSlice (s : State) : Option State :=
  firstTaken (s.slices.flatMap (fun p => [fun _ => taken (s.gateDue p.1) (fun _ => s.gateGive p.1),
      fun _ => taken (s.sliceDue p.1) (fun _ => s.sliceStep p.1), fun _ => taken (s.rlogDue p.1) (fun _ => s.rlogFlush p.1)])
    ++ s.qsubs.map (fun q _ => taken (s.qsubDue q.queue) (fun _ => s.qsubStep q.queue)))

/-- The events of a core in their order: stops, what comes before the test of R393, the test, what may start, and the
sample. -/
def orderedEvents : List CoreEvent :=
  [⟨State.stopDue, State.stopStep⟩] ++ coreEvents ++ [⟨State.stallDue, State.stallStep⟩] ++ startEvents
    ++ [⟨State.sampleDue, State.sampleCycle⟩]

/-- Events of the cores. -/
def State.dueCore (s : State) : Option State :=
  firstTaken (s.cores.flatMap (fun p => orderedEvents.map (fun e _ => taken (e.due s p.1) (fun _ => e.eff s p.1))))

/-- Events of the launch scheduler. -/
def State.dueLaunch (s : State) : Option State :=
  firstTaken (s.cores.flatMap (fun p => [fun _ => taken (s.haltDue p.1) (fun _ => s.haltStep p.1),
      fun _ => taken (s.endDue p.1) (fun _ => s.endStep p.1)])
    ++ [fun _ => taken s.gridDue (fun _ => s.gridStep), fun _ => taken s.admitDue (fun _ => s.admitOne)]
    ++ s.waiting.flatMap (fun p => [fun _ => taken (s.placeDue p.1) (fun _ => s.placeFirst p.1),
      fun _ => taken (s.preemptDue p.1) (fun _ => s.preempt p.1)]))

/-- What the event that is taken next makes of the state. -/
def State.dueEvent (s : State) : Option State :=
  firstTaken [fun _ => s.dueModule, fun _ => s.dueLine, fun _ => s.dueSlice, fun _ => s.dueCore, fun _ => s.dueLaunch]

/-! ## The cores' turn -/

/-- The core whose cycle goes on: the one whose cycle began first, the lowest of several. -/
def earliest : KMap Core → Option (Nat × Core)
  | [] => none
  | p :: l =>
    match earliest l with
    | some q => if q.2.ck.edge < p.2.ck.edge then some q else some p
    | none => some p

/-- The core whose turn it is. -/
def State.turn (s : State) : Option (Nat × Core) :=
  if !s.goes then none
  else
    match earliest s.cores with
    | some p => if p.2.ck.edge ≤ s.time then some p else none
    | none => none

/-! ## Time (R376, R396, R410) -/

/-- The times at which something of a core is due. -/
def Core.times (k : Core) : List Nat :=
  k.ck.edge :: ((k.walks.map (·.due)) ++ (k.wb.take 1).map (·.due) ++ k.floads.map (·.due)
    ++ k.copy.flatMap (fun q => q.2.parts.filterMap (fun p =>
      match p.stage with | .fetch d => some d | .store d => some d | _ => none)))

/-- The times at which something of a slice is due. -/
def State.sliceTimes (s : State) (sl : Nat) : List Nat :=
  let x := s.slice sl
  (if x.reqs.isEmpty then [] else x.next :: x.reqs.map (fun r => max r.age x.quiet + s.gtimeout sl))
    ++ (if x.closed.isEmpty then [] else [x.age + 10 * 2 ^ 20])

/-- The times at which something of the module is due, in no order. -/
def State.times (s : State) : List Nat :=
  s.cores.flatMap (fun p => p.2.times) ++ s.slices.flatMap (fun p => s.sliceTimes p.1)
    ++ s.kettles.filterMap (fun p => p.2.release) ++ (match s.press.at_ with | some t => [t] | none => [])
    ++ (match s.boot.signing with | some t => [t] | none => [])
    ++ (if (s.ctlAt offHbctl).getLsbD 0 then [(s.time / 2 ^ 32 + 1) * 2 ^ 32] else [])
    ++ (if s.slewGroups.isEmpty then [] else [(s.time / 40 + 1) * 40])
    ++ (if s.hb.queue.isEmpty then [] else [s.time + 36])

/-- The least time of a list after now; 36 ticks on when there is none. -/
def nextTime (now : Nat) (l : List Nat) : Nat :=
  match l.filter (fun t => decide (now < t)) with
  | [] => now + 36
  | t :: ts => ts.foldl min t

/-- Records that the port's gathered capacity carries away: what remains of the capacity and the queue, and what left
(R410). -/
def portOut : Nat → List (List W64) → Nat × List (List W64) × List (List W64)
  | c, [] => (c, [], [])
  | c, r :: l =>
    if 32 * r.length ≤ c then
      let x := portOut (c - 32 * r.length) l
      (x.1, x.2.1, r :: x.2.2)
    else (c, r :: l, [])

/-- The headband port for a number of ticks: 7 quarter bytes in each (R410). -/
def State.drainPort (s : State) (n : Nat) : State :=
  if !s.portUp then s
  else
    let h := { s.hb with full := s.hb.full || decide (512 * 1024 ≤ s.hb.fill) }
    let x := portOut (h.credit + 7 * n) h.queue
    { s with hb := { h with queue := x.2.1, out := h.out ++ x.2.2, credit := if x.2.1.isEmpty then 0 else x.1 } }

/-- Time passes to the next moment at which something is due. -/
def State.advance (s : State) : State :=
  if !s.goes then s
  else
    let t := nextTime s.time s.times
    { s.drainPort (t - s.time) with time := t }

/-! ## A loaded program -/

/-- The words of an instruction: one word, or the header of a bundle with its slots. -/
def placedWords (nbits w : Nat) : List W64 := if nbits ≤ 64 then [BitVec.ofNat 64 w] else tableWords ((nbits + 63) / 64) w

/-- The block that runs a placed instruction: one role of one warp with every register, a window of scratchpad and
every bank, one folio slot that holds the words. -/
def placedBlock (ws : List W64) : Block :=
  Block.place 0 ⟨0, 0, ⟨0, 0, 0, 0, 1, false, false, false, false, true, 0, 1, 1024, 16, 1, 0, 0, 0, [⟨0, 0xFFFFFFFF, 1, 48⟩]⟩,
    0, 0, 0, [], false, false, 0, 0, none, 1, []⟩ 0 0 [(0, ⟨0, 8 * ws.length, ws, [], [], 0⟩)]

/-- A core that runs one block of one warp at offset 0: its SIMT decoder is about to select, or its strand of all four
clusters is about to issue. -/
def placedCore (time : Nat) (ws : List W64) (bundle : Bool) : Core :=
  let k := Core.idle time
  let b := placedBlock ws
  let w := Warp.start 0 0 0 b.lr (b.lr.roles.getD 0 ⟨0, 0, 0, 0⟩)
  { k with
    ck := { k.ck with edge := time, stage := if bundle then .start else .simt }
    blocks := [(0, b)], warps := [(0, { w with strand := bundle })], placed := 1
    strand := if bundle then some ⟨0, 4, .run, [], [], [], [], [], 0, false, (0, 0)⟩ else none }

end Sys2Proof.Machine
end

