-- ==== Sys2Proof/Machine/Step.lean ====
section
/-! DEFINITION. The step of the module. -/

namespace Sys2Proof.Machine

/-- Carry out a decoder's act: run the instruction and note its hazards, or change the state. -/
def Act.perform (a : Act) : Host.Outcome State Fault Refusal :=
  match a with
  | .move s => .next s
  | .run i s =>
    match exec i s with
    | .next t => .next (t.hazAfter s i)
    | .fault f => .fault f
    | .refused r => .refused r

/-- A core's turn, by the stage of its cycle: the strand, the SIMT decoder, or the end of the cycle. -/
def coreTurn (s : State) (c : Nat) (stage : Stage) : Host.Outcome State Fault Refusal :=
  match stage with
  | .start => (s.strandAct c).perform
  | .simt => (s.simtAct c).perform
  | .done => .next (s.endCycle c)

/-- One step: an outside event that has arrived, else an event that is due, else the turn of the core whose cycle began
first, else the passing of time. -/
def step (s : State) : Host.Outcome State Fault Refusal :=
  match s.inboxNext with
  | some i => if takes i then exec i (s.without i) else .next (s.without i)
  | none =>
    match s.dueEvent with
    | some t => .next t
    | none =>
      match s.turn with
      | some p => coreTurn s p.1 p.2.ck.stage
      | none => .next s.advance

/-- The state with an instruction stored where the next step fetches: core 0 runs one block of one warp, or of one
strand for a bundle, at the instruction (assumption 4). -/
def State.withFetchWord (s : State) (nbits w : Nat) : State :=
  (s.putCore 0 (placedCore s.time (placedWords nbits w) (decide (64 < nbits))))

end Sys2Proof.Machine
end

