-- ==== Sys2Proof/Safety.lean ====
section
/-! DEFINITION. The terms in which claims about the machine are stated: what a safe run keeps, when an instruction
issues, and the forms that results take. -/

namespace Sys2Proof.Machine

/-- A safe state: memory has its canonical form, so that equal memories are equal data. -/
def State.Canonical (s : State) : Prop := Memory.wf s.mem = true

/-- A run is safe when no step of it stops: an outcome that is a next state. -/
def GoesOn (o : Host.Outcome State Fault Refusal) : Prop := ∃ t, o = .next t

/-- The state issues an instruction with guard g for the issuer e: it has selected e, and the back-edge that may follow
goes to a resident folio (R122). -/
def State.Issues (s : State) (g : Guard) (e : Env) : Prop := s.env g = some e ∧ e.edgeMissed = false

/-- A result of fixed latency for v registers: in every active lane the words of a 32-bit or 64-bit value (R128). -/
def Env.vResult (e : Env) (unit lat : Nat) (d : Code) (wide : Bool) (val : Nat → W64) (s : State) : State :=
  e.put unit lat false .v (e.phys d.toNat (if wide then 2 else 1)) e.act (laneVals e.act (fun l => words wide (val l))) s

/-- A result for a predicate: true in the active lanes in which p holds (R37). -/
def Env.qResult (e : Env) (unit lat : Nat) (d : Code) (p : Nat → Bool) (s : State) : State :=
  e.put unit lat false .pred [(d.extractLsb' 0 4).toNat] e.act [maskOf (fun l => e.act.getLsbD l && p l)] s

/-- A result for w registers, once (R33). -/
def Env.wResult (e : Env) (unit lat : Nat) (d : Code) (wide : Bool) (val : W64) (s : State) : State :=
  e.put unit lat false .w ((List.range (if wide then 2 else 1)).map (fun i => d.toNat - 384 + i)) e.act (words wide val) s

/-- An operation on elements of two operands (R63). -/
def onElements (F : Int → Int → Int) (mod : BitVec 3) (x y : W64) : W64 := elemwise mod (fun p q _ => F p q) x y 0

/-- q and r are what R69's table gives for x divided by y, with all four read by a type of one element: the quotient
truncated and the remainder with the dividend's sign; all ones and the dividend for a divisor of 0; the dividend and 0 for
the most negative number divided by -1. -/
def Divides (mod : BitVec 3) (x y q r : W64) : Prop :=
  let a := tyVal mod x 0
  let b := tyVal mod y 0
  let lo : Int := -(2 ^ (tyWidth mod - 1))
  (b ≠ 0 → ¬ (tySigned mod = true ∧ a = lo ∧ b = -1) →
    tyVal mod q 0 = a.tdiv b ∧ tyVal mod r 0 = a - b * a.tdiv b ∧
    (0 < tyVal mod r 0 → 0 < a) ∧ (tyVal mod r 0 < 0 → a < 0)) ∧
  (b = 0 → tyVal mod q 0 = (if tySigned mod then -1 else 2 ^ tyWidth mod - 1) ∧ tyVal mod r 0 = a) ∧
  (tySigned mod = true → a = lo → b = -1 → tyVal mod q 0 = lo ∧ tyVal mod r 0 = 0)

/-- What a float instruction leaves (R43, R94, R96, R98): of each active lane its words, its flags unless NF is 1 or there
are none, and its generator. -/
def Env.floatResult (e : Env) (unit lat : Nat) (regs : List Nat) (nf : Bool) (g : Nat → W32 → List W32 × Nat × W32)
    (s : State) : State :=
  let rs := (lanesOf e.act).map (fun l => g l (s.seedOf e l))
  e.setSeeds (rs.map (·.2.2)) (e.putFlags unit lat nf (rs.map (·.2.1)) (e.put unit lat false .v regs e.act (rs.flatMap (·.1)) s))

/-- The elements of one register of a float instruction: each computed, then rounded in ascending order (R94, R98). -/
def Env.floatElements (e : Env) (f : Fmt) (rnd : BitVec 3) (g : Nat → Nat → Nat → Res) (l : Nat) (seed : W32) :
    List W32 × Nat × W32 :=
  let v := roundElems f e.fmode (e.rm rnd) false ((List.range f.count).map (g l (e.rm rnd))) seed
  (words (f.width == 64) (BitVec.ofNat 64 (packNats f.width v.1)), v.2)

/-- What an instruction that writes its results later may change of its warp: where its paths stand, its wait at a switch
marker, a loop end still to be taken, and the results in flight. Every register, flag and trap register of the warp is as it was. -/
def Warp.SameButIssue (y z : Warp) : Prop :=
  { z with results := y.results, pri := y.pri, alt := y.alt, sw := y.sw, edge := y.edge } = y

/-- The same, but for the generators, which stochastic rounding draws from at issue (R94). -/
def Warp.SameButDraw (y z : Warp) : Prop :=
  { z with results := y.results, pri := y.pri, alt := y.alt, sw := y.sw, edge := y.edge, seed := y.seed } = y

/-- From s to t only warp w of core c changes, and of it only what P allows; of the core besides only what its decoders
note of an issue (the booking of the cycle), and the count behind free values. So every byte of memory, every control
register, every other core, block, warp, bank and engine is as it was. -/
def State.SameBut (P : Warp → Warp → Prop) (s t : State) (c w : Nat) : Prop :=
  { t with cores := s.cores, nonce := s.nonce } = s ∧
  (∀ d, d ≠ c → t.core d = s.core d) ∧
  { t.core c with warps := (s.core c).warps, ck := (s.core c).ck } = s.core c ∧
  (∀ x, x ≠ w → (t.core c).warps.find? x = (s.core c).warps.find? x) ∧
  ∀ y, (s.core c).warps.find? w = some y → ∃ z, (t.core c).warps.find? w = some z ∧ P y z

/-- Instructions that store to no byte of memory as they issue: all but plain stores, transfers, which may spill the
divergence stack, and bundles. (Atomics store when their request is served, R184.) -/
def storesNothing (i : Instr) : Bool :=
  i.isInstruction &&
  match i with
  | .st _ | .stI _ | .stRel _ | .stRelI _ | .bra _ | .brx _ | .call _ | .callx _ | .ret _ | .brk _ | .exit _
  | .bundle _ _ => false
  | _ => true

/-- An address outside every place in memory that an access of the issuer goes to. -/
def Env.Outside (e : Env) (a : Access) (s : State) (x : Nat) : Prop :=
  ∀ p ∈ meetsPlaces (e.lsMeets a s), ∀ pa t, p.2 = .glob pa t → x < pa ∨ pa + a.n ≤ x

/-- What a stop notes, or asks for, leaves memory as it was. -/
def Stop.Keeps : Stop → Prop
  | .trap .. => True
  | .trapWith _ _ f => ∀ s, (f s).mem = s.mem
  | .wait _ f => ∀ s, (f s).mem = s.mem

/-- A meaning ends with memory m, whether it has its effect or not. -/
def Ends (m : SMap Byte) : Except Stop State → Prop
  | .ok t => t.mem = m
  | .error r => r.Keeps

/-- A check leaves memory as it was where it fails. -/
def Checks {α : Type} : Except Stop α → Prop
  | .ok _ => True
  | .error r => r.Keeps

/-- A meaning that stores nothing. -/
def Body.Keeps (b : Body) : Prop := ∀ e s, Ends s.mem (b e s)

end Sys2Proof.Machine
end

