-- ==== Sys2Proof/Certificates/Slice0/Obligations.lean ====
section
/-! DEFINITION. The statements about the model that are to be proved. -/

open Sys2Proof Sys2Proof.Machine

/-! ## The integer unit (R62 to R86) -/

/-- Every two-source integer instruction, with legal operands that have landed, completes with its result of R66 to R71
and R80 by elements of its type (R63), in each active lane, at its latency of R54; nothing else of the machine changes. -/
def Obligations.IntegerTwoSourceResults : Prop :=
  ∀ (s : State) (e : Env) (f : F2), s.Issues f.g e →
    let a := f.srcA 0 (tyWide f.mod) false
    let b := f.srcB 0 (tyWide f.mod) false
    e.legal [a, b] = true → e.vOk f.d (tyWide f.mod) = true → e.quiet [a, b] = true →
    ∀ r ∈ ([(.iadd f, 2, onElements (fun x y => x + y) f.mod), (.isub f, 2, onElements (fun x y => x - y) f.mod),
        (.imul f, 4, onElements (fun x y => x * y) f.mod),
        (.imulh f, if tyWide f.mod then 20 else 4, onElements (fun x y => (x * y).fdiv (2 ^ tyWidth f.mod)) f.mod),
        (.idiv f, 20, onElements (fun x y => if y = 0 then -1 else x.tdiv y) f.mod),
        (.irem f, 20, onElements (fun x y => if y = 0 then x else x.tmod y) f.mod),
        (.imin f, 2, onElements min f.mod), (.imax f, 2, onElements max f.mod),
        (.iadds f, 2, onElements (fun x y => tyClamp f.mod (x + y)) f.mod),
        (.and f, 2, fun x y => x &&& y), (.or f, 2, fun x y => x ||| y), (.xor f, 2, fun x y => x ^^^ y),
        (.andn f, 2, fun x y => x &&& ~~~y), (.shl f, 2, fnShl f.mod), (.shr f, 2, fnShr f.mod),
        (.sar f, 2, fnSar f.mod), (.rotl f, 2, fnRotl f.mod), (.movh f, 2, fnMovh)]
        : List (Instr × Nat × (W64 → W64 → W64))),
      let t := e.complete (costOf r.1) f.g
        (e.vResult 0 r.2.1 f.d (tyWide f.mod) (fun l => r.2.2 (a.val e l) (b.val e l)) (e.enter s))
      exec r.1 s = .next t ∧ s.SameBut Warp.SameButIssue t e.c e.w

/-- The immediate forms: the second operand is IMM24 as R29 extends it; MOVI takes nothing else (R80). -/
def Obligations.IntegerImmediateResults : Prop :=
  ∀ (s : State) (e : Env) (f : FI), s.Issues f.g e →
    let a := f.srcA 0 (tyWide f.mod) false
    let b := immIU f.mod f.imm
    (e.legal [a] = true → e.vOk f.d (tyWide f.mod) = true → e.quiet [a] = true →
      ∀ r ∈ ([(.iaddI f, 2, onElements (fun x y => x + y) f.mod), (.isubI f, 2, onElements (fun x y => x - y) f.mod),
          (.imulI f, 4, onElements (fun x y => x * y) f.mod),
          (.imulhI f, if tyWide f.mod then 20 else 4, onElements (fun x y => (x * y).fdiv (2 ^ tyWidth f.mod)) f.mod),
          (.idivI f, 20, onElements (fun x y => if y = 0 then -1 else x.tdiv y) f.mod),
          (.iremI f, 20, onElements (fun x y => if y = 0 then x else x.tmod y) f.mod),
          (.iminI f, 2, onElements min f.mod), (.imaxI f, 2, onElements max f.mod),
          (.iaddsI f, 2, onElements (fun x y => tyClamp f.mod (x + y)) f.mod),
          (.andI f, 2, fun x y => x &&& y), (.orI f, 2, fun x y => x ||| y), (.xorI f, 2, fun x y => x ^^^ y),
          (.andnI f, 2, fun x y => x &&& ~~~y), (.shlI f, 2, fnShl f.mod), (.shrI f, 2, fnShr f.mod),
          (.sarI f, 2, fnSar f.mod), (.rotlI f, 2, fnRotl f.mod), (.movhI f, 2, fnMovh)]
          : List (Instr × Nat × (W64 → W64 → W64))),
        let t := e.complete (costOf r.1) f.g
          (e.vResult 0 r.2.1 f.d (tyWide f.mod) (fun l => r.2.2 (a.val e l) b) (e.enter s))
        exec r.1 s = .next t ∧ s.SameBut Warp.SameButIssue t e.c e.w) ∧
    (e.vOk f.d false = true → e.quiet [] = true →
      let t := e.complete (costOf (.movi f)) f.g
        (e.vResult 0 2 f.d false (fun _ => (f.imm.signExtend 32).setWidth 64) (e.enter s))
      exec (.movi f) s = .next t ∧ s.SameBut Warp.SameButIssue t e.c e.w)

/-- The one-source integer instructions (R66, R70, R74). -/
def Obligations.IntegerOneSourceResults : Prop :=
  ∀ (s : State) (e : Env) (f : F2), s.Issues f.g e →
    let a := f.srcA 0 (tyWide f.mod) false
    e.legal [a] = true → e.vOk f.d (tyWide f.mod) = true → e.quiet [a] = true →
    ∀ r ∈ ([(.iabs f, fun x => onElements (fun x _ => if x < 0 then -x else x) f.mod x 0),
        (.ineg f, fun x => onElements (fun x _ => -x) f.mod x 0), (.not f, fun x => ~~~x), (.popc f, fnPopc f.mod),
        (.clz f, fnClz f.mod), (.ctz f, fnCtz f.mod), (.brev f, fnBrev f.mod)] : List (Instr × (W64 → W64))),
      let t := e.complete (costOf r.1) f.g
        (e.vResult 0 2 f.d (tyWide f.mod) (fun l => r.2 (a.val e l)) (e.enter s))
      exec r.1 s = .next t ∧ s.SameBut Warp.SameButIssue t e.c e.w

/-- The three-source integer instructions (R66, R68, R72, R73, R75): which of their operands take pairs is R64's. -/
def Obligations.IntegerThreeSourceResults : Prop :=
  ∀ (s : State) (e : Env) (f : F3), s.Issues f.g e →
    let w := tyWide f.mod
    ∀ r ∈ ([(.imad f, 4, w, w, fnMad f.mod), (.clamp f, 2, w, w, fnClamp f.mod), (.bfx f, 2, w, w, fnBfx f.mod),
        (.bfi f, 2, w, w, fnBfi f.mod), (.isad f, 4, w, false, fnSad f.mod), (.idot4 f, 4, false, false, fnDot4 f.mod),
        (.funnel f, 2, false, false, fnFunnel), (.bshuf f, 2, false, false, fnBshuf)]
        : List (Instr × Nat × Bool × Bool × (W64 → W64 → W64 → W64))),
      let a := f.srcA 0 r.2.2.1 false
      let b := f.srcB 0 r.2.2.1 false
      let c := f.srcC 0 r.2.2.2.1 false
      e.legal [a, b, c] = true → e.vOk f.d r.2.2.2.1 = true → e.quiet [a, b, c] = true →
      let t := e.complete (costOf r.1) f.g
        (e.vResult 0 r.2.1 f.d r.2.2.2.1 (fun l => r.2.2.2.2 (a.val e l) (b.val e l) (c.val e l)) (e.enter s))
      exec r.1 s = .next t ∧ s.SameBut Warp.SameButIssue t e.c e.w

/-- Addresses are 64 bits and take a sign-extended, scaled index (R76); ISEL takes A where the predicate in C is true
(R78); CVTI clamps element by element (R81). -/
def Obligations.AddressSelectConvertResults : Prop :=
  (∀ (s : State) (e : Env) (f : F2), s.Issues f.g e →
    let a := f.srcA 0 true false
    let b := f.srcB 0 false false
    e.legal [a, b] = true → e.vOk f.d true = true → e.quiet [a, b] = true →
    let t := e.complete (costOf (.lea f)) f.g
      (e.vResult 0 2 f.d true (fun l => a.val e l + ((b.val32 e l).signExtend 64 <<< f.mod.toNat)) (e.enter s))
    exec (.lea f) s = .next t ∧ s.SameBut Warp.SameButIssue t e.c e.w) ∧
  (∀ (s : State) (e : Env) (f : FI), s.Issues f.g e →
    let a := f.srcA 0 true false
    e.legal [a] = true → e.vOk f.d true = true → e.quiet [a] = true →
    let t := e.complete (costOf (.leaI f)) f.g
      (e.vResult 0 2 f.d true (fun l => a.val e l + ((f.imm.signExtend 32).signExtend 64 <<< f.mod.toNat)) (e.enter s))
    exec (.leaI f) s = .next t ∧ s.SameBut Warp.SameButIssue t e.c e.w) ∧
  (∀ (s : State) (e : Env) (f : F3), s.Issues f.g e →
    let a := f.srcA 0 (tyWide f.mod) false
    let b := f.srcB 0 (tyWide f.mod) false
    e.legal [a, b] = true → e.vOk f.d (tyWide f.mod) = true → e.quiet [a, b] = true →
    let t := e.complete (costOf (.isel f)) f.g (e.vResult 0 2 f.d (tyWide f.mod)
      (fun l => if (e.pred f.c).getLsbD l then a.val e l else b.val e l) (e.enter s))
    exec (.isel f) s = .next t ∧ s.SameBut Warp.SameButIssue t e.c e.w) ∧
  ∀ (s : State) (e : Env) (f : F2), s.Issues f.g e →
    let ty : BitVec 3 := f.b.extractLsb' 0 3
    let a := f.srcA 0 (tyWide ty) false
    e.legal [a] = true → e.vOk f.d (tyWide f.mod) = true → e.quiet [a] = true →
    let t := e.complete (costOf (.cvti f)) f.g
      (e.vResult 0 2 f.d (tyWide f.mod) (fun l => fnCvti f.mod ty (a.val e l)) (e.enter s))
    exec (.cvti f) s = .next t ∧ s.SameBut Warp.SameButIssue t e.c e.w

/-- A compare is true where its condition holds in every element (R77); PLOP looks three predicates up in its table
(R79). Neither writes a predicate of an inactive lane. -/
def Obligations.PredicateResults : Prop :=
  (∀ (s : State) (e : Env) (f : F2), s.Issues f.g e →
    let a := f.srcA 0 (tyWide f.mod) false
    let b := f.srcB 0 (tyWide f.mod) false
    e.legal [a, b] = true → qOk f.d = true → e.quiet [a, b] = true →
    let t := e.complete (costOf (.icmp f)) f.g (e.qResult 0 2 f.d (fun l => (List.range (tyCount f.mod)).all (fun i =>
      intCond f.rnd.toNat (tyVal f.mod (a.val e l) i) (tyVal f.mod (b.val e l) i))) (e.enter s))
    exec (.icmp f) s = .next t ∧ s.SameBut Warp.SameButIssue t e.c e.w) ∧
  (∀ (s : State) (e : Env) (f : FI), s.Issues f.g e →
    let a := f.srcA 0 (tyWide f.mod) false
    e.legal [a] = true → qOk f.d = true → e.quiet [a] = true →
    let t := e.complete (costOf (.icmpI f)) f.g (e.qResult 0 2 f.d (fun l => (List.range (tyCount f.mod)).all (fun i =>
      intCond (f.d.extractLsb' 4 3).toNat (tyVal f.mod (a.val e l) i) (tyVal f.mod (immIU f.mod f.imm) i))) (e.enter s))
    exec (.icmpI f) s = .next t ∧ s.SameBut Warp.SameButIssue t e.c e.w) ∧
  ∀ (s : State) (e : Env) (f : F2), s.Issues f.g e → qOk f.d = true → e.quiet [] = true →
    let t := e.complete (costOf (.plop f)) f.g (e.qResult 0 2 f.d (fun l => f.amod.getLsbD
      ((if (e.pred f.a).getLsbD l then 4 else 0) + (if (e.pred f.b).getLsbD l then 2 else 0)
        + (if (e.pred f.d).getLsbD l then 1 else 0))) (e.enter s))
    exec (.plop f) s = .next t ∧ s.SameBut Warp.SameButIssue t e.c e.w

/-- The cross-lane instructions, which no lane slot may hold (R82): votes, lane reads, the nearest lower lane and the
reductions, over the active lanes (R83 to R86). With no lane active an
instruction with a w register as its destination writes nothing. -/
def Obligations.CrossLaneResults : Prop :=
  (∀ (s : State) (e : Env), e.inLane = false → e.act ≠ 0 →
    (∀ f : F2, s.Issues f.g e → wOk f.d false = true → e.quiet [] = true →
      let t := e.complete (costOf (.vote f)) f.g
        (e.wResult 0 4 f.d false (fnVote f.mod.toNat e.act (e.pred f.a) e.base) (e.enter s))
      exec (.vote f) s = .next t ∧ s.SameBut Warp.SameButIssue t e.c e.w) ∧
    (∀ f : F2, s.Issues f.g e →
      let a := f.srcA 0 (tyWide f.mod) false
      let b := f.srcB 0 false false
      f.a.toNat < 384 → e.legal [a, b] = true → wOk f.d (tyWide f.mod) = true → e.quiet [a, b] = true →
      let k := (b.val32 e ((lowest e.act).getD e.base)).toNat
      let t := e.complete (costOf (.rdlane f)) f.g
        (e.wResult 0 4 f.d (tyWide f.mod) (a.val e (e.base + k % e.size)) (e.enter s))
      exec (.rdlane f) s = .next t ∧ s.SameBut Warp.SameButIssue t e.c e.w) ∧
    (∀ f : FI, s.Issues f.g e →
      let a := f.srcA 0 (tyWide f.mod) false
      f.a.toNat < 384 → f.imm.toNat < e.size → e.legal [a] = true → wOk f.d (tyWide f.mod) = true → e.quiet [a] = true →
      let t := e.complete (costOf (.rdlaneI f)) f.g
        (e.wResult 0 4 f.d (tyWide f.mod) (a.val e (e.base + f.imm.toNat % e.size)) (e.enter s))
      exec (.rdlaneI f) s = .next t ∧ s.SameBut Warp.SameButIssue t e.c e.w) ∧
    ∀ f : F2, s.Issues f.g e →
      let a := f.srcA 0 (tyWide f.mod) false
      e.legal [a] = true → wOk f.d (tyWide f.mod) = true → e.quiet [a] = true →
      let t := e.complete (costOf (.iredw f)) f.g (e.wResult 0 8 f.d (tyWide f.mod) (BitVec.ofInt 64
        ((lanesOf e.act).foldl (fun acc l => redStep f.mod f.b.toNat acc (tyVal f.mod (a.val e l) 0))
          (redIdentity f.mod f.b.toNat))) (e.enter s))
      exec (.iredw f) s = .next t ∧ s.SameBut Warp.SameButIssue t e.c e.w) ∧
  (∀ (s : State) (e : Env) (f : F2), e.inLane = false → s.Issues f.g e →
      let a := f.srcA 0 (tyWide f.mod) false
      f.a.toNat < 384 → e.legal [a] = true → e.vOk f.d false = true → e.quiet [a] = true →
      let t := e.complete (costOf (.find1 f)) f.g
        (e.vResult 0 4 f.d false (fun l => (fnFind1 e.act e.base (fun j => a.val e j != 0) l).setWidth 64) (e.enter s))
      exec (.find1 f) s = .next t ∧ s.SameBut Warp.SameButIssue t e.c e.w) ∧
  ∀ (s : State) (e : Env), e.inLane = false → e.act = 0 →
    (∀ f : F2, s.Issues f.g e →
      let a := f.srcA 0 (tyWide f.mod) false
      let b := f.srcB 0 false false
      (wOk f.d false = true → e.quiet [] = true →
        exec (.vote f) s = .next (e.complete (costOf (.vote f)) f.g (e.enter s))) ∧
      (f.a.toNat < 384 → e.legal [a, b] = true → wOk f.d (tyWide f.mod) = true → e.quiet [a, b] = true →
        exec (.rdlane f) s = .next (e.complete (costOf (.rdlane f)) f.g (e.enter s))) ∧
      (e.legal [a] = true → wOk f.d (tyWide f.mod) = true → e.quiet [a] = true →
        exec (.iredw f) s = .next (e.complete (costOf (.iredw f)) f.g (e.enter s)))) ∧
    ∀ f : FI, s.Issues f.g e →
      let a := f.srcA 0 (tyWide f.mod) false
      f.a.toNat < 384 → f.imm.toNat < e.size → e.legal [a] = true → wOk f.d (tyWide f.mod) = true → e.quiet [a] = true →
      exec (.rdlaneI f) s = .next (e.complete (costOf (.rdlaneI f)) f.g (e.enter s))

/-- A move copies A in each active lane, by its modifier or, in a lane slot, from another lane (R30), where the issuer reaches
that lane (R147); a move to a port latches what it reads, in a strand only (R31). -/
def Obligations.MoveResults : Prop :=
  ∀ (s : State) (e : Env) (f : MV), s.Issues f.g e → e.moveForm f = true → e.moveWaits f = false →
    e.legal [moveSrc f] = true → e.quiet [moveSrc f] = true →
    (∀ l, f.xc = false ∨ 384 ≤ f.a.toNat ∨ e.reaches (moveLane f l) = true →
      e.moveVal f l = (moveSrc f).val e (moveLane f l)) ∧
    (f.dport = 0 → e.vOk f.d false = true →
      let t := e.complete (costOf (.mov f)) f.g
        (e.vResult 9 (moveLat f) f.d false (e.moveVal f) (e.enter s))
      exec (.mov f) s = .next t ∧ s.SameBut Warp.SameButIssue t e.c e.w) ∧
    (f.dport ≠ 0 →
      let t := e.complete (costOf (.mov f)) f.g (e.put 9 (moveLat f) false .port [f.dport.toNat] e.act
        (laneVals e.act (fun l => [(e.moveVal f l).setWidth 32])) (e.enter s))
      exec (.mov f) s = .next t ∧ s.SameBut Warp.SameButIssue t e.c e.w)

/-! ## The float and special-function units (R87 to R113) -/

/-- The two-source float instructions: the exact result of the flushed elements, rounded by RND, at 4 or 8 cycles
(R98 to R101); sticky flags land with it unless NF is 1 (R43, R96). -/
def Obligations.FloatTwoSourceResults : Prop :=
  ∀ (s : State) (e : Env) (f : F2), s.Issues f.g e →
    let t := fmtOf f.mod.toNat
    let a := fpOpnd 0 1 f.amod f.a t
    let b := fpOpnd 1 1 0 f.b t
    e.legal [a, b] = true → e.vOk f.d (t.width == 64) = true → e.quiet [a, b] = true →
    ∀ r ∈ ([(.fadd f, fun m x y => resAdd t m (t.read x) (t.read y)),
        (.fsub f, fun m x y => resAdd t m (t.read x) (t.read y).neg),
        (.fmul f, fun _ x y => resMul t (t.read x) (t.read y)), (.fmin f, fun _ x y => resMinMax t false x y),
        (.fmax f, fun _ x y => resMinMax t true x y), (.fscale f, gScale t)]
        : List (Instr × (Nat → Nat → Nat → Res))),
      let u := e.complete (costOf r.1) f.g (e.floatResult 1 (fuLat t) (e.phys f.d.toNat (if t.width == 64 then 2 else 1))
        f.nf (e.floatElements t f.rnd (fun l m i => r.2 m (flushedElem e t (a.val e l) i) (flushedElem e t (b.val e l) i)))
        (e.enter s))
      exec r.1 s = .next u ∧ s.SameBut Warp.SameButDraw u e.c e.w

/-- The immediate forms: the second source is R29's FP32 or BF16 pair, the mode is the mode register's. -/
def Obligations.FloatImmediateResults : Prop :=
  ∀ (s : State) (e : Env) (f : FI), s.Issues f.g e →
    let t := fmtOf f.mod.toNat
    let a := fpOpnd 0 1 0 f.a t
    let b := immFU f.mod f.imm
    e.legal [a] = true → e.vOk f.d (t.width == 64) = true → e.quiet [a] = true →
    ∀ r ∈ ([(.faddI f, fun m x y => resAdd t m (t.read x) (t.read y)),
        (.fsubI f, fun m x y => resAdd t m (t.read x) (t.read y).neg),
        (.fmulI f, fun _ x y => resMul t (t.read x) (t.read y)), (.fminI f, fun _ x y => resMinMax t false x y),
        (.fmaxI f, fun _ x y => resMinMax t true x y), (.fscaleI f, gScale t)]
        : List (Instr × (Nat → Nat → Nat → Res))),
      let u := e.complete (costOf r.1) f.g (e.floatResult 1 (fuLat t) (e.phys f.d.toNat (if t.width == 64 then 2 else 1))
        f.nf (e.floatElements t 0 (fun l m i => r.2 m (flushedElem e t (a.val e l) i) (flushedElem e t b i)))
        (e.enter s))
      exec r.1 s = .next u ∧ s.SameBut Warp.SameButDraw u e.c e.w

/-- The three-source float instructions round a · b + c, or c - a · b, once (R102), and an FP64 one takes the float units of its
lanes for four cycles (R10; assumption 115), which a strand waits for; FDOT2 sums two products and C into FP32 (R100). -/
def Obligations.FloatThreeSourceResults : Prop :=
  ∀ (s : State) (e : Env) (f : F3), s.Issues f.g e →
    let t := fmtOf f.mod.toNat
    let a := fpOpnd 0 1 0 f.a t
    let b := fpOpnd 1 1 0 f.b t
    (let c := fpOpnd 2 1 0 f.c t;
      e.legal [a, b, c] = true → e.vOk f.d (t.width == 64) = true → e.quiet [a, b, c] = true →
      (f.mod = 3 → e.strand = true → ((e.enter s).core e.c).fmaBusy e.fmaLanes = false) →
      ∀ r ∈ ([(.ffma f, fun m x y z => resFma t m (t.read x) (t.read y) (t.read z)),
          (.fnma f, fun m x y z => resFma t m (t.read x).neg (t.read y) (t.read z))]
          : List (Instr × (Nat → Nat → Nat → Nat → Res))),
        let v := e.floatResult 1 (fuLat t)
          (e.phys f.d.toNat (if t.width == 64 then 2 else 1)) f.nf (e.floatElements t f.rnd (fun l m i =>
            r.2 m (flushedElem e t (a.val e l) i) (flushedElem e t (b.val e l) i) (flushedElem e t (c.val e l) i)))
          (e.enter s)
        let u := e.complete (costOf r.1) f.g (if f.mod = 3 then e.takeFma v else v)
        exec r.1 s = .next u ∧ s.SameBut Warp.SameButDraw u e.c e.w) ∧
    (let c := fpOpnd 2 1 0 f.c fmtF32;
      e.legal [a, b, c] = true → e.vOk f.d false = true → e.quiet [a, b, c] = true →
      let u := e.complete (costOf (.fdot2 f)) f.g (e.floatResult 1 4 (e.phys f.d.toNat 1) f.nf
        (e.floatElements fmtF32 f.rnd (fun l m _ =>
          resDot2 m (t.read (flushedElem e t (a.val e l) 0)) (t.read (flushedElem e t (b.val e l) 0))
            (t.read (flushedElem e t (a.val e l) 1)) (t.read (flushedElem e t (b.val e l) 1))
            (fmtF32.read (flushedElem e fmtF32 (c.val e l) 0)))) (e.enter s))
      exec (.fdot2 f) s = .next u ∧ s.SameBut Warp.SameButDraw u e.c e.w)

/-- FABS clears and FNEG flips the sign bit of every element, without flush or flag (R103); FCLASS gives each element's
class (R105). -/
def Obligations.FloatSignClassResults : Prop :=
  ∀ (s : State) (e : Env) (f : F2), s.Issues f.g e →
    let t := fmtOf f.mod.toNat
    let a := fpOpnd 0 1 f.amod f.a t
    e.legal [a] = true → e.quiet [a] = true →
    (e.vOk f.d (t.width == 64) = true →
      ∀ r ∈ ([(.fabs f, fun x => x % 2 ^ (t.width - 1)), (.fneg f, fun x => x ^^^ 2 ^ (t.width - 1))]
          : List (Instr × (Nat → Nat))),
        let u := e.complete (costOf r.1) f.g (e.vResult 1 (fuLat t) f.d (t.width == 64) (fun l => BitVec.ofNat 64
          (packNats t.width ((List.range t.count).map (fun i => r.2 (t.elem (a.val e l) i))))) (e.enter s))
        exec r.1 s = .next u ∧ s.SameBut Warp.SameButIssue u e.c e.w) ∧
    (e.vOk f.d false = true →
      let u := e.complete (costOf (.fclass f)) f.g (e.vResult 1 (fuLat t) f.d false (fun l => BitVec.ofNat 64
        (packNats (if t.width = 64 then 32 else t.width)
          ((List.range t.count).map (fun i => classCode t (t.elem (a.val e l) i))))) (e.enter s))
      exec (.fclass f) s = .next u ∧ s.SameBut Warp.SameButIssue u e.c e.w)

/-- FCMP writes its predicate where the condition holds in every element, and IV as R104 says; in the immediate form
IMM24's low three bits are the condition and count as zero in the value. -/
def Obligations.FloatCompareResults : Prop :=
  (∀ (s : State) (e : Env) (f : F2), s.Issues f.g e →
    let t := fmtOf f.mod.toNat
    let a := fpOpnd 0 1 f.amod f.a t
    let b := fpOpnd 1 1 0 f.b t
    e.legal [a, b] = true → qOk f.d = true → e.quiet [a, b] = true →
    let r (l : Nat) : Bool × Nat := fnFcmp e t f.rnd.toNat (a.val e l) (b.val e l)
    let u := e.complete (costOf (.fcmp f)) f.g (e.putFlags 1 (fuLat t) f.nf ((lanesOf e.act).map (fun l => (r l).2))
      (e.qResult 1 (fuLat t) f.d (fun l => (r l).1) (e.enter s)))
    exec (.fcmp f) s = .next u ∧ s.SameBut Warp.SameButIssue u e.c e.w) ∧
  ∀ (s : State) (e : Env) (f : FI), s.Issues f.g e →
    let t := fmtOf f.mod.toNat
    let a := fpOpnd 0 1 0 f.a t
    e.legal [a] = true → qOk f.d = true → e.quiet [a] = true →
    let r (l : Nat) : Bool × Nat := fnFcmp e t (f.imm.extractLsb' 0 3).toNat (a.val e l) (immFU f.mod (f.imm &&& 0xFFFFF8))
    let u := e.complete (costOf (.fcmpI f)) f.g (e.putFlags 1 (fuLat t) f.nf ((lanesOf e.act).map (fun l => (r l).2))
      (e.qResult 1 (fuLat t) f.d (fun l => (r l).1) (e.enter s)))
    exec (.fcmpI f) s = .next u ∧ s.SameBut Warp.SameButIssue u e.c e.w

/-- FRINT rounds each element to an integral value (R106); FCVT, F2I and I2F convert the elements of a group of registers
in order (R107 to R110). -/
def Obligations.FloatConvertResults : Prop :=
  ∀ (s : State) (e : Env) (f : F2), s.Issues f.g e →
    (let t := fmtOf f.mod.toNat;
      let a := fpOpnd 0 1 f.amod f.a t
      e.legal [a] = true → e.vOk f.d (t.width == 64) = true → e.quiet [a] = true →
      let u := e.complete (costOf (.frint f)) f.g (e.floatResult 1 (fuLat t)
        (e.phys f.d.toNat (if t.width == 64 then 2 else 1)) f.nf (fun l seed =>
          let v := mapElems (rintElem t (e.rm f.rnd)) ((List.range t.count).map (fun i => flushedElem e t (a.val e l) i)) seed
          (words (t.width == 64) (BitVec.ofNat 64 (packNats t.width v.1)), v.2)) (e.enter s))
      exec (.frint f) s = .next u ∧ s.SameBut Warp.SameButDraw u e.c e.w) ∧
    (let x := fmtOf (f.b.extractLsb' 0 3).toNat;
      let y := fmtOf f.mod.toNat
      let n := max x.count y.count
      e.convOk f n x.width y.width true = true →
      let u := e.complete (costOf (.fcvt f)) f.g (e.convResult f n x.width y.width true (fun v seed =>
        (resCvt y (e.sat y) (x.read v)).round y e.fmode (e.rm f.rnd) (e.sat y) seed) (e.enter s))
      exec (.fcvt f) s = .next u ∧ s.SameBut Warp.SameButDraw u e.c e.w) ∧
    (let x := fmtOf f.mod.toNat;
      let ty := (f.b.extractLsb' 0 3).toNat
      e.convOk f x.count x.width (intWidth ty) true = true →
      let u := e.complete (costOf (.f2i f)) f.g (e.convResult f x.count x.width (intWidth ty) true (fun v seed =>
        f2iElem x ty (e.rm f.rnd) (x.flush e.fmode v) seed) (e.enter s))
      exec (.f2i f) s = .next u ∧ s.SameBut Warp.SameButDraw u e.c e.w) ∧
    (let y := fmtOf f.mod.toNat;
      let ty := (f.b.extractLsb' 0 3).toNat
      e.convOk f y.count (intWidth ty) y.width false = true →
      let u := e.complete (costOf (.i2f f)) f.g (e.convResult f y.count (intWidth ty) y.width false (fun v seed =>
        let z : Int := if ty % 2 = 0 ∧ 2 ^ (intWidth ty - 1) ≤ v then (v : Int) - 2 ^ intWidth ty else v
        (Res.num (decide (z < 0)) z.natAbs 0 false 0).round y e.fmode (e.rm f.rnd) false seed) (e.enter s))
      exec (.i2f f) s = .next u ∧ s.SameBut Warp.SameButDraw u e.c e.w)

/-- FREDW combines the active lanes in R111's tree; the mode register and the sticky flags are read and written as R92 and
R97 say, FFLAGS once no FU or SF result is in flight. -/
def Obligations.FloatModeFlagReduceResults : Prop :=
  ∀ (s : State) (e : Env) (f : F2), s.Issues f.g e →
    (let t := fmtOf f.mod.toNat;
      let a := fpOpnd 0 1 f.amod f.a t
      let r := treeNodes (fredNode e t (f.b.extractLsb' 0 3).toNat (if e.rm f.rnd = 6 then 1 else e.rm f.rnd)) 5
        ((List.range e.size).map (fun i =>
          if e.act.getLsbD (e.base + i) then some (t.flush e.fmode (a.val e (e.base + i)).toNat) else none))
      let lat := if t.width == 64 then 40 else 20
      ∀ v, e.inLane = false → e.legal [a] = true → wOk f.d (t.width == 64) = true → e.quiet [a] = true → r.1 = some v →
      let u := e.complete (costOf (.fredw f)) f.g (e.putFlags 1 lat f.nf ((lanesOf e.act).map (fun _ => r.2))
        (e.wResult 1 lat f.d (t.width == 64) (BitVec.ofNat 64 v) (e.enter s)))
      exec (.fredw f) s = .next u ∧ s.SameBut Warp.SameButIssue u e.c e.w) ∧
    (∀ l, e.legal [f.srcA 1 false false] = true → e.quiet [f.srcA 1 false false] = true → lowest e.act = some l →
      exec (.fsetmode f) s = .next (e.complete (costOf (.fsetmode f)) f.g ((e.enter s).modWarp e.c e.w
        (fun w => { w with fmode := fmodeStore ((f.srcA 1 false false).val32 e l) })))) ∧
    (e.vwOk f.d false = true → e.act ≠ 0 →
      let u := e.complete (costOf (.fgetmode f)) f.g (e.putVW 1 2 false f.d false (e.fmode.setWidth 64) (e.enter s))
      exec (.fgetmode f) s = .next u ∧ s.SameBut Warp.SameButIssue u e.c e.w) ∧
    (e.vOk f.d false = true → e.floatLanded = true →
      let r := e.put 1 2 false .v (e.phys f.d.toNat 1) e.act (laneVals e.act (fun l => [SMap.get 0 e.warp.flags l]))
        (e.enter s)
      (let u := e.complete (costOf (.fflags f)) f.g r;
        exec (.fflags f) s = .next u ∧ s.SameBut Warp.SameButIssue u e.c e.w) ∧
      let u := e.complete (costOf (.fflagsClr f)) f.g (e.put 1 2 false .flagsClear [] e.act [] r)
      exec (.fflagsClr f) s = .next u ∧ s.SameBut Warp.SameButIssue u e.c e.w)

/-- The special functions (R112, R113): SQRT and FDIV round by RND, the others to nearest even; latencies of R54. -/
def Obligations.SpecialFunctionResults : Prop :=
  ∀ (s : State) (e : Env) (f : F2), s.Issues f.g e →
    let t := fmtOf f.mod.toNat
    let a := fpOpnd 0 2 f.amod f.a t
    (e.legal [a] = true → e.vOk f.d (t.width == 64) = true → e.quiet [a] = true →
      ∀ r ∈ ([(.rcp f, 12, 1, fnRcp t), (.rsq f, 12, 1, fnRsq t), (.sqrt f, 12, f.rnd, fnSqrt t), (.ex2 f, 12, 1, fnEx2 t),
          (.lg2 f, 12, 1, fnLg2 t), (.sinpi f, 16, 1, fnSinpi t), (.cospi f, 16, 1, fnCospi t),
          (.tanh f, 16, 1, fnTanh t), (.sigm f, 16, 1, fnSigm t)] : List (Instr × Nat × BitVec 3 × (FV → Res))),
        let u := e.complete (costOf r.1) f.g (e.floatResult 2 r.2.1 (e.phys f.d.toNat (if t.width == 64 then 2 else 1))
          f.nf (e.floatElements t r.2.2.1 (fun l _ i => r.2.2.2 (t.read (flushedElem e t (a.val e l) i)))) (e.enter s))
        exec r.1 s = .next u ∧ s.SameBut Warp.SameButDraw u e.c e.w) ∧
    (let b := fpOpnd 1 2 0 f.b t;
      e.legal [a, b] = true → e.vOk f.d (t.width == 64) = true → e.quiet [a, b] = true →
      let u := e.complete (costOf (.fdiv f)) f.g (e.floatResult 2 24 (e.phys f.d.toNat (if t.width == 64 then 2 else 1))
        f.nf (e.floatElements t f.rnd (fun l _ i =>
          fnFdiv t (t.read (flushedElem e t (a.val e l) i)) (t.read (flushedElem e t (b.val e l) i)))) (e.enter s))
      exec (.fdiv f) s = .next u ∧ s.SameBut Warp.SameButDraw u e.c e.w)

/-! ## Loads, stores, atomics and fences (R165 to R194, R211) -/

/-- LD and LD.ACQ: with legal operands, and every active lane aligned, translated, present and behind no fence, the access
is performed, and D is filled by what each lane reads (R166, R179 to R182). -/
def Obligations.LoadsArePerformed : Prop :=
  ∀ (s : State) (e : Env), lanesOf e.act ≠ [] →
    (∀ f : L2, s.Issues f.g e →
      let ad := lsAddr f.space 0 f.a
      let k := regsOf (2 ^ f.mod.toNat)
      addrClass f.space f.a = true → e.legal (ad :: idxOpnd f.b) = true → e.groupOk f.d k = true →
      e.quiet (ad :: idxOpnd f.b) = true →
      ∀ r ∈ ([(.ld f, false), (.ldAcq f, true)] : List (Instr × Bool)),
        let a := accessOf .load f.space f.scope.toNat (2 ^ f.mod.toNat) r.2 false f.hint.toNat (lanesOf e.act)
          (fun l => effAddr f.space (ad.val e l) (idxOff f.b e l)) (fun _ => []) (fun _ => [])
        e.lsNow a (e.enter s) = true → exec r.1 s = .next (e.complete (costOf r.1) f.g
          (e.lsEffect a (some (loadDest f.space (e.phys f.d.toNat k) r.2)) (e.enter s)))) ∧
    ∀ f : LI, s.Issues f.g e →
      let ad := lsAddr f.space 0 f.a
      let k := regsOf (2 ^ f.mod.toNat)
      addrClass f.space f.a = true → e.legal [ad] = true → e.groupOk f.d k = true → e.quiet [ad] = true →
      ∀ r ∈ ([(.ldI f, false), (.ldAcqI f, true)] : List (Instr × Bool)),
        let a := accessOf .load f.space f.scope.toNat (2 ^ f.mod.toNat) r.2 false 0 (lanesOf e.act)
          (fun l => effAddr f.space (ad.val e l) (f.imm.signExtend 64)) (fun _ => []) (fun _ => [])
        e.lsNow a (e.enter s) = true → exec r.1 s = .next (e.complete (costOf r.1) f.g
          (e.lsEffect a (some (loadDest f.space (e.phys f.d.toNat k) r.2)) (e.enter s)))

/-- LDW loads once, for the lowest active lane, into w registers (R181); LD.RACQ loads as an acquire once the core that B
names has drained its write buffer at device scope, at once when it is its own (R183). -/
def Obligations.UniformAndRemoteAcquireLoads : Prop :=
  ∀ (s : State) (e : Env), e.inVector = false →
    (∀ (f : L2) (l : Nat), s.Issues f.g e → lowest e.act = some l →
      let ad := lsAddr f.space 0 f.a
      let k := regsOf (2 ^ f.mod.toNat)
      let a := accessOf .load f.space f.scope.toNat (2 ^ f.mod.toNat) false false f.hint.toNat [l]
        (fun l => effAddr f.space (ad.val e l) (idxOff f.b e l)) (fun _ => []) (fun _ => [])
      addrClass f.space f.a = true → e.legal (ad :: idxOpnd f.b) = true → wOk f.d (k == 2) = true →
      e.quiet (ad :: idxOpnd f.b) = true → e.lsNow a (e.enter s) = true →
      exec (.ldw f) s = .next (e.complete (costOf (.ldw f)) f.g
        (e.lsEffect a (some ⟨.w, (List.range k).map (fun i => f.d.toNat - 384 + i), 0, true⟩) (e.enter s)))) ∧
    (∀ (f : LI) (l : Nat), s.Issues f.g e → lowest e.act = some l →
      let ad := lsAddr f.space 0 f.a
      let k := regsOf (2 ^ f.mod.toNat)
      let a := accessOf .load f.space f.scope.toNat (2 ^ f.mod.toNat) false false 0 [l]
        (fun l => effAddr f.space (ad.val e l) (f.imm.signExtend 64)) (fun _ => []) (fun _ => [])
      addrClass f.space f.a = true → e.legal [ad] = true → wOk f.d (k == 2) = true → e.quiet [ad] = true →
      e.lsNow a (e.enter s) = true →
      exec (.ldwI f) s = .next (e.complete (costOf (.ldwI f)) f.g
        (e.lsEffect a (some ⟨.w, (List.range k).map (fun i => f.d.toNat - 384 + i), 0, true⟩) (e.enter s)))) ∧
    ∀ f : L2, s.Issues f.g e → lanesOf e.act ≠ [] →
      let ad := lsAddr f.space 0 f.a
      let b : Opnd := ⟨3, 1, 0, f.b, false, false⟩
      let k := regsOf (2 ^ f.mod.toNat)
      let a := accessOf .load 0 f.scope.toNat (2 ^ f.mod.toNat) true false f.hint.toNat (lanesOf e.act)
        (fun l => effAddr f.space (ad.val e l) 0) (fun _ => []) (fun _ => [])
      addrClass f.space f.a = true → isW f.b = true → e.legal [ad, b] = true → e.groupOk f.d k = true →
      e.quiet [ad, b] = true → (b.val32 e 0).toNat < 576 → e.lsNow a (e.enter s) = true →
      (b.val32 e 0).toNat = e.c ∨ e.path.granted.contains .racq = true →
      exec (.ldRacq f) s = .next (e.complete (costOf (.ldRacq f)) f.g
        (e.lsEffect a (some (loadDest f.space (e.phys f.d.toNat k) true)) (e.enter s)))

/-- ST and ST.REL: the address is in D and the data in A (R176), a group of v or w registers for ST, any source of its
width for ST.REL; each active lane's bytes go where its address says. -/
def Obligations.StoresArePerformed : Prop :=
  ∀ (s : State) (e : Env), lanesOf e.act ≠ [] →
    (∀ f : L2, s.Issues f.g e →
      let ad := lsAddr f.space noPort f.d
      let n := 2 ^ f.mod.toNat
      let at_ (l : Nat) : Nat := effAddr f.space (ad.val e l) (idxOff f.b e l)
      addrClass f.space f.d = true →
      (let a := accessOf .store f.space f.scope.toNat n false false f.hint.toNat (lanesOf e.act) at_
          (e.dataWords f.a (regsOf n)) (fun _ => []);
        e.legal (ad :: idxOpnd f.b) = true → e.dataOk f.a (regsOf n) = true → e.quiet (ad :: idxOpnd f.b) = true →
        e.dataQuiet f.a (regsOf n) = true → e.lsNow a (e.enter s) = true →
        exec (.st f) s = .next (e.complete (costOf (.st f)) f.g (e.lsEffect a none (e.enter s)))) ∧
      (let o := storeRelData f.mod f.a;
        let a := accessOf .store f.space f.scope.toNat n false true f.hint.toNat (lanesOf e.act) at_
          (fun l => o.wordsOf e l n) (fun _ => [])
        e.legal (ad :: o :: idxOpnd f.b) = true → e.quiet (ad :: o :: idxOpnd f.b) = true →
        e.lsNow a (e.enter s) = true →
        exec (.stRel f) s = .next (e.complete (costOf (.stRel f)) f.g (e.lsEffect a none (e.enter s))))) ∧
    ∀ f : LI, s.Issues f.g e →
      let ad := lsAddr f.space noPort f.d
      let n := 2 ^ f.mod.toNat
      let at_ (l : Nat) : Nat := effAddr f.space (ad.val e l) (f.imm.signExtend 64)
      addrClass f.space f.d = true →
      (let a := accessOf .store f.space f.scope.toNat n false false 0 (lanesOf e.act) at_
          (e.dataWords f.a (regsOf n)) (fun _ => []);
        e.legal [ad] = true → e.dataOk f.a (regsOf n) = true → e.quiet [ad] = true →
        e.dataQuiet f.a (regsOf n) = true → e.lsNow a (e.enter s) = true →
        exec (.stI f) s = .next (e.complete (costOf (.stI f)) f.g (e.lsEffect a none (e.enter s)))) ∧
      (let o := storeRelData f.mod f.a;
        let a := accessOf .store f.space f.scope.toNat n false true 0 (lanesOf e.act) at_
          (fun l => o.wordsOf e l n) (fun _ => [])
        e.legal [ad, o] = true → e.quiet [ad, o] = true → e.lsNow a (e.enter s) = true →
        exec (.stRelI f) s = .next (e.complete (costOf (.stRelI f)) f.g (e.lsEffect a none (e.enter s))))

/-- ATOM, CAS and their 64-bit forms read the old value into D; RED has its address in D and no result (R176, R184). -/
def Obligations.AtomicsArePerformed : Prop :=
  ∀ (s : State) (e : Env), lanesOf e.act ≠ [] →
    (∀ f : L2, s.Issues f.g e →
      ∀ r ∈ ([(.atom f, 4, false), (.atomX f, 8, true)] : List (Instr × Nat × Bool)),
        let ad := lsAddr f.space 0 f.a
        let b : Opnd := ⟨3, 1, 0, f.b, r.2.2, false⟩
        let a := accessOf (.atom f.mod.toNat) f.space f.scope.toNat r.2.1 false false f.hint.toNat (lanesOf e.act)
          (fun l => effAddr f.space (ad.val e l) 0) (fun l => b.wordsOf e l r.2.1) (fun _ => [])
        addrClass f.space f.a = true → e.legal [ad, b] = true → e.groupOk f.d (regsOf r.2.1) = true →
        e.quiet [ad, b] = true → e.lsNow a (e.enter s) = true → exec r.1 s = .next (e.complete (costOf r.1) f.g
          (e.lsEffect a (some ⟨.v, e.phys f.d.toNat (regsOf r.2.1), 0, true⟩) (e.enter s)))) ∧
    (∀ f : L3, s.Issues f.g e →
      ∀ r ∈ ([(.cas f, 4, false), (.casX f, 8, true)] : List (Instr × Nat × Bool)),
        let ad := lsAddr f.space 0 f.a
        let b : Opnd := ⟨3, 1, 0, f.b, r.2.2, false⟩
        let c : Opnd := ⟨3, 2, 0, f.c, r.2.2, false⟩
        let a := accessOf .cas f.space f.scope.toNat r.2.1 false false 0 (lanesOf e.act)
          (fun l => effAddr f.space (ad.val e l) 0) (fun l => b.wordsOf e l r.2.1) (fun l => c.wordsOf e l r.2.1)
        addrClass f.space f.a = true → e.legal [ad, b, c] = true → e.groupOk f.d (regsOf r.2.1) = true →
        e.quiet [ad, b, c] = true → e.lsNow a (e.enter s) = true → exec r.1 s = .next (e.complete (costOf r.1) f.g
          (e.lsEffect a (some ⟨.v, e.phys f.d.toNat (regsOf r.2.1), 0, true⟩) (e.enter s)))) ∧
    ∀ f : L2, s.Issues f.g e →
      let ad := lsAddr f.space noPort f.d
      let o : Opnd := ⟨3, 0, 0, f.a, false, false⟩
      let a := accessOf (.red f.mod.toNat) f.space f.scope.toNat 4 false false f.hint.toNat (lanesOf e.act)
        (fun l => effAddr f.space (ad.val e l) 0) (fun l => [o.val32 e l]) (fun _ => [])
      addrClass f.space f.d = true → e.legal [ad, o] = true → e.quiet [ad, o] = true → e.lsNow a (e.enter s) = true →
      exec (.red f) s = .next (e.complete (costOf (.red f)) f.g (e.lsEffect a none (e.enter s)))

/-- The fences go on once what they order has been performed (R186, R211): FENCE.FULL with the drain of its scope and
FENCE.ACQ without end in the acquire's cache action, FENCE.REL goes on at once and leaves later writes behind, FENCE.ENG
goes on once the engine requests of the path's threads are done, with an acquire and a release. -/
def Obligations.FencesComplete : Prop :=
  ∀ (s : State) (e : Env) (f : L2), s.Issues f.g e → e.inVector = false →
    let u := e.enter s
    (e.settledNow u (u.drains e.c f.scope.toNat) = true →
      exec (.fenceFull f) s = .next (e.complete (costOf (.fenceFull f)) f.g (u.acquire e.c f.scope.toNat))) ∧
    (e.settledNow u false = true →
      exec (.fenceAcq f) s = .next (e.complete (costOf (.fenceAcq f)) f.g (u.acquire e.c f.scope.toNat))) ∧
    exec (.fenceRel f) s = .next (e.complete (costOf (.fenceRel f)) f.g
      (if u.performed e.c e.w u.nonce (u.drains e.c f.scope.toNat) then u
        else (u.modWarp e.c e.w (fun w => { w with relSeq := u.nonce })).tickNonce)) ∧
    ((u.core e.c).enginesDone e.w e.path.mask = true ∨ e.path.granted.contains .engines = true →
      e.settledNow u false = true →
      let v := u.acquire e.c f.scope.toNat
      exec (.fenceEng f) s = .next (e.complete (costOf (.fenceEng f)) f.g
        (if v.performed e.c e.w v.nonce (v.drains e.c f.scope.toNat) then v
          else (v.modWarp e.c e.w (fun w => { w with relSeq := v.nonce })).tickNonce)))

/-- The cache controls act on the line of each active lane that has a translation into module memory: drop it, fetch it,
mark it first to go; INVALL empties the L1 at once (R194). -/
def Obligations.CacheControlsComplete : Prop :=
  ∀ (s : State) (e : Env) (f : L2), s.Issues f.g e →
    let ad := lsAddr 0 0 f.a
    let lanes (g : State → Nat → State) : State :=
      (lanesOf e.act).foldl (fun u l => match e.cctlPa u ad l with | some pa => g u pa | none => u) (e.enter s)
    (addrClass 0 f.a = true → e.legal [ad] = true → e.quiet [ad] = true →
      exec (.cctlInvl f) s = .next (e.complete (costOf (.cctlInvl f)) f.g (lanes (fun u pa => u.l1Drop e.c pa))) ∧
      exec (.cctlPref f) s = .next (e.complete (costOf (.cctlPref f)) f.g (lanes (fun u pa =>
        let u := { u with l2 := if (u.l2.find? (pa / 128)).isSome then u.l2 else u.l2.put (pa / 128) 0 }
        (u.l1Read e.c pa 1 0).2))) ∧
      exec (.cctlEvf f) s = .next (e.complete (costOf (.cctlEvf f)) f.g (lanes (fun u pa =>
        { u with l2 := u.l2.put (pa / 128) 1 })))) ∧
    (e.act ≠ 0 → exec (.cctlInvall f) s =
      .next (e.complete (costOf (.cctlInvall f)) f.g ((e.enter s).acquire e.c 5)))

/-- The barrier instructions act once, on the object that the lowest active lane addresses, once no earlier acquire or
release of their warp stands before them (R187 to R191, R197): ARRIVE reads the phase and counts, behind a strand's accesses
that still wait for a translation once those are done (R190), WAITPH goes on when the
phase is not its token's, TRYPH looks once, BARINIT writes the object; each asks the object's banks for its words (R168).
PRES reads the presence of each active lane's line (R193). -/
def Obligations.BarriersComplete : Prop :=
  ∀ (s : State) (e : Env) (f : L2) (l : Nat) (p : Nat × Nat × Nat), s.Issues f.g e → lowest e.act = some l →
    let u := e.enter s
    let ad := lsAddr f.space 0 f.a
    let b : Opnd := ⟨3, 1, 0, f.b, false, false⟩
    let n := (b.val32 e l).toNat
    let ph := (Bar.read (u.scratchRead p.1 p.2.1 p.2.2 16)).1.ph
    let asked (t : State) : State := e.askObject f.space l p t
    (e.inVector = false → e.legal [ad, b] = true → e.quiet [ad, b] = true → e.barOrder false u = .ok () →
      (wOk f.d false = true → countOk n = true → e.barPlace u f.space ad l true false = .ok p →
        let v := asked (e.put 3 2 false .w [f.d.toNat - 384] (bit l) [if ph then 1 else 0] u)
        exec (.arrive f) s = .next (e.complete (costOf (.arrive f)) f.g
          (if e.behindWalk v then
            e.laterArrive f.space f.scope.toNat l (effAddr f.space (ad.val e l) 0) (BitVec.ofNat 32 n) v
          else if v.performed e.c e.w v.nonce (v.drains e.c f.scope.toNat) && !e.relBehind v true then
            v.barOp p.1 p.2.1 p.2.2 (Bar.arrive n)
          else v.wbPush e.c e.w 0 (.arrive p.1 p.2.1 p.2.2 n) true))) ∧
      (e.barPlace u f.space ad l false false = .ok p →
        (ph ≠ (b.val32 e l).getLsbD 0 → exec (.waitph f) s = .next (e.complete (costOf (.waitph f)) f.g
          (asked (u.acquire e.c f.scope.toNat)))) ∧
        (ph = (b.val32 e l).getLsbD 0 →
          e.path.granted.contains (.phase p.1 p.2.1 p.2.2 ((b.val32 e l).getLsbD 0)) = true →
          exec (.waitph f) s = .next (e.complete (costOf (.waitph f)) f.g (u.acquire e.c f.scope.toNat)))) ∧
      (qOk f.d = true → e.barPlace u f.space ad l false false = .ok p →
        let yes := ph != (b.val32 e l).getLsbD 0
        exec (.tryph f) s = .next (e.complete (costOf (.tryph f)) f.g
          (e.put 3 12 false .pred [(f.d.extractLsb' 0 4).toNat] e.act [if yes then e.act else 0]
            (asked (if yes then u.acquire e.c f.scope.toNat else u))))) ∧
      (countOk n = true → e.barPlace u f.space ad l true true = .ok p → e.barOrder true u = .ok () →
        exec (.barinit f) s = .next (e.complete (costOf (.barinit f)) f.g
          (((asked u).scratchPut p.1 p.2.1 p.2.2 (Bar.write ⟨false, n, n, 0, 0, 0, 0⟩)).recheck p.1 p.2.1 p.2.2 16)))) ∧
    (e.legal [ad] = true → e.quiet [ad] = true → qOk f.d = true →
      (lanesOf e.act).all (fun l => (e.presPlace u f.space ad l).isSome) = true →
      let t := e.complete (costOf (.pres f)) f.g (e.qResult 3 2 f.d (fun l =>
        match e.presPlace u f.space ad l with | some p => u.linePresent p.1 p.2.1 (p.2.2 / 128) | none => false) u)
      exec (.pres f) s = .next t ∧ s.SameBut Warp.SameButIssue t e.c e.w)

/-! ## The sequencer (R116 to R148, R161, R163) -/

/-- A direct branch (R132, R134, R142): with no thread active it does nothing; when every thread of its path goes, the path
goes to the target, out of the innermost loop if the target lies outside its body; when some go, the path splits, and the
record takes the table's reconvergence offset; with at most 16 records afterwards nothing spills. BRA.U takes or leaves the
whole path by its lowest thread. -/
def Obligations.DirectBranches : Prop :=
  ∀ (s : State) (e : Env) (f : FC), s.Issues f.g e → e.midLoop = true →
    let u := e.enter s
    let t := e.pc + f.imm
    let r := e.blk.reconv e.pc
    let rest := e.path.mask &&& ~~~e.act
    (e.act = 0 → exec (.bra f) s = .next (e.complete (costOf (.bra f)) f.g u)) ∧
    (e.wholePath = 0 → exec (.braU f) s = .next (e.complete (costOf (.braU f)) f.g u)) ∧
    (e.inFolio t = true → f.imm.extractLsb' 0 3 = 0 →
      (e.act ≠ 0 → e.strand = true ∨ rest = 0 →
        exec (.bra f) s = .next (e.complete (costOf (.bra f)) f.g (e.goto t (e.leave t u)))) ∧
      (e.act ≠ 0 → e.strand = false → rest ≠ 0 →
        (∀ l ∈ e.loops.head?, r ≠ noReconv ∧ l.inside r = true) → e.warp.allRecs.length < 256 →
        let v := (u.deferOther e.c e.w (!e.alt) e.warp.rix).modWarp e.c e.w (fun w => w.openRegion e.alt e.act rest t r e.next)
        (∀ x, (v.core e.c).warps.find? e.w = some x → x.allRecs.length ≤ 16 → e.spill v = .ok v) ∧
        ∀ v', e.spill v = .ok v' → exec (.bra f) s = .next (e.complete (costOf (.bra f)) f.g v')) ∧
      (e.wholePath ≠ 0 → exec (.braU f) s = .next (e.complete (costOf (.braU f)) f.g (e.goto t (e.leave t u)))))

/-- CALL (R131, R136): as a branch to its target, whose threads reconverge after the call unless the table says where; the
link register of every thread that goes gets the offset after the call. -/
def Obligations.Calls : Prop :=
  ∀ (s : State) (e : Env) (f : FC), s.Issues f.g e → e.midLoop = true → e.jumpOk f.a false = true →
    let u := e.enter s
    let t := e.pc + f.imm
    let r := if e.blk.reconv e.pc == noReconv then e.pc + 8 else e.blk.reconv e.pc
    let rest := e.path.mask &&& ~~~e.act
    e.inFolio t = true → f.imm.extractLsb' 0 3 = 0 → e.act ≠ 0 →
    (e.strand = true ∨ rest = 0 →
      exec (.call f) s = .next (e.complete (costOf (.call f)) f.g (e.link f.a.toNat e.act (e.goto t u)))) ∧
    (e.strand = false → rest ≠ 0 → (∀ l ∈ e.loops.head?, r ≠ noReconv ∧ l.inside r = true) →
      e.warp.allRecs.length < 256 →
      let v := (u.deferOther e.c e.w (!e.alt) e.warp.rix).modWarp e.c e.w (fun w => w.openRegion e.alt e.act rest t r e.next)
      ∀ v', e.spill v = .ok v' → exec (.call f) s = .next (e.complete (costOf (.call f)) f.g (e.link f.a.toNat e.act v')))

/-- BRX, RET and CALLX (R132, R135, R136): the threads whose target is the lowest active thread's go there, by landing
points for BRX and CALLX; the others stay to issue the instruction again. CALLX links; RET and CALLX close no loop. -/
def Obligations.IndirectTransfers : Prop :=
  ∀ (s : State) (e : Env) (f : FC), s.Issues f.g e → e.midLoop = true → (e.group f.a).1 ≠ 0 →
    let u := e.enter s
    let g := e.group f.a
    let x := e.blk.reconv e.pc
    let rest := e.path.mask &&& ~~~g.1
    ∀ r ∈ ([(.brx f, false, true, true, noReconv), (.ret f, false, false, false, noReconv),
        (.callx f, true, true, false, e.pc + 8)] : List (Instr × Bool × Bool × Bool × W32)),
      e.jumpOk f.a r.2.1 = true → e.jumpQuiet f.a = true → e.targetsOk f.a r.2.2.1 = true →
      let fin (v : State) : State := if r.2.1 then e.link (f.a.toNat + 1) g.1 v else v
      let at_ := if x == noReconv then r.2.2.2.2 else x
      (e.strand = true ∨ rest = 0 → exec r.1 s = .next (e.complete (costOf r.1) f.g
        (fin (e.goto g.2 (if r.2.2.2.1 then e.leave g.2 u else u))))) ∧
      (e.strand = false → rest ≠ 0 → (∀ l ∈ e.loops.head?, at_ ≠ noReconv ∧ l.inside at_ = true) →
        e.warp.allRecs.length < 256 →
        let v := (u.deferOther e.c e.w (!e.alt) e.warp.rix).modWarp e.c e.w (fun w => w.openRegion e.alt g.1 rest g.2 at_ e.pc)
        ∀ v', e.spill v = .ok v' → exec r.1 s = .next (e.complete (costOf r.1) f.g (fin v')))

/-- BRK takes the active threads out of their path and of the records inside the n-th (R137, R138); EXIT ends them, and a
strand's EXIT ends the strand and its warp (R125, R139). -/
def Obligations.BreakAndExit : Prop :=
  ∀ (s : State) (e : Env) (f : FC), s.Issues f.g e → e.midLoop = true → e.act ≠ 0 →
    let u := e.enter s
    let n := f.mod.toNat + 1
    (e.strand = false → e.breakOk n = true →
      let v := u.modWarp e.c e.w (fun w =>
        { (w.modPath e.alt (fun p => p.without e.act)) with
          recs := (w.recs.take (n - 1)).map (fun d => { d with m := d.m &&& ~~~e.act }) ++ w.recs.drop (n - 1) })
      ∀ v', e.spill v = .ok v' → exec (.brk f) s = .next (e.complete (costOf (.brk f)) f.g v')) ∧
    (e.strand = false →
      let v := u.modWarp e.c e.w (fun w => w.exitThreads e.act)
      ∀ v', e.spill v = .ok v' → exec (.exit f) s = .next (e.complete (costOf (.exit f)) f.g v')) ∧
    (e.strand = true → exec (.exit f) s = .next (e.complete (costOf (.exit f)) f.g
      ((u.modWarp e.c e.w (fun w => w.exitThreads 0xFFFFFFFF)).modPath e.c e.w e.alt
        (fun p => { p with park := some .exit }))))

/-- LOOP and LOOP.PIPE open a loop of n executions of the body that follows, n from the immediate or a w register, or skip
a body of none (R141); the pipelined form sets q8 in the issuer's lanes unless n is 0, clears q9 to q14, and runs K times
longer (R143). ROTSET sets the rotating region and clears its count (R144). -/
def Obligations.LoopsAndRotation : Prop :=
  ∀ (s : State) (e : Env) (f : FC), s.Issues f.g e → e.midLoop = true → e.single = true →
    let u := e.enter s
    (f.a = 480 ∨ (isW f.a = true ∧ e.blocked [] [f.a.toNat - 384] = false) →
      e.loops.length < (if e.strand then 16 else 4) →
      let n := if f.a == 480 then (f.imm.extractLsb' 16 16).toNat else (e.wread (f.a.toNat - 384)).toNat
      let len := (f.imm.extractLsb' 0 12).toNat
      let lanes := if e.strand then e.dec else 0xFFFFFFFF
      let stop := e.next + BitVec.ofNat 32 (8 * len)
      let v := u.modWarp e.c e.w (fun w => { w with
        q := (List.range 6).foldl (fun q i => putQ q (9 + i) lanes 0) (putQ w.q 8 lanes (if n = 0 then 0 else 0xFFFFFFFF)) })
      exec (.loop f) s = .next (e.complete (costOf (.loop f)) f.g
        (if n = 0 then u.modPath e.c e.w e.alt (fun p => { p with pc := stop })
          else e.setLoops (⟨e.next, n, n - 1, false, len⟩ :: ·) u)) ∧
      exec (.loopPipe f) s = .next (e.complete (costOf (.loopPipe f)) f.g
        (if n = 0 then v.modPath e.c e.w e.alt (fun p => { p with pc := stop })
          else e.setLoops (⟨e.next, n + (f.imm.extractLsb' 13 3).toNat, n - 1, true, len⟩ :: ·) v))) ∧
    (let base := (f.imm.extractLsb' 23 9).toNat;
      let size := (f.imm.extractLsb' 14 9).toNat
      base % 8 = 0 → size % 8 = 0 → base + size ≤ 8 * e.role.regs →
      exec (.rotset f) s = .next (e.complete (costOf (.rotset f)) f.g
        (u.modWarp e.c e.w (fun w => { w with rotbase := f.imm &&& 0xFFFFC000 }))))

/-- MODE.COLLAPSE parks a whole converged warp until its clusters are free, to go on at the target as a strand (R146);
MODE.EXPAND ends the issue of bundles until the strand has come to rest (R148); SYNC parks a converged warp at the kettle
line of its level once its results have landed and its accesses are released at the level's scope (R163, R197). -/
def Obligations.ModeChangesAndSync : Prop :=
  ∀ (s : State) (e : Env) (f : FC), s.Issues f.g e →
    let u := e.enter s
    (let t := e.pc + (f.imm &&& 0xFFFFFFF8);
      e.strand = false → e.inFolio t = true → e.midLoop = true → e.single = true → e.path.mask = ~~~e.warp.exited →
      e.warp.loops = [] → e.warp.hand = none →
      exec (.modeCollapse f) s = .next (e.complete (costOf (.modeCollapse f)) f.g
        (u.modPath e.c e.w e.alt (fun _ =>
          { e.path with park := some (.collapse (2 ^ (f.imm.extractLsb' 0 2).toNat) t) })))) ∧
    (e.strand = true → e.inFolio (e.pc + f.imm) = true → e.loops = [] →
      exec (.modeExpand f) s = .next (e.complete (costOf (.modeExpand f)) f.g
        (u.modStrand e.c (fun x => { x with st := .expand (u.strandIdle e.c e.w), cont := e.pc + f.imm })))) ∧
    (let level := f.imm.toNat;
      e.strand = false → e.midLoop = true → e.single = true → e.core.domain.getLsbD (level - 1) = true →
      e.warp.results = [] → e.settledNow u (u.drains e.c (level + 2)) = true →
      exec (.sync f) s = .next (e.complete (costOf (.sync f)) f.g
        (u.modPath e.c e.w e.alt (fun _ => { e.path with park := some (.sync level) }))))

/-- TRAP raises its software cause with the active lanes, and does nothing with none (R125, R160); NOP n idles its path,
YIELD puts it last, ELECT writes its predicate at issue, ERET returns from the handler once its results have landed
(R125, R161). -/
def Obligations.SmallSequencing : Prop :=
  ∀ (s : State) (e : Env), e.midLoop = true →
    let u := e.enter s
    (∀ f : FC, s.Issues f.g e → 0x80 ≤ f.imm.toNat → f.imm.toNat ≤ 0xFF →
      (e.act = 0 → exec (.trap f) s = .next (e.complete (costOf (.trap f)) f.g u)) ∧
      (e.act ≠ 0 → exec (.trap f) s = .next (e.chosen (e.trapNext s (f.imm.extractLsb' 0 8) e.act)))) ∧
    (∀ f : FC, s.Issues f.g e →
      let n := (f.imm.extractLsb' 0 16).toNat
      exec (.nop f) s = .next (e.complete (costOf (.nop f)) f.g
        (if n = 0 then u else u.modPath e.c e.w e.alt (fun p => { p with park := some (.nop (n + 1)) }))) ∧
      exec (.yield f) s = .next (e.complete (costOf (.yield f)) f.g
        (if e.strand then u else u.modPath e.c e.w e.alt (fun p => { p with yielded := true })))) ∧
    (∀ (f : F2) (l : Nat), s.Issues f.g e → e.strand = false → qOk f.d = true → lowest e.act = some l →
      exec (.elect f) s = .next (e.complete (costOf (.elect f)) f.g
        (u.modWarp e.c e.w (fun w => { w with q := putQ w.q (f.d.extractLsb' 0 4).toNat e.act (bit l) })))) ∧
    ∀ (f : FC) (h : Handler), s.Issues f.g e → e.strand = false → e.single = true → e.warp.hand = some h →
      e.path.mask = h.mask &&& ~~~(e.warp.exited &&& ~~~h.gone) → e.warp.results = [] →
      e.warp.keepsPc e.core = true ∨ e.warp.snapLanded e.core = true →
      exec (.eret f) s = .next (e.complete (costOf (.eret f)) f.g (u.leaveTrap e.c e.w))

/-- FOLLD empties its slot and starts the read of the folio at the address in a w pair; FOLFREE empties its slot; both name
a slot of the block (R120, R121). DOMSET, in a privileged warp, writes the fields of the domain register and waits for no
SYNC (R125, R333). -/
def Obligations.FoliosAndDomain : Prop :=
  ∀ (s : State) (e : Env) (f : FC), s.Issues f.g e → e.midLoop = true →
    let u := e.enter s
    let sl := (f.imm.extractLsb' 0 4).toNat
    (let va : W64 := e.wread (f.a.toNat - 383) ++ e.wread (f.a.toNat - 384);
      wOk f.a true = true → sl < e.blk.slots → e.blocked [] [f.a.toNat - 384, f.a.toNat - 383] = false →
      va.extractLsb' 0 6 = 0 → canonical va.toNat = true →
      let v := (u.modBlock e.c e.warp.rix (fun b =>
        { b with folios := KMap.del b.folios sl, loading := b.loading ++ [sl] })).modCore e.c (fun k =>
          { k with floads := k.floads ++ [⟨e.w, e.alt, sl, va.toNat, u.time + Config.walkDelay u.nonce, none, e.pc, none⟩] })
      exec (.folld f) s = .next (e.complete (costOf (.folld f)) f.g (e.holdAt .folld v.tickNonce))) ∧
    (sl < e.blk.slots → exec (.folfree f) s = .next (e.complete (costOf (.folfree f)) f.g
      (u.modBlock e.c e.warp.rix (fun b => { b with folios := KMap.del b.folios sl })))) ∧
    (let v := domainStore (e.wread (f.a.toNat - 384));
      e.warp.priv = true → wOk f.a false = true → e.blocked [] [f.a.toNat - 384] = false → e.single = true →
      v.getLsbD 7 = false ∨ (e.core.blocks.find? (v.extractLsb' 8 3).toNat).isSome = true →
      (u.core e.c).syncWaiting = false →
      exec (.domset f) s = .next (e.complete (costOf (.domset f)) f.g
        { (u.modCore e.c (fun k => { k with
            domain := v
            member := if v.getLsbD 7 then (k.blocks.find? (v.extractLsb' 8 3).toNat).map (fun b => (b.grid, b.bno)) else none })) with
          grids := u.grids.map (fun g => (g.1, { g.2 with doms := g.2.doms.filter (fun d => d.1 ≠ e.c) })) }))

/-! ## The matrix engine (R247 to R284, R291 to R293) -/

/-- MMS and MMSZ, when their turn in engine order has come, start one step of the table entry that MOD names: on the bank D,
the fragments in A and B and the scales of the entry, for the cycles of the formats; MMSZ from zero (R253, R256, R259,
R264, R265, R268). -/
def Obligations.MatrixStepsStart : Prop :=
  ∀ (s : State) (e : Env) (f : F2) (l bank ent : Nat) (sa sb : List Byte), s.Issues f.g e → e.size = 32 →
    e.bank f.d = .ok bank → f.a.toNat < 384 → f.a.toNat % 4 = 0 → f.b.toNat < 384 → f.b.toNat % 4 = 0 →
    e.elected = some l → e.entryIndex e.blk f.mod (bit l) = .ok ent →
    let v := SMap.get 0 e.blk.ft ent
    let na := fragRegs (fmtStep v).1 (eltBits (fmtA v))
    let nb := fragRegs (fmtStep v).1 (eltBits (fmtB v))
    e.fragsNow f (e.enter s) = true → e.regRange f.a na 4 = true → e.regRange f.b nb 4 = true →
    e.blocked (e.phys f.a.toNat na) [] = false → e.blocked (e.phys f.b.toNat nb) [] = false →
    ∀ r ∈ ([(.mms f, false), (.mmsz f, true)] : List (Instr × Bool)),
      let x := e.entry r.1 true [f.d.toNat] (e.enter s)
      e.mxReady x (e.enter s) = true →
      let u := e.mxTake x (e.enter s)
      (u.core e.c).stepScales e.blk ent false = some sa → (u.core e.c).stepScales e.blk ent true = some sb →
      exec r.1 s = .next (e.complete (costOf r.1) f.g (u.mxBegin e.c ⟨.step r.2 bank ent v (e.fragment f.a na)
        (e.fragment f.b nb) sa sb, x, (fmtStep v).2, 160, e.mxClass f.g 0⟩ 0))

/-- MMSG starts with the read of the record that B addresses, a BF16 entry without scales, whose banks are asked when its
lines are present; its issuer waits until the record has been checked (R291 to R293). -/
def Obligations.MarbledStepReadsItsRecord : Prop :=
  ∀ (s : State) (e : Env) (f : F2) (l bank ent : Nat), s.Issues f.g e → e.size = 32 → e.bank f.d = .ok bank →
    f.a.toNat < 384 → f.a.toNat % 4 = 0 → isW f.b = true → e.regRange f.a 16 4 = true → e.elected = some l →
    e.blocked [] [f.b.toNat - 384] = false →
    let val := e.wread (f.b.toNat - 384)
    let off := (val &&& 0xFFFFFFC0).toNat
    let v := SMap.get 0 e.blk.ft ent
    let x := e.entry (.mmsg f) true [f.d.toNat] (e.enter s)
    val.extractLsb' 2 4 = 0 → off + 64 ≤ e.blk.window → (e.enter s).recordClasped e.c e.warp.rix off = false →
    e.mxReady x (e.enter s) = true → e.entryIndex e.blk f.mod (bit l) = .ok ent →
    fmtA v = 0 → fmtB v = 0 → v.extractLsb' 8 2 = 0 → e.blocked (e.phys f.a.toNat 16) [] = false →
    let v0 := e.mxTake x (e.enter s)
    let there := v0.bytesPresent e.c e.warp.rix off 64
    let r : MxRead := ⟨x, bank, ent, e.fragment f.a 16, off, (val.extractLsb' 0 2).toNat, e.mxClass f.g 1, 0, false, there⟩
    let u := (v0.modMx e.c (fun m => { m with reading := some r })).modClock e.c (fun k => { k with mxProgress := true })
    let w := if there then u.askRecord e.c e.warp.rix off else u
    exec (.mmsg f) s = .next (e.complete (costOf (.mmsg f)) f.g
      ((w.modPath e.c e.w e.alt (fun p =>
        if e.strand then { p with park := some .record } else { e.path with park := some .record })).tickNonce))

/-- ACCRD reads a row group of a bank into registers, converted, 10 cycles later; ACCWR writes one from registers
(R271 to R274); ACCCLR zeroes a bank and ACCADD adds one to another (R275). Each starts in its turn of engine order. -/
def Obligations.AccumulatorTransfersStart : Prop :=
  ∀ (s : State) (e : Env) (f : F2) (l : Nat), s.Issues f.g e → e.elected = some l →
    let n := tileRegs f.mod.toNat
    let sel := plainOpnd 5 f.b
    let v := sel.val32 e l
    let u := e.enter s
    (e.size = 32 → e.plainOk 5 f.b = true → e.quiet [sel] = true →
      (∀ bank, e.bank f.a = .ok bank → e.regRange f.d n n = true → selLegal v false = true →
        let x := e.entry (.accrd f) false [f.a.toNat] u
        e.mxReady x u = true →
        let w := e.mxTake x u
        let outs := (lanesOf e.act).map (fun t => accOutLane f.mod.toNat (e.rm f.rnd) (v.getLsbD 16) (selExp v)
          (SMap.getMany 0 (w.core e.c).mx.acc (4096 * bank + 256 * (v.extractLsb' 0 4).toNat) 256) t (w.seedOf e t))
        exec (.accrd f) s = .next (e.complete (costOf (.accrd f)) f.g ((e.setSeeds (outs.map (·.2))
          (e.put 7 10 false .v (e.phys f.d.toNat n) e.act (outs.flatMap (·.1)) w)).mxBegin e.c
            ⟨.accrd w.nonce, x, 2, 0, e.mxClass f.g 0⟩ 16))) ∧
      (∀ bank, e.bank f.d = .ok bank → e.regRange f.a n n = true → selLegal v true = true →
        e.blocked (e.phys f.a.toNat n) [] = false →
        let x := e.entry (.accwr f) false [f.d.toNat] u
        let wd := tileWidth f.mod.toNat
        e.mxReady x u = true →
        exec (.accwr f) s = .next (e.complete (costOf (.accwr f)) f.g ((e.mxTake x u).mxBegin e.c
          ⟨.accwr bank (v.extractLsb' 0 4).toNat ((e.fragWords f.a n).flatMap (fun w => (List.range (32 / wd)).map
            (fun j => accIn f.mod.toNat (selExp v) (w.toNat / 2 ^ (wd * j) % 2 ^ wd)))), x, 4, 0, e.mxClass f.g 0⟩ 16)))) ∧
    (∀ bank, e.bank f.d = .ok bank →
      let x := e.entry (.accclr f) false [f.d.toNat] u
      e.mxReady x u = true → exec (.accclr f) s = .next (e.complete (costOf (.accclr f)) f.g
        ((e.mxTake x u).mxBegin e.c ⟨.accclr bank, x, 4, 0, e.mxClass f.g 0⟩ 32))) ∧
    ∀ d a, e.bank f.d = .ok d → e.bank f.a = .ok a →
      let x := e.entry (.accadd f) false [f.d.toNat, f.a.toNat] u
      e.mxReady x u = true → exec (.accadd f) s = .next (e.complete (costOf (.accadd f)) f.g
        ((e.mxTake x u).mxBegin e.c ⟨.accadd d a, x, 4, 0, e.mxClass f.g 0⟩ 32))

/-- FMTSET writes a legal value to a table entry, or to the loop map, in engine order; its value is A of the elected lane,
or IMM24 zero-extended (R254 to R257). -/
def Obligations.FormatTableWrites : Prop :=
  ∀ (s : State) (e : Env) (l : Nat), e.elected = some l →
    let u := e.enter s
    let legal (mod : BitVec 3) (v : W64) : Bool := if mod == 7 then mapLegal v else fmtLegal v
    (∀ f : F2, s.Issues f.g e →
      let o : Opnd := ⟨5, 9, 0, f.a, true, false⟩
      let v := o.val e l
      let x := e.entry (.fmtset f) false [] u
      f.a.toNat < 448 → f.a.toNat % 2 = 0 → o.ok e = true → e.quiet [o] = true → legal f.mod v = true →
      e.mxReady x u = true → exec (.fmtset f) s = .next (e.complete (costOf (.fmtset f)) f.g
        ((e.mxTake x u).mxBegin e.c ⟨.fmtset f.mod.toNat v, x, 4, 0, e.mxClass f.g 0⟩ 32))) ∧
    ∀ f : FI, s.Issues f.g e →
      let x := e.entry (.fmtsetI f) false [] u
      legal f.mod (f.imm.setWidth 64) = true → e.mxReady x u = true →
      exec (.fmtsetI f) s = .next (e.complete (costOf (.fmtsetI f)) f.g
        ((e.mxTake x u).mxBegin e.c ⟨.fmtset f.mod.toNat (f.imm.setWidth 64), x, 4, 0, e.mxClass f.g 0⟩ 32))

/-- ACCALLOC of n banks, when the queue is empty and n are free, maps them zeroed at the lowest free run of logical banks
and returns its start (R261); one that repeats after its grant completes without further effect. ACCFREE of banks that the
block holds, once their earlier users have completed or when it repeats after waiting for them, releases them four cycles later
(R262, R283). -/
def Obligations.AccumulatorAllocation : Prop :=
  ∀ (s : State) (e : Env) (l : Nat), e.elected = some l →
    let u := e.enter s
    let got (d : Code) (base n : Nat) : State :=
      ((u.grantBanks e.c e.warp.rix base n).putBase e.c e.w (d.toNat - 384) base u.nonce).tickNonce
    let allocNow (n base : Nat) : Prop := e.path.granted.contains .banks = false ∧ e.mxOpen u = .ok () ∧ 1 ≤ n ∧ n ≤ 16 ∧
      e.blk.freeRun n = some base ∧ (u.core e.c).mx.allocq = [] ∧ n ≤ (u.core e.c).freeBanks.length
    let freeNow (a n : Nat) : Prop := e.path.granted.contains .accfree = true ∨
      (e.mxOpen u = .ok () ∧ 1 ≤ n ∧ n ≤ 16 ∧ a + n ≤ 16 ∧
        ((List.range n).map (a + ·)).all (fun b => (KMap.find? e.blk.banks b).isSome) = true ∧
        (u.core e.c).banksQuiet e.warp.rix u.nonce ((List.range n).map (a + ·)) = true)
    let freed (a n : Nat) : State := e.put 7 4 false .accFree ((List.range n).map (a + ·)) e.act [] u
    (∀ (f : F2) (base : Nat), s.Issues f.g e → wOk f.d false = true → e.plainOk 5 f.a = true →
      e.quiet [plainOpnd 5 f.a] = true →
      (allocNow ((plainOpnd 5 f.a).val32 e l).toNat base → exec (.accalloc f) s = .next (e.complete (costOf (.accalloc f)) f.g
        (got f.d base ((plainOpnd 5 f.a).val32 e l).toNat))) ∧
      (e.path.granted.contains .banks = true →
        exec (.accalloc f) s = .next (e.complete (costOf (.accalloc f)) f.g u))) ∧
    (∀ (f : FI) (base : Nat), s.Issues f.g e → wOk f.d false = true →
      (allocNow f.imm.toNat base →
        exec (.accallocI f) s = .next (e.complete (costOf (.accallocI f)) f.g (got f.d base f.imm.toNat))) ∧
      (1 ≤ f.imm.toNat → f.imm.toNat ≤ 16 → e.path.granted.contains .banks = true →
        exec (.accallocI f) s = .next (e.complete (costOf (.accallocI f)) f.g u))) ∧
    (∀ f : F2, s.Issues f.g e → f.a.toNat < 16 → e.plainOk 5 f.b = true → e.quiet [plainOpnd 5 f.b] = true →
      freeNow f.a.toNat ((plainOpnd 5 f.b).val32 e l).toNat →
      exec (.accfree f) s = .next (e.complete (costOf (.accfree f)) f.g (freed f.a.toNat ((plainOpnd 5 f.b).val32 e l).toNat))) ∧
    ∀ f : FI, s.Issues f.g e → f.a.toNat < 16 → 1 ≤ f.imm.toNat → f.imm.toNat ≤ 16 → f.a.toNat + f.imm.toNat ≤ 16 →
      freeNow f.a.toNat f.imm.toNat →
      exec (.accfreeI f) s = .next (e.complete (costOf (.accfreeI f)) f.g (freed f.a.toNat f.imm.toNat))

/-! ## The copy engine, the marbling engine and the system unit (R223 to R233, R295 to R314, R328, R329, R358 to R364,
R385 to R387, R411 to R415) -/

/-- A copy-engine instruction whose request passes the acceptance steps, with a slot and clasp entries free and nobody
waiting, is accepted at once (R226 to R229). One whose request was accepted while it waited completes without
further effect. -/
def Obligations.CopyRequestsAccepted : Prop :=
  ∀ (s : State) (e : Env) (f : F3) (l : Nat), s.Issues f.g e → e.elected = some l → e.plainOk 6 f.d = true →
    e.pairOk 6 f.a = true → e.plainOk 6 f.c = true →
    e.quiet [plainOpnd 6 f.d, pairOpnd 6 f.a, plainOpnd 6 f.c] = true →
    let u := e.enter s
    let at_ (op : CopyOp) : CReq := { (CReq.init op e.warp.rix e.w e.alt e.path.mask) with
      loc := ((plainOpnd 6 f.d).val32 e l).toNat, raddr := ((pairOpnd 6 f.a).val e l).toNat
      bar := barArg ((plainOpnd 6 f.c).val32 e l) }
    let done (i : Instr) (r : CReq) : Prop :=
      (∀ q, e.path.granted.contains .engine = false → e.settledNow u false = true → u.prep e.c r e.path.faults = .ok q →
        (u.core e.c).caccept.isEmpty = true → u.acceptable e.c q = true →
        exec i s = .next (e.complete (costOf i) f.g (u.accept e.c q))) ∧
      (e.path.granted.contains .engine = true → exec i s = .next (e.complete (costOf i) f.g u))
    (f.b = 480 → done (.copy f) { at_ .copy with coord := coordsOf [] }) ∧
    (isW f.b = true → f.b.toNat % 4 = 0 → e.blocked [] ((List.range 4).map (f.b.toNat - 384 + ·)) = false →
      done (.copy f) { at_ .copy with
        coord := coordsOf ((List.range 4).map (fun i => e.wread (f.b.toNat - 384 + i))) }) ∧
    (isW f.b = true → f.b.toNat % 2 = 0 → e.blocked [] [f.b.toNat - 384, f.b.toNat - 383] = false →
      ∀ r ∈ ([(.gather f, .gather), (.scatter f, .scatter), (.scatterAdd f, .scatterAdd)] : List (Instr × CopyOp)),
        done r.1 { at_ r.2 with list := (e.wread (f.b.toNat - 384)).toNat, n := (e.wread (f.b.toNat - 383)).toNat })

/-- KICK makes a list of 1 to 64 entries in its window the core's pending list, clasped (R230). PFL2 hands over a prefetch
with its barrier object, PFL2.TOK one with the lowest free token of the block, which it writes (R232). CSTAT and MSTAT
read the status that A selects; selector 4 clears it (R233, R314). That the list's clasp carries a tag of its own, kickTag, is the
model's choice (assumption 59), and so is that the selector comes from the lowest active lane (assumption 62). -/
def Obligations.ListsPrefetchesAndStatus : Prop :=
  ∀ (s : State) (e : Env) (f : F2) (l : Nat), s.Issues f.g e →
    let u := e.enter s
    let a := plainOpnd 6 f.a
    let b := plainOpnd 6 f.b
    (e.elected = some l → e.plainOk 6 f.a = true → e.plainOk 6 f.b = true → e.quiet [a, b] = true →
      e.settledNow u false = true → (u.core e.c).kick.extractLsb' 25 7 = 0 → (u.core e.c).clasp.length < 64 →
      let off := (a.val32 e l).toNat
      let n := (b.val32 e l).toNat
      1 ≤ n → n ≤ 64 → off % 16 = 0 → off + 48 * n ≤ e.blk.window →
      exec (.kick f) s = .next (e.complete (costOf (.kick f)) f.g (u.modCore e.c (fun k => { k with
        kick := BitVec.ofNat 32 (n * 2 ^ 25 + off), kickBy := some (e.warp.rix, e.w, e.path.mask), kfaults := []
        clasp := k.clasp ++ [⟨off, 48 * n, false, 1, false, kickTag, e.warp.rix, e.w⟩] })))) ∧
    (e.elected = some l → e.pairOk 6 f.a = true → e.plainOk 6 f.b = true → e.path.granted.contains .engine = false →
      (u.core e.c).caccept.isEmpty = true →
      let n := (b.val32 e l).toNat
      let at_ := ((pairOpnd 6 f.a).val e l).toNat
      1 ≤ n → n ≤ 2 ^ 28 →
      (∀ bar, barArg ((plainOpnd 6 f.d).val32 e l) = bar → e.plainOk 6 f.d = true →
        e.quiet [plainOpnd 6 f.d, pairOpnd 6 f.a, b] = true → (∀ x ∈ bar, x % 16 = 0 ∧ x + 16 ≤ e.blk.window) →
        u.objectOk e.c e.warp.rix e.blk.grid 0 bar = true → u.acceptable e.c (pflReq e at_ n bar none 0) = true →
        exec (.pfl2 f) s = .next (e.complete (costOf (.pfl2 f)) f.g (u.accept e.c (pflReq e at_ n bar none 0)))) ∧
      (∀ k, lowest (~~~e.blk.cs.tokens) = some k → wOk f.d false = true → e.quiet [pairOpnd 6 f.a, b] = true →
        let r := pflReq e at_ n none (some k) (f.d.toNat - 384)
        u.acceptable e.c r = true →
        exec (.pfl2Tok f) s = .next (e.complete (costOf (.pfl2Tok f)) f.g
          (e.put 7 2 false .w [f.d.toNat - 384] (bit l) [BitVec.ofNat 32 k]
            ((u.accept e.c r).modBlock e.c e.warp.rix
              (fun x => { x with cs := { x.cs with tokens := x.cs.tokens ||| bit k } })))))) ∧
    (lowest e.act = some l → e.plainOk 6 f.a = true → e.quiet [a] = true →
      (if e.strand then wOk f.d false else e.vwOk f.d false) = true →
      let got (x : W32) : State := e.putVW 7 2 false f.d false (x.setWidth 64) u
      let cs := match (u.core e.c).blocks.find? e.warp.rix with | some b => b.cs | none => e.blk.cs
      (∀ r ∈ [((0 : W32), (u.core e.c).copyStatus e.warp.rix), (1, cs.va.extractLsb' 0 32), (2, cs.va.extractLsb' 32 32),
          (3, cs.tokens)],
        a.val32 e l = r.1 → exec (.cstat f) s = .next (e.complete (costOf (.cstat f)) f.g (got r.2))) ∧
      (a.val32 e l = 4 → exec (.cstat f) s = .next (e.complete (costOf (.cstat f)) f.g
        (e.put 7 2 false .copyClear [] e.act [] (got ((u.core e.c).copyStatus e.warp.rix))))) ∧
      (a.val32 e l = 0 → exec (.mstat f) s = .next (e.complete (costOf (.mstat f)) f.g
        (got ((u.core e.c).marbleStatus e.warp.rix)))) ∧
      (a.val32 e l = 4 → exec (.mstat f) s = .next (e.complete (costOf (.mstat f)) f.g
        (e.put 7 2 false .marbleClear [] e.act [] (got ((u.core e.c).marbleStatus e.warp.rix))))))

/-- A marbling instruction whose operands are legal and whose request is aligned and in its window is accepted at once when
the engine has room (R295 to R297, R303, R304, R308, R312); one that waited and was accepted completes, whatever its
registers and banks hold by then. MGEN writes 32 basis signs of a seed (R313). -/
def Obligations.MarblingRequestsAccepted : Prop :=
  ∀ (s : State) (e : Env) (l : Nat), e.elected = some l →
    let u := e.enter s
    let done (g : Guard) (i : Instr) (q : MReq) : Prop :=
      e.path.granted.contains .engine = false → q.aligned = true → q.inside e.blk.window = true →
        u.objectOk e.c e.warp.rix e.blk.grid 0 q.bar = true → e.settledNow u false = true →
        (u.core e.c).marbleWaiting.isEmpty = true → (u.core e.c).marbleFits q = true →
        exec i s = .next (e.complete (costOf i) g (u.marbleAccept e.c q))
    let ends (g : Guard) (i : Instr) : Prop :=
      e.path.granted.contains .engine = true → exec i s = .next (e.complete (costOf i) g u)
    (∀ f : F3, s.Issues f.g e → e.plainOk 6 f.d = true → e.plainOk 6 f.a = true → e.plainOk 6 f.b = true →
      e.plainOk 6 f.c = true → e.quiet [plainOpnd 6 f.d, plainOpnd 6 f.a, plainOpnd 6 f.b, plainOpnd 6 f.c] = true →
      ends f.g (.seedtry f) ∧ ends f.g (.seedscan f) ∧
      let val (c : Code) : W32 := (plainOpnd 6 c).val32 e l
      e.ctlOk (val f.b) = true →
      let q (op : Nat) : MReq := { (MReq.init e op) with
        dst := (val f.d).toNat, c := (val f.b).toNat / 16 % 32, bank := (val f.b).toNat % 16, bar := barArg (val f.c)
        target := true }
      (val f.a ≠ 0 → done f.g (.seedtry f) { q 0 with seed := val f.a }) ∧
      done f.g (.seedscan f) { q 1 with src := (val f.a).toNat }) ∧
    ∀ f : F2, s.Issues f.g e → e.plainOk 6 f.a = true → e.plainOk 6 f.b = true →
      let val (c : Code) : W32 := (plainOpnd 6 c).val32 e l
      (e.plainOk 6 f.d = true → e.quiet [plainOpnd 6 f.d, plainOpnd 6 f.a, plainOpnd 6 f.b] = true →
        ends f.g (.fit f) ∧ ends f.g (.proj f) ∧
        let q (op : Nat) : MReq := { (MReq.init e op) with
          dst := (val f.d).toNat / 64 * 64, src := (val f.a).toNat, bar := barArg (val f.b) }
        ((val f.d).extractLsb' 1 5 = 0 → done f.g (.fit f) { q 2 with cfmt := (val f.d).getLsbD 0 }) ∧
        ((val f.d).extractLsb' 4 2 = 0 → e.holds ((val f.d).toNat % 16) = true →
          done f.g (.proj f) { q 3 with bank := (val f.d).toNat % 16, target := true })) ∧
      (wOk f.d false = true → e.quiet [plainOpnd 6 f.a, plainOpnd 6 f.b] = true → val f.a ≠ 0 →
        exec (.mgen f) s = .next (e.complete (costOf (.mgen f)) f.g (e.put 7 2 false .w [f.d.toNat - 384] (bit l)
          [BitVec.ofNat 32 (srBits (val f.a) (val f.b).toNat 32)] u)))

/-- XLATE sends each active lane's status to D: what its last-page register or the core's translations hold, and walks for
the rest (R359, R360). XPROBE gives what they hold and nothing else, two cycles later (R361). The invalidations and
XFLUSH, privileged, sweep at once and complete when nothing in flight uses what they cover (R362 to R364). -/
def Obligations.TranslationInstructions : Prop :=
  ∀ (s : State) (e : Env) (f : F2) (l : Nat), s.Issues f.g e →
    let u := e.enter s
    let a := pairOpnd 7 f.a
    let at_ := (lanesOf e.act).map (fun l => (l, (a.val e l).toNat))
    let miss := at_.filter (fun p => (u.xstatus e.c e.blk.pasid p.1 p.2).isNone)
    (e.vOk f.d false = true → e.pairOk 7 f.a = true → e.quiet [a] = true →
      (lanesOf e.act ≠ [] → miss = [] → exec (.xlate f) s = .next (e.complete (costOf (.xlate f)) f.g
        (e.xlateHits at_ (e.xlatePut f.d at_ 0 u)))) ∧
      (miss ≠ [] → exec (.xlate f) s = .next (e.complete (costOf (.xlate f)) f.g
        (((e.xlateHits at_ (e.xlatePut f.d at_ miss.length u)).modCore e.c (fun k => { k with
          xlates := k.xlates ++ [⟨u.nonce, e.w, e.blk.pasid, miss⟩] })).startWalks e.c e.blk.pasid false true
            (.xlate u.nonce) (miss.map (·.2))))) ∧
      (e.act ≠ 0 → exec (.xprobe f) s = .next (e.complete (costOf (.xprobe f)) f.g
        (e.put 4 2 false .v (e.phys f.d.toNat 1) e.act (laneVals e.act (fun l =>
          [match e.core.cached l e.blk.pasid (a.val e l).toNat with
            | some t => if canonical (a.val e l).toNat then t.status true else 0
            | none => 0])) u)))) ∧
    (e.elected = some l → e.warp.priv = true →
      let sweeps (i : Instr) (v : Cover) : Prop :=
        (e.path.granted.contains .inval = true → exec i s = .next (e.complete (costOf i) f.g u)) ∧
        (e.path.granted.contains .inval = false → v.mode = 4 ∨ e.settledNow u true = true →
          exec i s = .next (e.stopped s (.wait .inval (fun t => t.startInval v e.c (some (e.w, e.alt))))))
      (e.pairOk 7 f.a = true → e.quiet [a] = true →
        sweeps (.xinvPage f) ⟨0, some e.blk.pasid, (a.val e l).toNat, 0⟩) ∧
      (e.pairOk 7 f.a = true → e.plainOk 7 f.b = true → e.quiet [a, plainOpnd 7 f.b] = true →
        let n := ((plainOpnd 7 f.b).val32 e l).toNat
        1 ≤ n → n ≤ 2 ^ 24 →
        sweeps (.xinvRange f) ⟨1, some e.blk.pasid, (a.val e l).toNat / 65536 * 65536, 65536 * n⟩) ∧
      (e.plainOk 7 f.a = true → e.quiet [plainOpnd 7 f.a] = true →
        ((plainOpnd 7 f.a).val32 e l).extractLsb' 20 12 = 0 →
        sweeps (.xinvPasid f) ⟨2, some ((plainOpnd 7 f.a).val32 e l).toNat, 0, 0⟩) ∧
      sweeps (.xinvAll f) ⟨3, none, 0, 0⟩ ∧ sweeps (.xflush f) ⟨4, none, 0, 0⟩)

/-- PCLASS requests the point of a class-map entry, OPSEL a point itself where the path may (R385, R386). GRANT, privileged,
writes SLIM when bit 31 of its operand is 1 and reads the grant view (R387). TMARK writes a marker (R412); BKPT stops its
core where breakpoints stop, and where they do not, a warp's path is about to take trap 0x30 with the active lanes as its mask and
the next instruction as its address (R160, R413); SHASH takes its effect at issue when no write of its path is outstanding and the buffer has
room for its record, and goes on when it is granted (R429); CONFRD reads configuration (R414);
RPCTL, privileged, sets a slice's mode and reads its status (R415). -/
def Obligations.GovernorAndObservation : Prop :=
  ∀ (s : State) (e : Env) (l : Nat), e.elected = some l →
    let u := e.enter s
    let traps (alt : Bool) : State := (u.modWarp e.c e.w (fun w =>
      { (w.modPath alt (fun p => { p with park := some (.trap 0x30 e.next e.act) })) with
        edge := if e.warp.atLoopEnd e.pc then some alt else w.edge })).modClock e.c (fun k => { k with stage := .done })
    (∀ f : F2, s.Issues f.g e → e.plainOk 7 f.a = true → e.quiet [plainOpnd 7 f.a] = true →
      let x := (plainOpnd 7 f.a).val32 e l
      (x.toNat < 8 → exec (.pclass f) s = .next (e.complete (costOf (.pclass f)) f.g
        (u.requestPoint e.c e.warp.rix (e.core.gov.pmap x.toNat)))) ∧
      (e.opPerm = true → x.toNat < 8 → exec (.opsel f) s = .next (e.complete (costOf (.opsel f)) f.g
        (u.requestPoint e.c e.warp.rix x.toNat))) ∧
      exec (.tmark f) s = .next (e.complete (costOf (.tmark f)) f.g
        (u.marker e.c e.w 0 e.strand (e.blk.abs e.pc) x)) ∧
      (u.obsBit e.c 6 = true → exec (.bkpt f) s = .next (e.complete (costOf (.bkpt f)) f.g
        (u.modCore e.c (fun k => { k with obs := { k.obs with bkpt := some (x.extractLsb' 0 24).toNat } })))) ∧
      (u.obsBit e.c 6 = false → ∀ alt, e.who = .path alt → exec (.bkpt f) s = .next (traps alt)) ∧
      (e.vwOk f.d true = true →
        (e.path.granted.contains .shash = false → e.hashFree u = true → exec (.shash f) s = .next (e.complete
          (costOf (.shash f)) f.g (u.shash e.c e.w f.d.toNat x e.act))) ∧
        (e.path.granted.contains .shash = true → exec (.shash f) s = .next (e.complete (costOf (.shash f)) f.g u))) ∧
      (∀ v, (if e.strand then wOk f.d false else e.vwOk f.d false) = true → u.confValue e.c x = some v →
        exec (.confrd f) s = .next (e.complete (costOf (.confrd f)) f.g
          (e.putVW 7 2 false f.d false (v.setWidth 64) u))) ∧
      (e.warp.priv = true → e.vwOk f.d false = true →
        (slimOk x = true →
          let t := if x.getLsbD 31 then u.modCore e.c (fun k => { k with gov := k.gov.setSlim x }) else u
          exec (.grant f) s = .next (e.complete (costOf (.grant f)) f.g
            (e.putVW 7 0 true f.d false ((t.core e.c).gov.view.setWidth 64) t))) ∧
        (x.extractLsb' 9 23 = 0 →
          let sl := (x.extractLsb' 0 9).toNat
          let got (t : State) : State := e.putVW 7 0 true f.d false ((t.rpStatus sl).setWidth 64) t
          exec (.rpctlQuery f) s = .next (e.complete (costOf (.rpctlQuery f)) f.g (got u)) ∧
          ∀ r ∈ ([(.rpctlOff f, 0), (.rpctlRec f, 1), (.rpctlReplay f, 2)] : List (Instr × Nat)),
            exec r.1 s = .next (e.complete (costOf r.1) f.g (got (u.setRpmode sl r.2)))))) ∧
    ∀ f : FI, s.Issues f.g e →
      (f.imm.toNat < 8 → exec (.pclassI f) s = .next (e.complete (costOf (.pclassI f)) f.g
        (u.requestPoint e.c e.warp.rix (e.core.gov.pmap f.imm.toNat)))) ∧
      (e.opPerm = true → f.imm.toNat < 8 → exec (.opselI f) s = .next (e.complete (costOf (.opselI f)) f.g
        (u.requestPoint e.c e.warp.rix f.imm.toNat))) ∧
      exec (.tmarkI f) s = .next (e.complete (costOf (.tmarkI f)) f.g
        (u.marker e.c e.w 0 e.strand (e.blk.abs e.pc) (f.imm.setWidth 32))) ∧
      (u.obsBit e.c 6 = true → exec (.bkptI f) s = .next (e.complete (costOf (.bkptI f)) f.g
        (u.modCore e.c (fun k => { k with obs := { k.obs with bkpt := some f.imm.toNat } })))) ∧
      (u.obsBit e.c 6 = false → ∀ alt, e.who = .path alt → exec (.bkptI f) s = .next (traps alt))

/-- GETSP puts a special register's value two cycles later: in each active lane of a v register, or once in a w register;
SETSP writes one at issue, a privileged one in a privileged warp alone (R38, R52). QSUB, its record in the window and
present and its queue open to it, writes the ticket that it reserves and hands the record over, or all ones when the
queue is full (R328, R329). -/
def Obligations.SpecialRegistersAndQueues : Prop :=
  ∀ (s : State) (e : Env) (f : F2) (l : Nat), s.Issues f.g e →
    let u := e.enter s
    let code := f.b.toNat
    let o : Opnd := ⟨7, 9, f.amod, f.a, spWide code, false⟩
    (code < 0x1B → e.act ≠ 0 → e.vwOk f.d (spWide code) = true →
      (isW f.d = true → spPerLane code = false → exec (.getsp f) s = .next (e.complete (costOf (.getsp f)) f.g
        (e.putVW 7 2 false f.d (spWide code) (e.special u code 0) u))) ∧
      (isW f.d = false → exec (.getsp f) s = .next (e.complete (costOf (.getsp f)) f.g
        (e.put 7 2 false .v (e.phys f.d.toNat (if spWide code then 2 else 1)) e.act
          (laneVals e.act (fun l => words (spWide code) (e.special u code l))) u)))) ∧
    (lowest e.act = some l → (spPriv code || spUser code) = true → (spPriv code = true → e.warp.priv = true) →
      e.legal [o] = true → e.quiet [o] = true → (code = 0x0B → e.flagsQuiet = .ok ()) →
      exec (.setsp f) s = .next (e.complete (costOf (.setsp f)) f.g
        (e.setSpecial code (lanesOf e.act) (o.val e) (o.val e l) u))) ∧
    (e.elected = some l → wOk f.d false = true → e.plainOk 7 f.a = true → e.plainOk 7 f.b = true →
      e.quiet [plainOpnd 7 f.a, plainOpnd 7 f.b] = true →
      let off := ((plainOpnd 7 f.a).val32 e l).toNat
      let q := ((plainOpnd 7 f.b).val32 e l).toNat
      let rec_ := u.scratchRead e.c e.warp.rix off 128
      q < 64 → off % 128 = 0 → off + 128 ≤ e.blk.window → (u.qctl q).getLsbD 0 = true → (u.qctl q).getLsbD 4 = true →
      (u.qpasid q = e.blk.pasid ∨ e.warp.priv = true) →
      u.claspHit e.c false off 128 (.scr e.c e.warp.rix off) = false → u.linePresent e.c e.warp.rix (off / 128) = true →
      ((rec_.getD 36 0).getLsbD 0 = true → e.warp.priv = true) →
      let t := u.bankWords e.c e.warp.rix off 128 (e.bankPort l).1 0 e.c 0
      let got (x : W32) : State := e.put 7 2 false .w [f.d.toNat - 384] (bit l) [x] t
      (t.qfull q = true → exec (.qsub f) s = .next (e.complete (costOf (.qsub f)) f.g (got 0xFFFFFFFF))) ∧
      (t.qfull q = false →
        let r := got (BitVec.ofNat 32 (t.reserved q))
        exec (.qsub f) s = .next (e.complete (costOf (.qsub f)) f.g
          { r with tickets := r.tickets.put q ((t.reserved q + 1) % 2 ^ 32)
                   qsubs := r.qsubs ++ [⟨q, t.reserved q, rec_, e.c, e.w, r.nonce⟩] })))

/-- A bundle whose header and slots are legal, whose resources suffice and whose latency class covers its slots, issues
whole when none of its slots traps or waits, by itself or for what an earlier slot did: every slot reads what stood before the
bundle, the pc moves past it, and the strand's core is charged (R47 to R49, R57, R142, R378). -/
def Obligations.BundlesIssueWhole : Prop :=
  ∀ (s : State) (h : W64) (ws : List W64) (t : Strand) (x : Warp) (b : Block) (l : List (Who × Slot)) (s4 : State),
    let c := s.sel.core
    (s.core c).strand = some t → (s.core c).warps.find? t.warp = some x → (s.core c).blocks.find? x.rix = some b →
    hdrOk h ws.length = true → (decodeSlots ws).bind (assign h t.clusters) = some l → wClash l = false → resourcesOk l = true →
    slotsClass l ≤ (h.extractLsb' 56 2).toNat → x.pri.done = 0 →
    let s0 := { s with sel := ⟨c, t.warp, .core⟩ }
    let next := x.pri.pc + BitVec.ofNat 32 (8 * (1 + ws.length))
    s0.slotStops next l = ([], []) → lendCheck t b h next l = none → (h.getLsbD 43 = true → t.synced = true) →
    (h.getLsbD 43 = true → (s.core c).domain.getLsbD ((h.extractLsb' 40 3).toNat - 1) = true) →
    runSlots s0 next false l (s0.bundleHead c t x b h next) = (s4, none) →
    (∀ y, (s4.core c).warps.find? t.warp = some y → y.strandGroups.length ≤ 6272) →
    exec (.bundle h ws) s = .next (((s4.mxBundle (s.core c).mx c (h.extractLsb' 56 2).toNat).bundleEnds c t.warp
      (ownedLanes t.clusters) h).modCore c (fun k => k.bookBundle t.warp x.pri.pc h l))

/-! ## Events -/

/-- The events of warps, strands and kettle lines, each when it is due, take their effect and no other time any (R120,
R126, R128, R133, R142, R146, R148, R151, R156, R158, R159, R163, R164, R169, R180, R262; that one that is not due changes nothing
is the model's choice, log entry 17). A result that lands is written to its warp's registers and leaves its list, the release of
an ACCFREE frees its banks (R262); a path
that waits to enter a trap enters it with the cause and lanes it waits with; an unpipelined loop with more than one
execution left goes back to its start with one fewer to go. -/
def Obligations.WarpEventsTakeEffect : Prop :=
  ∀ (s : State) (c l : Nat),
    (∀ r ∈ (
      [(.resultLands c, s.resultDue c, s.resultLands c),
       (.interlockedResultReturn c, s.interlockedDue c, s.interlockedReturn c),
       (.linePresent c, s.lineDue c, s.wakeFound c (s.presentPath c)),
       (.requestEntryFree c, s.entryDue c, s.wakeFound c (s.entriesPath c)),
       (.warpReady c, s.readyDue c, s.warpReady c), (.loopBackEdge c, s.edgeDue c, s.backEdge c),
       (.reconvergeMerge c, s.mergeDue c, s.mergeOne c), (.folldComplete c, s.folldDue c, s.folldDone c),
       (.collapseComplete c, s.collapseDue c, s.collapse c), (.expandComplete c, s.expandDue c, s.expand c),
       (.strandFaultFreeze c, s.faultDue c, s.strandFault c), (.strandSnapshotResume c, s.snapDue c, s.snapResume c),
       (.trapEntry c, s.trapDue c, s.trapEntry c), (.asyncTrapDelivery c, s.asyncDue c, s.asyncTrap c),
       (.kettleLineRise l, s.riseDue l, s.lineRise l), (.kettleRelease l, s.releaseDue l, s.lineRelease l)] : List (Instr × Bool × State)),
      (r.2.1 = true → exec r.1 s = .next r.2.2) ∧ (r.2.1 = false → exec r.1 s = .next s)) ∧
    (∀ w r y, (s.core c).landing false = some (w, r) → (s.core c).warps.find? w = some y →
      ((s.resultLands c).core c).warps.find? w = some (({ y with results := y.results.erase r } : Warp).land r)) ∧
    (∀ w r y b, (s.core c).landing false = some (w, r) → (s.core c).warps.find? w = some y →
      (s.core c).blocks.find? y.rix = some b → r.dest = .accFree →
      ((s.resultLands c).core c).blocks.find? y.rix =
        some { b with banks := b.banks.filter (fun p => !r.regs.contains p.1) }) ∧
    (∀ w alt x p cause pc lanes, s.begun c = true → (s.core c).trapPath = some (w, alt, x, p) →
      p.park = some (.trap cause pc lanes) →
      exec (.trapEntry c) s = .next ((s.modPath c w alt (fun p => { p with park := none, ptail := 0 })).enterTrap c w alt
        cause (if trapsAfter cause then p.pc else pc) lanes)) ∧
    ∀ w y alt m rest, (s.core c).edgeWarp = some (w, y, alt) → y.bundled = false → y.loops = m :: rest → m.pipe = false →
      (s.core c).warps.find? w = some y →
      (1 < m.e → ((s.backEdge c).core c).warps.find? w =
        some { (({ y with edge := none } : Warp).modPath alt (fun p => p.jump m.q)) with
          loops := { m with e := m.e - 1, k := m.k - 1 } :: rest })

/-- The events of the copy, matrix and marbling engines take their effect when they are due (R214, R226, R231, R232, R234,
R241, R242, R261, R262, R264, R265, R268, R273, R275, R277, R280, R293, R297, R298, R300, R309, R310; assumption 17 as
above), and the effect of each is given where the engine may act: the first parked request that fits is accepted and its
path goes on; a KICK entry of an illegal form ends its list with FORMAT, under the tag of assumption 59, a legal one is
accepted; a line of indices, of a part on its way in or of a new part moves, and a fetch goes with it; data that is back is
what memory holds, and padding out of bounds; a part's bytes land, in a local store, in memory or as adds sent; a failed
request ends with its cause; a page that is there lets its request go on; the entry whose turn has come starts, a strand's
by waking it, a warp's by running its instruction; an occupancy that is over frees the engine and leaves its result in the
bank, the table or the target buffer; a grant maps the banks, a wait for users ends, and a release takes exactly its banks;
a deadlock halts the block chosen for it; a reset that is over is over; a transfer takes the engine for 16 cycles; a scan's
candidate and its deadline have their result. -/
def Obligations.EngineEventsTakeEffect : Prop :=
  ∀ (s : State) (c : Nat),
    (∀ r ∈ (
      [(.copyAccept c, s.acceptDue c, s.acceptStep c), (.kickEntryAccept c, s.kickDue c, s.kickAccept c),
       (.copyLineMove c, s.moveDue c, s.moveStep c), (.copyGlobalReturn c, s.returnDue c, s.returnStep c),
       (.copyBytesLand c, s.landDue c, s.landStep c), (.requestError c, s.errorDue c, s.errorStep c),
       (.pfl2LineDone c, s.pflDue c, s.pflStep c), (.pageWaitResume c, s.pageDue c, s.pageStep c),
       (.mxStart c, s.mxDue c, s.mxStart c), (.mxOccupancyEnd c, s.occupancyDue c, s.mxEnd c),
       (.mmsgRecordRead c, s.recordDue c, s.recordStep c), (.accallocGrant c, s.allocDue c, s.allocGrant c),
       (.accfreeRelease c, s.freeDue c, s.freeRelease c), (.accDeadlock c, s.deadlockDue c, s.deadlock c),
       (.mxResetEnd c, s.resetOver c, s.resetEnd c), (.bankTransfer c, s.transferDue c, s.transferStart c),
       (.marbleAccept c, s.marbleAcceptDue c, s.marbleAcceptStep c),
       (.marbleStart c, s.marbleStartDue c, s.marbleStart c),
       (.marbleComplete c, s.marbleEndDue c, s.marbleComplete c),
       (.candidateComplete c, s.candidateDue c, s.candidateStep c),
       (.scanDeadline c, s.deadlineDue c, s.deadlineStep c)] : List (Instr × Bool × State)),
      (r.2.1 = true → exec r.1 s = .next r.2.2) ∧ (r.2.1 = false → exec r.1 s = .next s)) ∧
    (s.enginesGo c = true →
      (∀ q l, (s.core c).caccept = q :: l → (s.core c).rixRuns q.rix = true → s.acceptable c q = true →
        exec (.copyAccept c) s = .next ((((s.modCore c (fun k => { k with caccept := k.caccept.erase q })).accept c q).putToken c q).wake
          c q.warp q.alt)) ∧
      (∀ slot q, s.pflNext c = some (slot, q) → exec (.pfl2LineDone c) s = .next (s.pflLine c slot q)) ∧
      (∀ q l, (s.core c).marbleWaiting = q :: l → (s.core c).marbleFits q = true →
        exec (.marbleAccept c) s = .next (((s.modCore c (fun k => { k with
          mar := { k.mar with accepting := k.mar.accepting.erase q } })).marbleAccept c q).wake c q.warp q.alt)) ∧
      (∀ slot q, (s.core c).marbleServed = some (slot, q) → exec (.marbleStart c) s = .next (s.marbleRead c slot q)) ∧
      (∀ slot q, (s.core c).marbleServed = none → s.marbleReady c = some (slot, q) → (s.core c).rixKept q.rix = true →
        exec (.marbleStart c) s = .next (s.marbleBegin c slot q)) ∧
      ∀ r q, (s.core c).running = some (r, q) → r.stage = .run →
        (∀ seed0 count b, scanDesc r.src = some (seed0, count, b) → r.candidateDue q (s.core c).mar.elems = true →
          exec (.candidateComplete c) s = .next (s.modRun c (fun r => r.candidate seed0 count q.c (s.core c).mar.elems))) ∧
        (r.deadlineDue q (s.core c).mar.elems = true → r.candidateDue q (s.core c).mar.elems = false →
          ∃ t, exec (.scanDeadline c) s = .next t ∧ (t.core c).mar.run = some { r with ended := some 1 }) ∧
        (r.completeDue q (s.core c).mar.elems = true →
          exec (.marbleComplete c) s = .next
            ((s.modRun c (fun r => { r with stage := .write, left := q.words })).bankWords c q.rix q.dst q.dstLen 6 0 c 2))) ∧
    (s.moveDue c = true → ∃ t, exec (.copyLineMove c) s = .next t ∧ (t.core c).ck.moved = true) ∧
    (s.moveDue c = true →
      let fetched (u : State) : State :=
        (match u.fetchNext c with
          | some x => u.within (u.copyFetch c x.1 x.2 (u.rixPasid c x.2.rix)) c
          | none => u).modClock c (fun k => { k with moved := true })
      (s.moveNext c = none → exec (.copyLineMove c) s = .next (fetched s)) ∧
      (∀ slot q, s.moveNext c = some (.index slot q) →
        exec (.copyLineMove c) s = .next (fetched ((s.readIndices c slot q).lineOn c false))) ∧
      (∀ slot q p, s.moveNext c = some (.into slot q p) →
        exec (.copyLineMove c) s = .next (fetched ((s.copyMove c slot q p).lineOn c (s.partSplit c q false p)))) ∧
      ∀ slot q, s.moveNext c = some (.out slot q) →
        let t := s.within (s.copyTake c slot q (s.rixPasid c q.rix)) c
        (∀ r p, (t.core c).copy.find? slot = some r → r.parts = q.parts ++ [p] →
          exec (.copyLineMove c) s = .next (fetched (t.lineOn c (s.partSplit c q (q.shape.dir == 2) p)))) ∧
        (∀ r, (t.core c).copy.find? slot = some r → r.parts = q.parts → exec (.copyLineMove c) s = .next (fetched t))) ∧
    (∀ rix warp by_, s.kickDue c = true → (s.core c).kickBy = some (rix, warp, by_) →
      let off := ((s.core c).kick.extractLsb' 0 19).toNat
      let u := s.bankWords c rix off 48 5 0 c 3
      (kickEntry rix warp by_ (u.scratchRead c rix off 48) = none →
        exec (.kickEntryAccept c) s = .next ((u.copyStatusError c rix kickTag cFormat.toNat off).kickDone c) ∧
        (((u.copyStatusError c rix kickTag cFormat.toNat off).kickDone c).core c).kickBy = none) ∧
      ∀ q q', kickEntry rix warp by_ (u.scratchRead c rix off 48) = some q → u.prep c q (u.core c).kfaults = .ok q' →
        u.acceptable c q' = true →
        let a := u.accept c q'
        let n := ((a.core c).kick.extractLsb' 25 7).toNat
        exec (.kickEntryAccept c) s = .next
          (let t := a.modCore c (fun k => { k with kick := BitVec.ofNat 32 ((n - 1) * 2 ^ 25 + (off + 48)) })
           if n = 1 then t.kickDone c else t)) ∧
    (s.goes = true →
      (∀ slot q p, s.returned c = some (slot, q, p) →
        ∃ t, exec (.copyGlobalReturn c) s = .next t ∧ t.mem = s.mem ∧
          (t.core c).copy.find? slot = some { q with parts := q.parts.map (fun y => if y.id = p.id then
            { y with
              elems := (p.elems.zip p.pas).map (fun x =>
                { x.1 with val := if x.1.inb then s.globalGet c x.2 x.1 else q.shape.padding })
              stage := .ready } else y) }) ∧
      (∀ slot q p, s.landable c = some (slot, q, p) → p.stage = .moving →
        let x := s.localOf c q
        let t := p.elems.foldl (fun s e => s.localPut c x e) s
        exec (.copyBytesLand c) s = .next ((match x, localSpan q.shape.swz p.elems with
          | .scr tc r off _, some sp => t.recheck tc r (off + sp.1) (sp.2 - sp.1)
          | _, _ => t).partLanded c slot q p)) ∧
      (∀ slot q p d, s.landable c = some (slot, q, p) → p.stage = .store d → q.op = .scatterAdd →
        exec (.copyBytesLand c) s = .next ((p.writes.foldl (fun s x => s.sendAdd c slot q p x) s).putReq c slot
          { q with parts := q.parts.map (fun y => if y.id = p.id then
            { y with stage := .adds ((p.writes.filter (fun x => isModule x.2.1)).length) } else y) })) ∧
      (∀ slot q p d, s.landable c = some (slot, q, p) → p.stage = .store d → q.op ≠ .scatterAdd →
        exec (.copyBytesLand c) s = .next ((p.writes.foldl (fun s x => s.globalPut c x.2 x.1) s).partLanded c slot q p)) ∧
      (∀ slot q p n, s.landable c = some (slot, q, p) → p.stage = .adds n →
        exec (.copyBytesLand c) s = .next (s.partLanded c slot q p)) ∧
      (∀ slot q cause va, (s.core c).failed = some (slot, q) → q.err = some (cause, va) →
        exec (.requestError c) s = .next
          (((s.modCore c (fun k => { k with
              walks := k.walks.map (fun w => { w with who := w.who.filter (· != askCopy slot) }) })).copyStatusError
            c q.rix slot cause (if cause = cMxReset.toNat then q.loc else va)).copyEnd c slot q q.left)) ∧
      ∀ slot q, (s.core c).pageBack = some (slot, q) →
        ∃ t, exec (.pageWaitResume c) s = .next t ∧ (t.core c).copy.find? slot = some { q with paged := false }) ∧
    (∀ x, s.mxDue c = true → s.mxStarts c = some x → x.strand = true →
      exec (.mxStart c) s = .next ((s.modMx c (fun m => m.toFront x)).wake c x.warp x.alt)) ∧
    (∀ x f g, s.mxDue c = true → s.mxStarts c = some x → x.strand = false →
      ∀ i ∈ ([.mms f, .mmsz f, .mmsg f, .accrd f, .accwr f, .accclr f, .accadd f, .fmtset f, .fmtsetI g] : List Instr),
        x.instr = some i →
        let u := { (s.modMx c (fun m => m.toFront x)).wake c x.warp x.alt with sel := ⟨c, x.warp, .path x.alt⟩ }
        ∀ t, exec i u = .next t → exec (.mxStart c) s = .next ((t.hazAfter u i).modClock c (fun k => { k with
          coreCharge := k.coreCharge + (u.core c).ck.span.headD 0, span := addSpans (u.core c).ck.span.tail k.span
          stage := .done }))) ∧
    (s.begun c = true →
      (∀ r, (s.core c).mx.cur = some r → r.left = 0 →
        let m := (s.core c).mx
        ∃ t, exec (.mxOccupancyEnd c) s = .next t ∧ (t.core c).mx.cur = none ∧
          (∀ zero bank ent v a b sa sb, r.job = .step zero bank ent v a b sa sb →
            (t.core c).mx.acc = SMap.setMany 0 m.acc (4096 * bank) (stepBank zero v a b sa sb (m.bank bank)) ∧
            ∀ k, (s.core c).blocks.find? r.entry.rix = some k → (t.core c).blocks.find? r.entry.rix =
              some { k with cur := SMap.set 0 k.cur ent ((SMap.get 0 k.cur ent + 1) % 2 ^ 16) }) ∧
          (∀ bank g vals, r.job = .accwr bank g vals →
            (t.core c).mx.acc = SMap.setMany 0 m.acc (4096 * bank + 256 * g) vals) ∧
          (∀ bank, r.job = .accclr bank → (t.core c).mx.acc = SMap.clear m.acc (4096 * bank) 4096) ∧
          (∀ d a, r.job = .accadd d a → (t.core c).mx.acc = SMap.setMany 0 m.acc (4096 * d)
            (List.zipWith (fun x y => BitVec.ofNat 32 ((resAdd fmtF32 1 (fmtF32.read (x : W32).toNat)
              (fmtF32.read (y : W32).toNat)).round fmtF32 1 1 false 0).1) (m.bank d) (m.bank a))) ∧
          (∀ ent v k, r.job = .fmtset ent v → (s.core c).blocks.find? r.entry.rix = some k →
            (t.core c).blocks.find? r.entry.rix = some (if ent = 7 then { k with map := v }
              else { k with ft := SMap.set 0 k.ft ent v, cur := SMap.set 0 k.cur ent 0 })) ∧
          ∀ slot bank, r.job = .transfer slot bank →
            (t.core c).mar.target = SMap.slice m.acc (4096 * bank) 4096 ∧
            ∀ q, (s.core c).mar.slots.find? slot = some q → (t.core c).mar.slots.find? slot = some { q with filled := true }) ∧
      (∀ r, s.recordHeld c = none → s.recordStart c = some r →
        exec (.mmsgRecordRead c) s = .next (s.recordAsk c r)) ∧
      (∀ r, s.recordHeld c = none → s.recordStart c = none → s.recordNext c = some r →
        exec (.mmsgRecordRead c) s = .next (s.recordRead c r)) ∧
      (∀ x, (s.core c).mx.reset = 0 → (s.core c).allocNext = some x →
        exec (.accallocGrant c) s = .next
          ((((s.modMx c (fun m => { m with allocq := m.allocq.erase x })).grantBanks c x.rix x.base x.n).putBase
            c x.warp x.dest x.base x.id).wake c x.warp x.alt)) ∧
      (∀ x, (s.core c).freeNext = some x →
        exec (.accfreeRelease c) s = .next ((s.modMx c (fun m => { m with freeq := m.freeq.erase x })).wake c x.warp x.alt)) ∧
      (∀ r, 1024 ≤ (s.core c).mx.dead → (s.core c).evictee = some r →
        exec (.accDeadlock c) s = .next ((s.modMx c (fun m => { m with dead := 0 })).halt c r 2)) ∧
      ((s.core c).mx.reset = 1 →
        ∃ t, exec (.mxResetEnd c) s = .next t ∧ (t.core c).mx.reset = 0 ∧ (c, 1) ∉ t.commanded) ∧
      ∀ x q b, s.transferNext c = some (x, q) → (s.core c).blocks.find? q.rix = some b →
        ∃ t, exec (.bankTransfer c) s = .next t ∧
          (t.core c).mx.cur = some ⟨.transfer x.slot ((KMap.find? b.banks q.bank).getD 0), x, 16, 0, 0⟩ ∧
          (t.core c).mx.queue = (s.core c).mx.queue.erase x)

/-- The events of memory, translation, launch, governor and observation take their effect when they are due (R167, R170,
R173, R174, R183, R323, R326, R330, R331, R335, R336, R350, R364, R368, R369, R389, R393, R396 to R398, R404, R409, R410,
R416, R418, R425 to R429, R432, R441; assumption 17 as above). The oldest store of a write buffer writes its bytes to
memory at its address. A slice's atomic leaves in memory what R184 and R185 give of the old value and its operands, and
gives its requester the old value. A block that is placed is resident with the warps of R327 and leaves the wait list. A
walk that fails tells its fault to its askers, one that ends in the module is gone and its translation is cached. A block
that ends is gone, counted in its grid, its status word written where the record asks for it. Refresh and scrubbing take
time only (R345). -/
def Obligations.ModuleEventsTakeEffect : Prop :=
  ∀ (s : State) (c sl q stk : Nat),
    (∀ r ∈ (
      [(.writeBufferDrain c, s.drainDue c, s.drain c), (.promotionRequest c, s.promoDue c, s.promote c),
       (.sliceAtomic sl, s.sliceDue sl, s.sliceStep sl), (.remoteScratchAccess c, s.remoteDue c, s.remoteStep c),
       (.recordAdmit, s.admitDue, s.admitOne), (.blockPlace c, s.placeDue c, s.placeFirst c),
       (.blockEnd c, s.endDue c, s.endStep c), (.gridComplete, s.gridDue, s.gridStep),
       (.preempt c, s.preemptDue c, s.preempt c), (.preemptHaltDone c, s.haltDue c, s.haltStep c),
       (.walk c, s.walkDue c, s.walkStep c), (.atsTimeout c, s.atsLate c, s.answerLate c 1),
       (.pageRequestTimeout c, s.prgLate c, s.answerLate c 2), (.invalidationComplete, s.invalDue, s.invalStep),
       (.settleComplete c, s.settleDue c, s.settleStep c), (.governedStall c, s.stallDue c, s.stallStep c),
       (.slewStep, s.slewStepDue, s.slewStep), (.slewGrant c, s.slewDue c, s.light c),
       (.fillerEnd c, s.fillerDue c, s.unlight c), (.hangTimeout c, s.hangDue c, s.hangStep c),
       (.mxhangTimeout c, s.mxhangDue c, s.mxhangStep c), (.preciseStop c, s.stopDue c, s.stopStep c),
       (.sample c, s.sampleDue c, s.sampleCycle c), (.dropCountEmit, s.dropDue, s.dropCounts),
       (.losslessRoom, s.roomDue, s.placeWaiting), (.timeSync, s.syncDue, s.syncStep),
       (.rlogPartialFlush sl, s.rlogDue sl, s.rlogFlush sl), (.gateTimeout sl, s.gateDue sl, s.gateGive sl),
       (.shashRetire c, s.shashDue c, s.shashStep c), (.pressEdge, s.pressDue, s.pressBegin),
       (.pressReleaseEdge, s.releaseEdgeDue, s.pressEnd), (.attestDone, s.attestDue, s.attestEnd),
       (.qsubRecordWritten q, s.qsubDue q, s.qsubStep q)] : List (Instr × Bool × State)),
      (r.2.1 = true → exec r.1 s = .next r.2.2) ∧ (r.2.1 = false → exec r.1 s = .next s)) ∧
    (∀ x b l, (s.core c).wb = x :: l → x.kind = .store b → (s.drain c).mem = (s.write x.addr b).mem) ∧
    (∀ r, s.sliceDue sl = true → s.nextAtomic sl = some r →
      let old := s.readNat r.addr r.n
      let a := wordsNat r.data
      let n := r.n
      ∃ t, exec (.sliceAtomic sl) s = .next t ∧
        (∀ p ∈ ([(0, (old + a) % 2 ^ (8 * n)), (1, if signedBytes n a < signedBytes n old then a else old),
            (2, if signedBytes n old < signedBytes n a then a else old),
            (3, if n = 8 then a else (BitVec.ofNat 64 old &&& BitVec.ofNat 64 a).toNat),
            (4, (BitVec.ofNat 64 old ||| BitVec.ofNat 64 a).toNat), (5, (BitVec.ofNat 64 old ^^^ BitVec.ofNat 64 a).toNat),
            (6, a), (7, atomFadd (BitVec.ofNat 32 old) (BitVec.ofNat 32 a))] : List (Nat × Nat)),
          r.kind = .atom p.1 ∨ r.kind = .red p.1 → t.mem = (s.write r.addr (natBytes n p.2)).mem) ∧
        (r.kind = .cas → t.mem = if old = a then (s.write r.addr (natBytes n (wordsNat r.cmp))).mem else s.mem) ∧
        (∀ x, r.eng = false → r.core < 576 → (s.core r.core).warps.find? r.warp = some x →
          (t.core r.core).warps.find? r.warp = some ((x.modResult r.id (fun q => q.fill r.lane
            (wordsOfBytes (s.read r.addr n)))).hashDone r.lane r.id
              ((atomBytes r.kind n (s.read r.addr n) r.data r.cmp).2.map (hashBytes 0 r.ea)))) ∧
        (r.eng = false → 576 ≤ r.core → t.answer = old)) ∧
    (∀ x l g m, s.placeDue c = true → s.waitList c = x :: l → x.saved = none → s.grids.find? x.grid = some g →
      g.lr.fuse = false → s.loadImages g.pasid ((g.images.zipIdx).map (fun p => (p.2, p.1))) [] = .ok m →
      let rix := freeKey (s.core c).blocks 8
      ∃ t, exec (.blockPlace c) s = .next t ∧ t.waitList c = l ∧
        (t.core c).blocks.find? rix = some (Block.place x.grid g x.bno (s.core c).placed m) ∧
        (t.core c).warps = ((s.core c).addWarps (startWarps rix g.lr 0 0 g.lr.roles)).warps) ∧
    (∀ (rix ro i : Nat) (l : LRec) (r : Role),
      let y := Warp.start rix ro i l r
      (∀ k, SMap.get 0 y.v k = 0) ∧ SMap.get 0 y.w 0 = l.arg.extractLsb' 0 32 ∧ SMap.get 0 y.w 1 = l.arg.extractLsb' 32 32 ∧
        SMap.get 0 y.w 2 = BitVec.ofNat 32 l.nblk ∧ (∀ k, 3 ≤ k → SMap.get 0 y.w k = 0) ∧ y.q = [] ∧ y.flags = [] ∧
        (∀ j, j < 32 → SMap.get 0 y.seed j = BitVec.ofNat 32 (0x5EED0000 + 32 * i + j + 1)) ∧
        y.fmode = 1 ∧ y.rotbase = 0 ∧ y.loops = [] ∧ y.recs = [] ∧ y.hand = none ∧ y.rix = rix ∧ y.role = ro ∧ y.idx = i ∧
        y.priv = l.priv ∧ y.pri.live = true ∧ y.pri.mask = 0xFFFFFFFF ∧ y.pri.pc = r.entry ∧ y.alt.live = false) ∧
    (∀ w, s.goes = true → s.walkNow c 0 = some w → (s.core c).tlbHit w.pasid w.va w.write = none →
      s.qtlbHit (quireOf c) w.pasid w.va w.write = none →
      (∀ r, s.walkTables (quireOf c) w.pasid w.va = .error r →
        exec (.walk c) s = .next (s.tickNonce.walkFail c w r) ∧
        ∀ n alt y, w.who = [.path n alt] → (s.core c).warps.find? n = some y →
          ((s.tickNonce.walkFail c w r).core c).warps.find? n = some (y.modPath alt (fun p =>
            { p with faults := p.faults ++ [(page4K w.va, r)] }))) ∧
      ∀ f, s.walkTables (quireOf c) w.pasid w.va = .ok f → f.leaf.extractLsb' 6 2 ≠ 1 → w.who = [] →
        ∃ t, exec (.walk c) s = .next t ∧ (t.core c).walks.length + 1 = (s.core c).walks.length ∧
          ((w.swept (f.tlb w.pasid w.va)).nocache = false → f.tlb w.pasid w.va ∈ (t.core c).tlb)) ∧
    (∀ rix b g, s.endDue c = true → s.endNext c = some (rix, b) → (s.core c).blocks.find? rix = some b →
      s.grids.find? b.grid = some g →
      (b.lr.bstat = false → ∃ t, exec (.blockEnd c) s = .next t ∧ (t.core c).blocks.find? rix = none ∧
        t.grids.find? b.grid = some (g.ended b) ∧ t.mem = s.mem) ∧
      ∀ ps, b.lr.bstat = true → s.schedPlan g.pasid (b.lr.compl + 64 + 4 * b.bno) 4 true = .ok ps →
        ∃ t, exec (.blockEnd c) s = .next t ∧ (t.core c).blocks.find? rix = none ∧
          t.grids.find? b.grid = some (g.ended b) ∧ t.mem = (s.writePieces ps (wBytes b.status)).mem) ∧
    exec (.dramRefresh stk) s = .next s ∧ exec (.eccScrubForced stk) s = .next s

/-- What comes from outside takes its effect while the module takes it: register writes and commands while it is open or
runs, the press pin and the press commands while it has power (R317 to R319, R281, R343, R348, R366, R368 to R374, R383,
R399, R401, R407, R410, R417, R419, R423, R425 to R428, R431 to R433, R441, R453; assumption 17 as above), and the supply
and a warm reset at any time (R435, R436, R440). The effect of each is then given: the value that each register write leaves
and what else it does, what an invalidation covers, what an access reads or writes, what a lost read's result becomes, what
becomes of a slice's open chunk, the edge that a press is asked for, what a power-on, a warm reset and a loss of power
leave, and that the boot goes on step by step. The model's own choices among these: memory that lost its contents reads as
unwritten (assumptions 1, 20), the boot's steps (3), a warm reset ends the grids (78) and is ignored while a boot is under
way (140), which read an outside error meets (79), what TINVC reads back (100), the bits a register stores (101). -/
def Obligations.OutsideEventsTakeEffect : Prop :=
  ∀ (s : State) (c q g off sl pa pasid pages err : Nat) (v : W32) (va : W64) (pas : Option Nat) (en a b peer hi isCtl mgmt : Bool)
      (op : OuterOp) (at_ : AtsAnswer) (pr : PrgAnswer),
    (∀ r ∈ (
      [(.qwpWrite q v, s.open_, s.writeQwp q v), (.qctlWrite q v, s.open_, s.writeQctl q v),
       (.qstatClear q v, s.open_, s.clearQstat q v), (.mxResetCmd c, s.open_, s.mxResetCmd c),
       (.coreResetCmd c, s.open_, s.coreResetCmd c), (.atsCompletion c at_, s.atsDue c, s.atsStep c at_),
       (.prgResponse c pr, s.prgDue c, s.prgStep c pr),
       (.hostAtsInvalidate pas va pages, s.open_, s.atsInval pas va pages),
       (.hostInvPage pasid, s.open_, s.hostInval 0 pasid), (.hostInvRange pasid, s.open_, s.hostInval 1 pasid),
       (.hostInvPasid pasid, s.open_, s.hostInval 2 pasid), (.hostInvAll, s.open_, s.hostInval 3 0),
       (.hostHostAccess peer op pa, s.open_, s.outerAccess peer op pa),
       (.hostCompletionError c, s.goes, s.outerError c false), (.peerLoss c, s.goes, s.outerError c true),
       (.cgrantWrite c va, s.open_, s.writeCgrant c va),
       (.slewWrite g hi isCtl v, s.open_, s.writeSlew g hi isCtl v), (.wstatClear c v, s.open_, s.clearWstat c v),
       (.stopArmCycle c v, s.open_, s.writeStopctl c v 1), (.stopArmCount c v, s.open_, s.writeStopctl c v 2),
       (.stopDisarm c v, s.open_, s.writeStopctl c v 0), (.stopResume c, s.open_, s.writeResume c),
       (.bcmClear c, s.open_, s.clearBcm c), (.divergedClear c, s.open_, s.clearDiverged c),
       (.obsctlWrite c v, s.open_, s.writeObsctl c v), (.headbandFlush, s.open_, s.flushTrace),
       (.headbandEnable en, s.open_, s.enableTrace en), (.rpmodeOff sl, s.open_, s.setRpmode sl 0),
       (.rpmodeRecord sl, s.open_, s.setRpmode sl 1), (.rpmodeReplay sl, s.open_, s.setRpmode sl 2),
       (.pressPinAssert, s.boot.powered, s.pinAssert), (.pressPinDeassert, s.boot.powered, s.pinDeassert),
       (.pressCmd, s.boot.powered, s.pressAsk), (.pressReleaseCmd, s.boot.powered, s.pressRelease),
       (.attestGo, s.goes, s.attestBegin), (.controlRegisterWrite off ⟨v, mgmt⟩, s.goes, s.controlWrite mgmt off v),
       (.configurationSpaceWrite en a b, s.goes, s.writeConfig en a b)] : List (Instr × Bool × State)),
      (r.2.1 = true → exec r.1 s = .next r.2.2) ∧ (r.2.1 = false → exec r.1 s = .next s)) ∧
    exec (.powerOn err) s = .next (s.powerOn err) ∧ exec (.warmReset en err) s = .next (s.warmReset en err) ∧
    exec .powerLoss s = .next s.losePower ∧
    (s.open_ = true →
      (s.qctl q).getLsbD 4 = false →
        exec (.qwpWrite q v) s = .next
          (let u := s.setCtl (offQueue q + 0x10) v
           (if u.overfull q then u.setOver q else u).visible q)) ∧
    (s.open_ = true →
      (∀ old, old = s.qctl q → old.getLsbD 0 = true → v.getLsbD 0 = false →
        ∃ t, exec (.qctlWrite q v) s = .next t ∧ t.ctl = (s.setCtl (offQueue q + 8) (old &&& ~~~1)).ctl ∧
          t.stuck = s.stuck.filter (· ≠ q) ∧ t.admits = s.admits.filter (fun x => x.1 ≠ q)) ∧
      ((s.qctl q).getLsbD 0 = false → v.getLsbD 0 = true →
        exec (.qctlWrite q v) s = .next ((s.setCtl (offQueue q + 8) (v &&& 0x1FFFFF)).visible q)) ∧
      exec (.qstatClear q v) s = .next (s.setCtl (offQueue q + 0x18) (s.qstat q &&& ~~~(v &&& 3))) ∧
      (∃ t, exec (.mxResetCmd c) s = .next t ∧ (t.core c).mx.cur = none ∧ (t.core c).mx.reset = 257 ∧ (c, 1) ∈ t.commanded) ∧
      exec (.coreResetCmd c) s = .next (((s.noteReset c 2).coreReset c).resetsOver c) ∧
      (∃ t, exec (.hostAtsInvalidate pas va pages) s = .next t ∧
        t.invals = s.invals ++ [⟨5, pas, va.toNat / 4096 * 4096, 4096 * pages, 0, none, s.nonce⟩]) ∧
      (s.tinvBusy = false →
        let p := pasid % 2 ^ 20
        let at_ := (s.ctl64 0xE010).toNat
        (∃ t, exec (.hostInvPage pasid) s = .next t ∧ t.ctl = (s.setCtl 0xE018 (BitVec.ofNat 32 (p * 2 ^ 4))).ctl ∧
          t.invals = s.invals ++ [⟨0, some p, at_, 0, 0, none, s.nonce⟩]) ∧
        (let u := s.setCtl 0xE018 (BitVec.ofNat 32 (p * 2 ^ 4 + 1))
         ∃ t, exec (.hostInvRange pasid) s = .next t ∧ t.ctl = u.ctl ∧
          t.invals = s.invals ++ [⟨1, some p, at_ / 65536 * 65536, 65536 * (((u.ctlAt 0xE01C).extractLsb' 0 24).toNat + 1),
            0, none, s.nonce⟩]) ∧
        (∃ t, exec (.hostInvPasid pasid) s = .next t ∧
          t.ctl = (s.setCtl 0xE018 (BitVec.ofNat 32 (p * 2 ^ 4 + 2))).ctl ∧
          t.invals = s.invals ++ [⟨2, some p, 0, 0, 0, none, s.nonce⟩]) ∧
        ∃ t, exec .hostInvAll s = .next t ∧ t.ctl = (s.setCtl 0xE018 3).ctl ∧
          t.invals = s.invals ++ [⟨3, none, 0, 0, 0, none, s.nonce⟩]) ∧
      (isModule pa = true →
        (∀ n, exec (.hostHostAccess peer (.read n) pa) s = .next { s with answer := s.readNat pa n }) ∧
        (∀ l, exec (.hostHostAccess peer (.write l) pa) s = .next (s.write pa l)) ∧
        (∀ n x, exec (.hostHostAccess peer (.fetchAdd n x) pa) s = .next (s.outerAtomic peer pa n (.atom 0) x 0)) ∧
        (∀ n x, exec (.hostHostAccess peer (.swap n x) pa) s = .next (s.outerAtomic peer pa n (.atom 6) x 0)) ∧
        (∀ n x y, exec (.hostHostAccess peer (.cas n x y) pa) s = .next (s.outerAtomic peer pa n .cas x y)) ∧
        ∀ k n x, exec (.hostHostAccess true (.atom k n x) pa) s = .next (s.outerAtomic true pa n (.atom k) x 0)) ∧
      (∃ t, exec (.cgrantWrite c va) s = .next t ∧
        t.ctl = (s.setCtl64 (offCgrant c) (va &&& 0x0000FFFFFFFFFF0F)).ctl ∧ (t.core c).gov = (s.core c).gov) ∧
      exec (.slewWrite g hi isCtl v) s = .next
        (if isCtl then s.setCtl (offSlew g + 8) (v &&& 1) else s.setCtl (offSlew g + (if hi then 4 else 0)) v) ∧
      exec (.wstatClear c v) s = .next (s.setCtl (offWatch c + 8) (s.ctlAt (offWatch c + 8) &&& ~~~(v &&& 3))) ∧
      (∀ i m, (i, m) ∈ ([(.stopArmCycle c v, 1), (.stopArmCount c v, 2), (.stopDisarm c v, 0)] : List (Instr × Nat)) →
        ∃ t, exec i s = .next t ∧ t.ctl = (s.setCtl (offObs c + 8) ((v &&& 0x3F8C) ||| BitVec.ofNat 32 m)).ctl ∧
          (t.core c).obs.armed = (m != 0) ∧ (t.core c).obs.count = 0) ∧
      ((s.core c).obs.stopped = true →
        exec (.stopResume c) s = .next ((s.modCore c (fun k => { k with obs := { k.obs with resuming := true } })).stopEdge c)) ∧
      (∃ t, exec (.bcmClear c) s = .next t ∧ (t.core c).obs.bcm = []) ∧
      exec (.divergedClear c) s = .next (s.setCtl (offObs c + 0x28) (s.ostat c &&& ~~~0x10000)) ∧
      (∃ t, exec (.obsctlWrite c v) s = .next t ∧
        t.ctl = (s.setCtl (offObs c) (if v.extractLsb' 8 2 == 3 then v &&& 0x7F else v &&& 0x37F)).ctl) ∧
      ((∀ p ∈ s.slices, s.rpmode p.1 ≠ 1) → ∃ t, exec .headbandFlush s = .next t ∧ t.hb.drops = [] ∧ t.hb.full = false) ∧
      exec (.headbandEnable en) s = .next (s.setCtl offHbctl ((s.ctlAt offHbctl &&& 2) ||| (if en then 1 else 0))) ∧
      (s.rpmode sl ≠ 1 →
        exec (.rpmodeOff sl) s = .next (((s.setCtl (offReplay sl) 0).modSlice sl id).gateMark sl) ∧
        exec (.rpmodeRecord sl) s = .next (((s.setCtl (offReplay sl) 1).modSlice sl (fun x =>
          { x with chunk := none, closed := [], used := 0 })).gateMark sl) ∧
        exec (.rpmodeReplay sl) s = .next (((s.setCtl (offReplay sl) 2).modSlice sl (fun x =>
          { x with idx := 0, pass := false, ended := false, div := false, headUsed := 0, quiet := s.time })).gateMark sl)) ∧
      (s.rpmode sl = 1 → ∀ ch, (s.slice sl).chunk = some ch → (s.slice sl).closed.length < 16 →
        let sent := s.traceLossless 3 0 (srcOfSlice sl) (chunkWords ((s.slice sl).closed ++ [ch]))
        ∀ i ∈ ([.rpmodeOff sl, .rpmodeRecord sl, .rpmodeReplay sl] : List Instr),
          ∃ t, exec i s = .next t ∧ t.hb = sent.hb ∧ t.mem = s.mem ∧ (t.slice sl).chunk = none ∧ (t.slice sl).closed = []) ∧
      ∀ x ch, s.slices = [(sl, x)] → s.rpmode sl = 1 → s.hb.drops = [] → x.chunk = some ch → x.closed.length < 16 →
        let sent := s.dropCounts.traceLossless 3 0 (srcOfSlice sl) (chunkWords (x.closed ++ [ch]))
        ∃ t, exec .headbandFlush s = .next t ∧ t.hb = sent.hb ∧ (t.slice sl).chunk = none ∧ (t.slice sl).closed = []) ∧
    (s.goes = true →
      (∀ w, s.awaits c 1 = some w → exec (.atsCompletion c at_) s = .next (s.atsTake c w at_)) ∧
      (∀ w, s.awaits c 2 = some w →
        exec (.prgResponse c pr) s = .next (((s.core c).walks.filter (fun x =>
          x.stage == 2 && x.pasid == w.pasid && page4K x.va == page4K w.va)).foldl (fun s x => s.prgTake c x pr) s)) ∧
      (∀ i p, (i, p) ∈ ([(.hostCompletionError c, false), (.peerLoss c, true)] : List (Instr × Bool)) →
        ∀ w id lane ea n x, (s.core c).outerRead p = some (w, id, lane, ea, n) → (s.core c).warps.find? w = some x →
          ∃ t, exec i s = .next t ∧ t.mem = s.mem ∧
            (t.core c).warps.find? w = some (x.modResult id (fun r => r.lose p lane n))) ∧
      (s.boot.signing = none →
        ∃ t, exec .attestGo s = .next t ∧ t.ctl = (s.setCtl offAtt 2).ctl ∧ t.boot.signing.isSome = true) ∧
      (∀ m, off % 4 = 0 → off ≠ 0xF100 → off ≠ 0xE018 → s.recovery = false → s.storedBits off = some m →
        (mgmt = true ∨ off < 0x31100 ∨ 0x31200 ≤ off) →
        let u := s.setCtl off
          (if (decide (0x28000 ≤ off ∧ off < 0x31000) && off % 64 == 4) && !decide (16 ≤ v.toNat ∧ v.toNat ≤ 2 ^ 24) then 0
           else v &&& m)
        exec (.controlRegisterWrite off ⟨v, mgmt⟩) s =
          .next (if 0x32000 ≤ off ∧ off < 0x3A000 then u.gateMark ((off - 0x32000) / 64) else u)) ∧
      (0x31100 ≤ off → off < 0x31200 → exec (.controlRegisterWrite off ⟨v, false⟩) s = .next s) ∧
      exec (.configurationSpaceWrite en a b) s = .next { s with cfg := (en, a, b), priFailed := s.priFailed && !b }) ∧
    (s.boot.powered = true →
      (∃ t, exec .pressPinAssert s = .next t ∧ t.press.pin = true ∧
        (s.press.at_ = none → s.press.pressed = false →
          t.press.at_ = some ((s.time + 1035) / 36 * 36) ∧ t.press.byPin = true)) ∧
      (∃ t, exec .pressPinDeassert s = .next t ∧ t.press.pin = false ∧
        (s.press.byPin = true → s.press.pressed = true → t.press.releasing = true) ∧
        (s.press.byPin = true → s.press.pressed = false → t.press.at_ = none)) ∧
      (s.press.at_ = none → s.press.pressed = false →
        exec .pressCmd s = .next { s with press := { s.press with at_ := some ((s.time + 1035) / 36 * 36), byPin := false } }) ∧
      (s.press.pressed = true →
        exec .pressReleaseCmd s = .next { s with press := { s.press with releasing := true } })) ∧
    (s.boot.powered = false → err ≤ 6 → err ≠ 3 →
      ∃ t, exec (.powerOn err) s = .next t ∧ t.boot.powered = true ∧ t.boot.booting = some ⟨1, err, false⟩ ∧
        t.boot.count = s.boot.count + 1 ∧ t.time = 0 ∧ t.cores = [] ∧ t.mem = s.mem.filter (fun p => !isModule p.1)) ∧
    (s.boot.powered = true → s.boot.booting = none → err = 0 ∨ (4 ≤ err ∧ err ≤ 6) →
      ∃ t, exec (.warmReset en err) s = .next t ∧ t.boot.count = s.boot.count ∧ t.cores = [] ∧ t.grids = [] ∧
        let u := s.cores.foldl (fun s p => s.endsAll p.1) s
        let kept := en && (err == 0 || err == 6) && (imageChosen s.flash).isSome
        t.boot.booting = some ⟨3, err, kept⟩ ∧ t.rings = u.rings ∧
        t.mem = if kept then u.mem else lostMemory s.boot.resets u.mem) ∧
    (s.inboxNext = none → s.boot.powered = true → s.press.pressed = false → ∀ b, s.boot.booting = some b →
      step s = .next s.bootStep ∧
      (7 ≤ b.next → b.err = 0 → s.bootStep.boot.booting = none ∧ s.bootStep.goes = true) ∧
      (1 ≤ b.err → b.err ≤ 6 → b.next = bootFails b.err → s.bootStep.boot.booting = none ∧
        (SMap.rising 0 s.ctl = true → s.bootStep.recovery = true))) ∧
    ∃ t, exec .powerLoss s = .next t ∧ t.boot.powered = false ∧ t.mem = s.mem.filter (fun p => !isModule p.1) ∧ t.rings = []

/-! ## Decoding (R25 to R28, R50) -/

/-- Decoding what a well-formed instruction encodes to gives it back, with every operand: every form of every instruction
of the opcode table, and every bundle. What has no words is an event of the machine. -/
def Obligations.DecodeEncodeRoundTrip : Prop :=
  ∀ i : Instr, i.wf = true →
    (∀ w, encode i = [w] → decode w = .ok i) ∧
    (∀ h x sl, encode i = h :: x :: sl → decodeBundle h (x :: sl) = .ok i) ∧
    (encode i = [] ↔ i.isInstruction = false)

/-- The other direction: a word that decodes is the one word of the instruction it decodes to, which is well-formed, so no
bit is dropped and no reserved field is let through; a bundle is its header and slots. -/
def Obligations.DecodedIsWellFormed : Prop :=
  (∀ (w : W64) (i : Instr), decode w = .ok i → i.wf = true ∧ encode i = [w]) ∧
  ∀ (h : W64) (sl : List W64) (i : Instr), decodeBundle h sl = .ok i → i = .bundle h sl ∧ i.wf = true ∧ encode i = h :: sl

/-- Words that the spec works out, one or more of every family, decode to the instruction they stand for. -/
def Obligations.DecodeSpecWords : Prop :=
  let g : Guard := ⟨15, false, 0⟩
  let sw : Guard := ⟨15, false, 2⟩
  decode 0x4000_0A03_022C_0812 = .ok (.iadd ⟨0, 5, 3, 4, 0x581, 0, false, ⟨2, false, 2⟩⟩) ∧
  decode 0x84A4_0E00_FFFF_FD78 = .ok (.movi ⟨1, 7, 0, 0xFFFFFD, false, g⟩) ∧
  decode 0x4440_0203_01D4_097A = .ok (.icmp ⟨0, 1, 3, 3, 0xA81, 1, false, sw⟩) ∧
  decode 0x4800_0202_0180_0678 = .ok (.fadd ⟨0, 1, 2, 3, 0, 6, false, g⟩) ∧
  decode 0x4860_140B_E0FF_C079 = .ok (.ffma ⟨0, 10, 11, 449, 511, 0, false, ⟨15, false, 1⟩⟩) ∧
  decode 0x5000_0A04_0000_0078 = .ok (.rcp ⟨0, 5, 4, 0, 0, 0, false, g⟩) ∧
  decode 0x9828_1804_0002_0478 = .ok (.stI ⟨2, 12, 4, 32, 1, 0, g⟩) ∧
  decode 0x58B8_0C04_0494_007A = .ok (.atom ⟨6, 6, 4, 9, 0, 5, 0, sw⟩) ∧
  decode 0xE0C7_C000_14C0_2E78 = .ok (.loopPipe ⟨1, 480, 0x000A6017, g⟩) ∧
  decode 0xE100_0000_0000_1478 = .ok (.modeCollapse ⟨0, 0, 0x0000000A, g⟩) ∧
  decode 0x681C_0020_1800_0078 = .ok (.mms ⟨7, 0, 32, 48, 0, 0, false, g⟩) ∧
  decode 0x7040_561E_CB00_0078 = .ok (.gather ⟨0, 43, 30, 406, 0, 0, false, g⟩) ∧
  decode 0x7420_2815_0B78_0078 = .ok (.seedscan ⟨0, 20, 21, 22, 480, 0, false, g⟩) ∧
  decode 0x7E03_1214_C400_0078 = .ok (.qsub ⟨0, 393, 20, 392, 0, 0, false, g⟩) ∧
  decode 0x7844_0004_C500_0078 = .ok (.xinvRange ⟨1, 0, 4, 394, 0, 0, false, g⟩) ∧
  decode 0x7A43_0782_0000_0078 = .ok (.grant ⟨0, 387, 386, 0, 0, 0, false, g⟩) ∧
  decode 0x7C84_0784_0000_0078 = .ok (.rpctlRec ⟨1, 3, 388, 0, 0, 0, false, g⟩)

/-! ## Two rules in their own terms -/

/-- Integer division (R69), of two registers and of a register by the immediate: in each active lane the quotient and the
remainder of the rule's table, its two corners included. Neither traps and neither sets a flag (the next state differs in
what any issue changes alone), and the latency is 20 cycles in class C at both widths. -/
def Obligations.DivisionByTheRule : Prop :=
  ∀ (s : State) (e : Env),
    (∀ f : F2, s.Issues f.g e → f.mod ∈ [0, 1, 6, 7] →
      let a := f.srcA 0 (tyWide f.mod) false
      let b := f.srcB 0 (tyWide f.mod) false
      e.legal [a, b] = true → e.vOk f.d (tyWide f.mod) = true → e.quiet [a, b] = true →
      ∃ q r : Nat → W64, (∀ l, Divides f.mod (a.val e l) (b.val e l) (q l) (r l)) ∧
        ∀ p ∈ ([(.idiv f, q), (.irem f, r)] : List (Instr × (Nat → W64))),
          let t := e.complete (costOf p.1) f.g (e.vResult 0 20 f.d (tyWide f.mod) p.2 (e.enter s))
          exec p.1 s = .next t ∧ s.SameBut Warp.SameButIssue t e.c e.w ∧ (costOf p.1).cls = 2) ∧
    (∀ f : FI, s.Issues f.g e → f.mod ∈ [0, 1, 6, 7] →
      let a := f.srcA 0 (tyWide f.mod) false
      e.legal [a] = true → e.vOk f.d (tyWide f.mod) = true → e.quiet [a] = true →
      ∃ q r : Nat → W64, (∀ l, Divides f.mod (a.val e l) (immIU f.mod f.imm) (q l) (r l)) ∧
        ∀ p ∈ ([(.idivI f, q), (.iremI f, r)] : List (Instr × (Nat → W64))),
          let t := e.complete (costOf p.1) f.g (e.vResult 0 20 f.d (tyWide f.mod) p.2 (e.enter s))
          exec p.1 s = .next t ∧ s.SameBut Warp.SameButIssue t e.c e.w ∧ (costOf p.1).cls = 2)

/-- FUNNEL (R72) bit by bit: bit i of D is bit i + n of C over A, n being B[5:0], and false past the end. So with one value
in both it rotates right for n below 32, and shifts right by n − 32 from there on. -/
def Obligations.FunnelByTheRule : Prop :=
  ∀ (s : State) (e : Env) (f : F3), s.Issues f.g e →
    let a := f.srcA 0 false false
    let b := f.srcB 0 false false
    let c := f.srcC 0 false false
    e.legal [a, b, c] = true → e.vOk f.d false = true → e.quiet [a, b, c] = true →
    ∃ v : Nat → W32,
      (let t := e.complete (costOf (.funnel f)) f.g (e.vResult 0 2 f.d false (fun l => (v l).setWidth 64) (e.enter s));
        exec (.funnel f) s = .next t ∧ s.SameBut Warp.SameButIssue t e.c e.w) ∧
      ∀ l,
        let n := ((b.val e l).extractLsb' 0 6).toNat
        (∀ i, i < 32 → (v l).getLsbD i =
          if i + n < 32 then (a.val e l).getLsbD (i + n)
          else if i + n < 64 then (c.val e l).getLsbD (i + n - 32) else false) ∧
        (a.val e l = c.val e l → v l = if n < 32 then ((a.val e l).setWidth 32 : W32).rotateRight n
          else ((a.val e l).setWidth 32 : W32) >>> (n - 32))

/-! ## Traps (R56, R159 to R161) -/

/-- A privileged instruction without privilege, and OPSEL without permission, has no effect but the trap PRIVILEGE, with
the mask of a decode cause: the invalidations, XFLUSH, GRANT, the RPCTL forms, DOMSET, OPSEL, and SETSP of a privileged
register. -/
def Obligations.PrivilegeTraps : Prop :=
  ∀ (s : State) (e : Env),
    (∀ f : F2, s.Issues f.g e →
      (e.warp.priv = false → ∀ i ∈ ([.xinvPage f, .xinvRange f, .xinvPasid f, .xinvAll f, .xflush f, .grant f, .rpctlOff f,
          .rpctlRec f, .rpctlReplay f, .rpctlQuery f] : List Instr),
        exec i s = .next (e.stopped s (.trap 0x04 e.dec))) ∧
      (e.warp.priv = false → f.b.toNat ∈ [0x12, 0x14, 0x15, 0x16] →
        exec (.setsp f) s = .next (e.stopped s (.trap 0x04 e.dec))) ∧
      (e.opPerm = false → exec (.opsel f) s = .next (e.stopped s (.trap 0x04 e.dec)))) ∧
    (∀ f : FI, s.Issues f.g e → e.opPerm = false → exec (.opselI f) s = .next (e.stopped s (.trap 0x04 e.dec))) ∧
    ∀ f : FC, s.Issues f.g e → e.warp.priv = false → exec (.domset f) s = .next (e.stopped s (.trap 0x04 e.dec))

/-- Taking a trap, and returning from one (R159 to R161). A warp in its program whose results have landed enters the
handler of its role: the cause, the address and the lanes are set, the banked registers come in and the program's go out,
the warp holds privilege, and one path runs at the entry with the trapping path's mask; memory is as it was. With results
in flight the path waits for them. In a handler, or with no handler, the block ends. ERET on the handler's mask, its results
landed, gives the registers, the paths and the privilege back, and the trapped path goes on at %trappc; that the program's
divergence records and loops come back with them is the model's reading (assumption 27). -/
def Obligations.TrapEntryAndReturn : Prop :=
  ∀ (s : State) (c w : Nat) (x : Warp) (b : Block), (s.core c).warps.find? w = some x →
    (s.core c).blocks.find? x.rix = some b →
    let entry := (b.lr.roles.getD x.role ⟨0, 0xFFFFFFFF, 0, 0⟩).handler
    (∀ (alt : Bool) (cause : BitVec 8) (pc lanes : W32),
      let t := s.takeTrap c w alt cause pc lanes
      t.mem = s.mem ∧
      (x.strand = false → x.results ≠ [] →
        t = s.modPath c w alt (fun p => { p with park := some (.trap cause pc lanes) })) ∧
      (∀ h, x.hand = some h → x.results = [] →
        t = s.killBlock c x.rix h.cause.toNat cause.toNat (b.lr.code + pc.setWidth 64)) ∧
      (x.hand = none → x.strand = true ∨ x.results = [] → entry = 0xFFFFFFFF →
        t = s.killBlock c x.rix cause.toNat 0 (b.lr.code + pc.setWidth 64)) ∧
      (x.hand = none → x.strand = true ∨ x.results = [] → entry ≠ 0xFFFFFFFF →
        ∃ y h, (t.core c).warps.find? w = some y ∧ y.hand = some h ∧
          y.trapcause = cause.setWidth 32 ∧ y.trappc = b.lr.code + pc.setWidth 64 ∧ y.traplanes = lanes ∧ y.priv = true ∧
          y.v = x.swapBanks.v ∧ y.w = x.swapBanks.w ∧ y.bankV = x.swapBanks.bankV ∧ y.bankW = x.swapBanks.bankW ∧
          y.q = x.q ∧ y.flags = x.flags ∧ y.fmode = x.fmode ∧ y.seed = x.seed ∧
          y.pri.live = true ∧ y.pri.pc = entry ∧ y.alt.live = false ∧
          (x.strand = false → y.pri.mask = (x.path alt).mask ∧ y.strand = false) ∧
          h.priv = x.priv ∧ h.recs = x.recs ∧ h.loops = x.loops)) ∧
    ∀ (e : Env) (f : FC) (h : Handler), s.Issues f.g e → e.c = c → e.w = w → e.warp = x → e.strand = false →
      x.hand = some h → h.strand = false → e.notLast = .ok () → e.conv = .ok () →
      e.path.mask = h.mask &&& ~~~(x.exited &&& ~~~h.gone) → x.results = [] →
      exec (.eret f) s = .next (e.complete (costOf (.eret f)) f.g ((e.enter s).leaveTrap c w)) ∧
      ∃ y, (((e.enter s).leaveTrap c w).core c).warps.find? w = some y ∧ y.hand = none ∧ y.priv = h.priv ∧
        y.recs = h.recs ∧ y.loops = h.loops ∧ y.v = x.swapBanks.v ∧ y.w = x.swapBanks.w ∧
        (y.path (!h.onPri)).pc = (x.trappc - b.lr.code).setWidth 32

/-! ## Memory -/

/-- Every byte of memory but those an instruction stores to reads after it as before. Instructions that store nothing as
they issue leave all of memory; so do transfers when at most 16 divergence records stand, and a bundle of such slots. A
plain store leaves every address outside the places its active lanes' addresses come to; the write-buffer drain that
performs one leaves every address outside the entry's bytes. -/
def Obligations.MemoryFrame : Prop :=
  ∀ (i : Instr) (s t : State), exec i s = .next t →
    (storesNothing i = true → ∀ x, SMap.get 0 t.mem x = SMap.get 0 s.mem x) ∧
    ((∃ f, i ∈ ([.bra f, .brx f, .call f, .callx f, .ret f, .brk f, .exit f] : List Instr)) →
      (∀ y, (t.core s.sel.core).warps.find? s.sel.warp = some y → y.allRecs.length ≤ 16) →
      ∀ x, SMap.get 0 t.mem x = SMap.get 0 s.mem x) ∧
    (∀ h ws, i = .bundle h ws →
      (∀ n l, (decodeSlots ws).bind (assign h n) = some l → ∀ p ∈ l, storesNothing p.2.instr = true) →
      ∀ x, SMap.get 0 t.mem x = SMap.get 0 s.mem x) ∧
    (∀ (e : Env) (f : L2) (rel : Bool), s.Issues f.g e → i = (if rel then .stRel f else .st f) →
      let n := 2 ^ f.mod.toNat
      ∀ x, e.Outside (accessOf .store f.space f.scope.toNat n false rel f.hint.toNat
          (lanesOf e.act) (fun l => effAddr f.space ((lsAddr f.space noPort f.d).val e l) (idxOff f.b e l))
          (fun l => if rel then (storeRelData f.mod f.a).wordsOf e l n else e.dataWords f.a (regsOf n) l)
          (fun _ => [])) (e.enter s) x →
        SMap.get 0 t.mem x = SMap.get 0 s.mem x) ∧
    (∀ (e : Env) (f : LI) (rel : Bool), s.Issues f.g e → i = (if rel then .stRelI f else .stI f) →
      let n := 2 ^ f.mod.toNat
      ∀ x, e.Outside (accessOf .store f.space f.scope.toNat n false rel 0
          (lanesOf e.act) (fun l => effAddr f.space ((lsAddr f.space noPort f.d).val e l) (f.imm.signExtend 64))
          (fun l => if rel then (storeRelData f.mod f.a).wordsOf e l n else e.dataWords f.a (regsOf n) l)
          (fun _ => [])) (e.enter s) x →
        SMap.get 0 t.mem x = SMap.get 0 s.mem x) ∧
    ∀ c y l, i = .writeBufferDrain c → (s.core c).wb = y :: l →
      ∀ x, (∀ b, y.kind = .store b → x < y.addr ∨ y.addr + b.length ≤ x) →
        (∀ k n lane id ea d m, y.kind = .atom k n lane id ea d m → x < y.addr ∨ y.addr + n ≤ x) →
        SMap.get 0 t.mem x = SMap.get 0 s.mem x

/-- Memory keeps its canonical form through every step, from every state that has it. -/
def Obligations.MemoryStaysCanonical : Prop :=
  ∀ s t : State, s.Canonical → step s = .next t → t.Canonical

/-- Memory has its canonical form at reset: what it reads as before anything is written is the model's choice (assumption
1). -/
def Obligations.MemoryCanonicalAtReset : Prop := State.reset.Canonical

/-! ## Steps -/

/-- No step stops: from every state, whatever its cores, queues and memory hold, the machine has a next state. -/
def Obligations.StepNeverStops : Prop := ∀ s : State, GoesOn (step s)

/-- A step runs the decoded instruction. With no outside event and nothing due, at the turn of a core that is about to
select and is held by nothing: where the selected path's warp fetches words whose first decodes to i, the step is exec of i
for that path, with the hazard records the issue gives rise to (R422). At a strand's turn the same of the bundle at its
path. The instruction itself moves the path past its words (`Env.enter`). -/
def Obligations.StepRunsDecoded : Prop :=
  ∀ (s : State) (c : Nat) (k : Core) (w : Nat) (x : Warp) (b : Block) (l : List W64),
    s.inboxNext = none → s.dueEvent = none → s.turn = some (c, k) → (s.core c).warps.find? w = some x →
    (s.core c).blocks.find? x.rix = some b → (s.core c).ck.align = none →
    (∀ (y : Cand) (i : Instr) (h : W64), k.ck.stage = .simt → (s.core c).ck.span = [] → (s.core c).obs.bkpt = none →
      s.select c = some y → y.warp = w → x.bundled = false → b.fetchWords (x.path y.alt) = .ok (h :: l) → decode h = .ok i →
      let u := { s with sel := ⟨c, w, .path y.alt⟩ }
      step s = (match exec i u with | .next t => .next (t.hazAfter u i) | o => o)) ∧
    ∀ (t : Strand) (h : W64), k.ck.stage = .start → s.frozen c = false → (s.core c).strand = some t → t.warp = w →
      s.strandMay c t x = true → x.bundled = true → b.fetchWords x.pri = .ok (h :: l) → hdrSlots h ≤ l.length →
      step s = exec (.bundle h (l.take (hdrSlots h))) { s with sel := ⟨c, w, .core⟩ }

/-! ## Reset -/

/-- What the spec states of the machine after module reset: time and the cycle counts at 0, no block, warp or strand on any
core, no grid waiting; the placement cursor at 0, the queues off; the governor's map the identity with budget 0, no
permission and ceiling 7, and no self-limit; the ramp and the watch limits; observation off. -/
def Obligations.ResetValues : Prop :=
  let s := State.reset
  s.time = 0 ∧ s.grids = [] ∧ s.waiting = [] ∧ s.readControl 0xF000 = 0 ∧
  (∀ q, q < 64 → (s.qctl q).getLsbD 0 = false) ∧
  (∀ c, c < 576 →
    (s.core c).ck.cycle = 0 ∧ (s.core c).blocks = [] ∧ (s.core c).warps = [] ∧ (s.core c).strand = none ∧
    (s.core c).gov.clim = 7 ∧ (s.core c).gov.blim = 0 ∧ (s.core c).gov.opperm = false ∧
    (∀ n, n < 8 → (s.core c).gov.pmap n = n) ∧
    s.hangLim c = 0x80000000 ∧ s.mxLim c = 0x01000000 ∧ s.obsctl c = 0) ∧
  ∀ j, j < 72 → s.ctl64 (0x22000 + 16 * j) = 0x8888888887654321 ∧ s.ctlAt (0x22000 + 16 * j + 8) = 1
end

