-- ==== Sys2Proof/Laws/Maps.lean ====
section
/-! SUPPORT. Sparse maps and keyed collections: a read after a write, and the canonical form that every write keeps. -/

set_option Elab.async false

namespace Sys2Proof.Machine

/-! ## Keyed collections -/

/-- A record that was put is found. -/
theorem KMap.find?_put_same {α : Type} (m : KMap α) (k : Nat) (x : α) : (m.put k x).find? k = some x := by
  induction m with
  | nil => simp [KMap.put, KMap.find?]
  | cons p l ih =>
    obtain ⟨j, y⟩ := p
    unfold KMap.put
    split
    · simp [KMap.find?]
    · split
      · simp [KMap.find?]
      · have : j ≠ k := by omega
        simp [KMap.find?, this, ih]

/-- The record of another key is as it was. -/
theorem KMap.find?_put_other {α : Type} (m : KMap α) (k d : Nat) (x : α) (h : d ≠ k) :
    (m.put k x).find? d = m.find? d := by
  induction m with
  | nil => simp [KMap.put, KMap.find?, Ne.symm h]
  | cons p l ih =>
    obtain ⟨j, y⟩ := p
    unfold KMap.put
    split
    · simp [KMap.find?, Ne.symm h]
    · split
      · next hk => subst hk; simp [KMap.find?, Ne.symm h]
      · simp [KMap.find?, ih]

/-! ## Sparse maps -/

/-- Rising keys from a higher bound rise from a lower one. -/
theorem SMap.rising_mono {α : Type} {lo hi : Nat} {m : SMap α} (h : lo ≤ hi) (r : SMap.rising hi m = true) :
    SMap.rising lo m = true := by
  cases m with
  | nil => rfl
  | cons p l =>
    obtain ⟨j, x⟩ := p
    simp only [SMap.rising, Bool.and_eq_true, decide_eq_true_eq] at r ⊢
    exact ⟨by omega, r.2⟩

/-- A key below the bound is not listed. -/
theorem SMap.get_below {α : Type} (d : α) {lo k : Nat} {m : SMap α} (r : SMap.rising lo m = true) (h : k < lo) :
    SMap.get d m k = d := by
  induction m generalizing lo with
  | nil => rfl
  | cons p l ih =>
    obtain ⟨j, x⟩ := p
    simp only [SMap.rising, Bool.and_eq_true, decide_eq_true_eq] at r
    have : j ≠ k := by omega
    simp only [SMap.get, this, if_false]
    exact ih r.2 (by omega)

/-- A read after a write at the same key. -/
theorem SMap.get_set_same {α : Type} [DecidableEq α] (d : α) {lo : Nat} {m : SMap α} (r : SMap.rising lo m = true)
    (k : Nat) (x : α) : SMap.get d (SMap.set d m k x) k = x := by
  induction m generalizing lo with
  | nil => unfold SMap.set; split <;> simp [SMap.get, *]
  | cons p l ih =>
    obtain ⟨j, y⟩ := p
    simp only [SMap.rising, Bool.and_eq_true, decide_eq_true_eq] at r
    unfold SMap.set
    split
    · split
      · have : j ≠ k := by omega
        simp only [SMap.get, this, if_false]
        rw [SMap.get_below d r.2 (by omega)]
        simp [*]
      · simp [SMap.get]
    · split
      · split
        · next hk hx =>
          subst hk
          rw [SMap.get_below d r.2 (by omega)]
          exact hx.symm
        · simp [SMap.get]
      · have : j ≠ k := by omega
        simp only [SMap.get, this, if_false]
        exact ih r.2

/-- A read of another key. -/
theorem SMap.get_set_other {α : Type} [DecidableEq α] (d : α) (m : SMap α) (k i : Nat) (x : α) (h : i ≠ k) :
    SMap.get d (SMap.set d m k x) i = SMap.get d m i := by
  induction m with
  | nil => unfold SMap.set; split <;> simp [SMap.get, Ne.symm h]
  | cons p l ih =>
    obtain ⟨j, y⟩ := p
    unfold SMap.set
    split
    · split <;> simp [SMap.get, Ne.symm h]
    · split
      · next hk => subst hk; split <;> simp [SMap.get, Ne.symm h]
      · simp only [SMap.get, ih]

/-- A write keeps the keys rising. -/
theorem SMap.rising_set {α : Type} [DecidableEq α] (d : α) {lo k : Nat} {m : SMap α} (x : α)
    (r : SMap.rising lo m = true) (h : lo ≤ k) : SMap.rising lo (SMap.set d m k x) = true := by
  induction m generalizing lo with
  | nil => unfold SMap.set; split <;> simp [SMap.rising, h]
  | cons p l ih =>
    obtain ⟨j, y⟩ := p
    have r' := r
    simp only [SMap.rising, Bool.and_eq_true, decide_eq_true_eq] at r
    unfold SMap.set
    split
    · split
      · exact r'
      · simp only [SMap.rising, Bool.and_eq_true, decide_eq_true_eq]
        exact ⟨h, by omega, r.2⟩
    · split
      · split
        · exact SMap.rising_mono (by omega) r.2
        · simp only [SMap.rising, Bool.and_eq_true, decide_eq_true_eq]
          exact ⟨h, SMap.rising_mono (by omega) r.2⟩
      · simp only [SMap.rising, Bool.and_eq_true, decide_eq_true_eq]
        exact ⟨r.1, ih r.2 (by omega)⟩

/-- A write lists no entry equal to the default. -/
theorem SMap.all_set {α : Type} [DecidableEq α] (d : α) {m : SMap α} (k : Nat) (x : α)
    (r : m.all (fun p => decide (p.2 ≠ d)) = true) : (SMap.set d m k x).all (fun p => decide (p.2 ≠ d)) = true := by
  induction m with
  | nil => unfold SMap.set; split <;> simp [*]
  | cons p l ih =>
    obtain ⟨j, y⟩ := p
    have r' := r
    simp only [List.all_cons, Bool.and_eq_true, decide_eq_true_eq] at r
    unfold SMap.set
    split
    · split
      · exact r'
      · next hx => simp only [List.all_cons, Bool.and_eq_true, decide_eq_true_eq]; exact ⟨hx, r⟩
    · split
      · split
        · exact r.2
        · next hx => simp only [List.all_cons, Bool.and_eq_true, decide_eq_true_eq]; exact ⟨hx, r.2⟩
      · simp only [List.all_cons, Bool.and_eq_true, decide_eq_true_eq]; exact ⟨r.1, ih r.2⟩

/-- A write keeps the canonical form. -/
theorem SMap.wf_set {α : Type} [DecidableEq α] (d : α) {m : SMap α} (k : Nat) (x : α) (h : SMap.wf d m = true) :
    SMap.wf d (SMap.set d m k x) = true := by
  simp only [SMap.wf, Bool.and_eq_true] at h ⊢
  exact ⟨SMap.rising_set d x h.1 (Nat.zero_le k), SMap.all_set d k x h.2⟩

/-- Writes at consecutive keys keep the canonical form. -/
theorem SMap.wf_setMany {α : Type} [DecidableEq α] (d : α) (l : List α) (k : Nat) {m : SMap α} (h : SMap.wf d m = true) :
    SMap.wf d (SMap.setMany d m k l) = true := by
  induction l generalizing k m with
  | nil => exact h
  | cons x xs ih => exact ih (k + 1) (SMap.wf_set d k x h)

/-- A part of a canonical map is canonical. -/
theorem SMap.wf_filter {α : Type} [DecidableEq α] (d : α) (p : Nat × α → Bool) {m : SMap α} (h : SMap.wf d m = true) :
    SMap.wf d (m.filter p) = true := by
  simp only [SMap.wf, Bool.and_eq_true] at h ⊢
  obtain ⟨r, a⟩ := h
  constructor
  · clear a
    generalize 0 = lo at r
    induction m generalizing lo with
    | nil => rfl
    | cons q l ih =>
      obtain ⟨j, y⟩ := q
      simp only [SMap.rising, Bool.and_eq_true, decide_eq_true_eq] at r
      by_cases hp : p (j, y) = true
      · rw [List.filter_cons_of_pos hp]
        simp only [SMap.rising, Bool.and_eq_true, decide_eq_true_eq]
        exact ⟨r.1, ih _ r.2⟩
      · rw [List.filter_cons_of_neg hp]
        exact SMap.rising_mono (by omega) (ih _ r.2)
  · rw [List.all_eq_true] at a ⊢
    exact fun q hq => a q (List.mem_of_mem_filter hq)

/-- A read outside consecutive keys that were written. -/
theorem SMap.get_setMany_other {α : Type} [DecidableEq α] (d : α) (l : List α) (m : SMap α) (k i : Nat)
    (h : i < k ∨ k + l.length ≤ i) : SMap.get d (SMap.setMany d m k l) i = SMap.get d m i := by
  induction l generalizing k m with
  | nil => rfl
  | cons x xs ih =>
    simp only [SMap.setMany, List.length_cons] at *
    rw [ih _ _ (by omega), SMap.get_set_other d m k i x (by omega)]

/-- A read within consecutive keys that were written. -/
theorem SMap.get_setMany_in {α : Type} [DecidableEq α] (d : α) (l : List α) {m : SMap α} (k i : Nat)
    (w : SMap.wf d m = true) (h : i < l.length) : SMap.get d (SMap.setMany d m k l) (k + i) = l[i] := by
  induction l generalizing k m i with
  | nil => exact absurd h (by simp)
  | cons x xs ih =>
    simp only [SMap.setMany]
    cases i with
    | zero =>
      rw [SMap.get_setMany_other d xs _ (k + 1) (k + 0) (by omega)]
      have r : SMap.rising 0 m = true := by simp only [SMap.wf, Bool.and_eq_true] at w; exact w.1
      exact SMap.get_set_same d r k x
    | succ n =>
      have := ih (m := SMap.set d m k x) (k + 1) n (SMap.wf_set d k x w) (by simpa using h)
      rw [show k + (n + 1) = k + 1 + n by omega, this]
      rfl

end Sys2Proof.Machine
end

