-- ==== Sys2Proof/Laws/State.lean ====
section
/-! SUPPORT. What each named update of the state leaves as it was, one lemma for each field and update, and what an
update of a core, a warp, a block or a path reads as. -/

set_option Elab.async false

namespace Sys2Proof.Machine

/-! ## putCore -/

@[simp] theorem State.putCore_time (s : State) (c : Nat) (k : Core) : (s.putCore c k).time = s.time := rfl
@[simp] theorem State.putCore_mem (s : State) (c : Nat) (k : Core) : (s.putCore c k).mem = s.mem := rfl
@[simp] theorem State.putCore_ctl (s : State) (c : Nat) (k : Core) : (s.putCore c k).ctl = s.ctl := rfl
@[simp] theorem State.putCore_sel (s : State) (c : Nat) (k : Core) : (s.putCore c k).sel = s.sel := rfl
@[simp] theorem State.putCore_inbox (s : State) (c : Nat) (k : Core) : (s.putCore c k).inbox = s.inbox := rfl
@[simp] theorem State.putCore_nonce (s : State) (c : Nat) (k : Core) : (s.putCore c k).nonce = s.nonce := rfl
@[simp] theorem State.putCore_slices (s : State) (c : Nat) (k : Core) : (s.putCore c k).slices = s.slices := rfl
@[simp] theorem State.putCore_qtlb (s : State) (c : Nat) (k : Core) : (s.putCore c k).qtlb = s.qtlb := rfl
@[simp] theorem State.putCore_wcache (s : State) (c : Nat) (k : Core) : (s.putCore c k).wcache = s.wcache := rfl
@[simp] theorem State.putCore_invals (s : State) (c : Nat) (k : Core) : (s.putCore c k).invals = s.invals := rfl
@[simp] theorem State.putCore_kettles (s : State) (c : Nat) (k : Core) : (s.putCore c k).kettles = s.kettles := rfl
@[simp] theorem State.putCore_grids (s : State) (c : Nat) (k : Core) : (s.putCore c k).grids = s.grids := rfl
@[simp] theorem State.putCore_nextGrid (s : State) (c : Nat) (k : Core) : (s.putCore c k).nextGrid = s.nextGrid := rfl
@[simp] theorem State.putCore_admits (s : State) (c : Nat) (k : Core) : (s.putCore c k).admits = s.admits := rfl
@[simp] theorem State.putCore_stuck (s : State) (c : Nat) (k : Core) : (s.putCore c k).stuck = s.stuck := rfl
@[simp] theorem State.putCore_waiting (s : State) (c : Nat) (k : Core) : (s.putCore c k).waiting = s.waiting := rfl
@[simp] theorem State.putCore_tickets (s : State) (c : Nat) (k : Core) : (s.putCore c k).tickets = s.tickets := rfl
@[simp] theorem State.putCore_qsubs (s : State) (c : Nat) (k : Core) : (s.putCore c k).qsubs = s.qsubs := rfl
@[simp] theorem State.putCore_irqs (s : State) (c : Nat) (k : Core) : (s.putCore c k).irqs = s.irqs := rfl
@[simp] theorem State.putCore_hb (s : State) (c : Nat) (k : Core) : (s.putCore c k).hb = s.hb := rfl
@[simp] theorem State.putCore_rings (s : State) (c : Nat) (k : Core) : (s.putCore c k).rings = s.rings := rfl
@[simp] theorem State.putCore_slew (s : State) (c : Nat) (k : Core) : (s.putCore c k).slew = s.slew := rfl
@[simp] theorem State.putCore_slewTick (s : State) (c : Nat) (k : Core) : (s.putCore c k).slewTick = s.slewTick := rfl
@[simp] theorem State.putCore_slewEff (s : State) (c : Nat) (k : Core) : (s.putCore c k).slewEff = s.slewEff := rfl
@[simp] theorem State.putCore_press (s : State) (c : Nat) (k : Core) : (s.putCore c k).press = s.press := rfl
@[simp] theorem State.putCore_boot (s : State) (c : Nat) (k : Core) : (s.putCore c k).boot = s.boot := rfl
@[simp] theorem State.putCore_cfg (s : State) (c : Nat) (k : Core) : (s.putCore c k).cfg = s.cfg := rfl
@[simp] theorem State.putCore_commanded (s : State) (c : Nat) (k : Core) : (s.putCore c k).commanded = s.commanded := rfl
@[simp] theorem State.putCore_priFailed (s : State) (c : Nat) (k : Core) : (s.putCore c k).priFailed = s.priFailed := rfl
@[simp] theorem State.putCore_answer (s : State) (c : Nat) (k : Core) : (s.putCore c k).answer = s.answer := rfl
@[simp] theorem State.putCore_l2 (s : State) (c : Nat) (k : Core) : (s.putCore c k).l2 = s.l2 := rfl

/-! ## modCore -/

@[simp] theorem State.modCore_time (s : State) (c : Nat) (f : Core → Core) : (s.modCore c f).time = s.time := rfl
@[simp] theorem State.modCore_mem (s : State) (c : Nat) (f : Core → Core) : (s.modCore c f).mem = s.mem := rfl
@[simp] theorem State.modCore_ctl (s : State) (c : Nat) (f : Core → Core) : (s.modCore c f).ctl = s.ctl := rfl
@[simp] theorem State.modCore_sel (s : State) (c : Nat) (f : Core → Core) : (s.modCore c f).sel = s.sel := rfl
@[simp] theorem State.modCore_inbox (s : State) (c : Nat) (f : Core → Core) : (s.modCore c f).inbox = s.inbox := rfl
@[simp] theorem State.modCore_nonce (s : State) (c : Nat) (f : Core → Core) : (s.modCore c f).nonce = s.nonce := rfl
@[simp] theorem State.modCore_slices (s : State) (c : Nat) (f : Core → Core) : (s.modCore c f).slices = s.slices := rfl
@[simp] theorem State.modCore_qtlb (s : State) (c : Nat) (f : Core → Core) : (s.modCore c f).qtlb = s.qtlb := rfl
@[simp] theorem State.modCore_wcache (s : State) (c : Nat) (f : Core → Core) : (s.modCore c f).wcache = s.wcache := rfl
@[simp] theorem State.modCore_invals (s : State) (c : Nat) (f : Core → Core) : (s.modCore c f).invals = s.invals := rfl
@[simp] theorem State.modCore_kettles (s : State) (c : Nat) (f : Core → Core) : (s.modCore c f).kettles = s.kettles := rfl
@[simp] theorem State.modCore_grids (s : State) (c : Nat) (f : Core → Core) : (s.modCore c f).grids = s.grids := rfl
@[simp] theorem State.modCore_nextGrid (s : State) (c : Nat) (f : Core → Core) : (s.modCore c f).nextGrid = s.nextGrid := rfl
@[simp] theorem State.modCore_admits (s : State) (c : Nat) (f : Core → Core) : (s.modCore c f).admits = s.admits := rfl
@[simp] theorem State.modCore_stuck (s : State) (c : Nat) (f : Core → Core) : (s.modCore c f).stuck = s.stuck := rfl
@[simp] theorem State.modCore_waiting (s : State) (c : Nat) (f : Core → Core) : (s.modCore c f).waiting = s.waiting := rfl
@[simp] theorem State.modCore_tickets (s : State) (c : Nat) (f : Core → Core) : (s.modCore c f).tickets = s.tickets := rfl
@[simp] theorem State.modCore_qsubs (s : State) (c : Nat) (f : Core → Core) : (s.modCore c f).qsubs = s.qsubs := rfl
@[simp] theorem State.modCore_irqs (s : State) (c : Nat) (f : Core → Core) : (s.modCore c f).irqs = s.irqs := rfl
@[simp] theorem State.modCore_hb (s : State) (c : Nat) (f : Core → Core) : (s.modCore c f).hb = s.hb := rfl
@[simp] theorem State.modCore_rings (s : State) (c : Nat) (f : Core → Core) : (s.modCore c f).rings = s.rings := rfl
@[simp] theorem State.modCore_slew (s : State) (c : Nat) (f : Core → Core) : (s.modCore c f).slew = s.slew := rfl
@[simp] theorem State.modCore_slewTick (s : State) (c : Nat) (f : Core → Core) : (s.modCore c f).slewTick = s.slewTick := rfl
@[simp] theorem State.modCore_slewEff (s : State) (c : Nat) (f : Core → Core) : (s.modCore c f).slewEff = s.slewEff := rfl
@[simp] theorem State.modCore_press (s : State) (c : Nat) (f : Core → Core) : (s.modCore c f).press = s.press := rfl
@[simp] theorem State.modCore_boot (s : State) (c : Nat) (f : Core → Core) : (s.modCore c f).boot = s.boot := rfl
@[simp] theorem State.modCore_cfg (s : State) (c : Nat) (f : Core → Core) : (s.modCore c f).cfg = s.cfg := rfl
@[simp] theorem State.modCore_commanded (s : State) (c : Nat) (f : Core → Core) : (s.modCore c f).commanded = s.commanded := rfl
@[simp] theorem State.modCore_priFailed (s : State) (c : Nat) (f : Core → Core) : (s.modCore c f).priFailed = s.priFailed := rfl
@[simp] theorem State.modCore_answer (s : State) (c : Nat) (f : Core → Core) : (s.modCore c f).answer = s.answer := rfl
@[simp] theorem State.modCore_l2 (s : State) (c : Nat) (f : Core → Core) : (s.modCore c f).l2 = s.l2 := rfl

/-! ## modClock -/

@[simp] theorem State.modClock_time (s : State) (c : Nat) (f : Clock → Clock) : (s.modClock c f).time = s.time := rfl
@[simp] theorem State.modClock_mem (s : State) (c : Nat) (f : Clock → Clock) : (s.modClock c f).mem = s.mem := rfl
@[simp] theorem State.modClock_ctl (s : State) (c : Nat) (f : Clock → Clock) : (s.modClock c f).ctl = s.ctl := rfl
@[simp] theorem State.modClock_sel (s : State) (c : Nat) (f : Clock → Clock) : (s.modClock c f).sel = s.sel := rfl
@[simp] theorem State.modClock_inbox (s : State) (c : Nat) (f : Clock → Clock) : (s.modClock c f).inbox = s.inbox := rfl
@[simp] theorem State.modClock_nonce (s : State) (c : Nat) (f : Clock → Clock) : (s.modClock c f).nonce = s.nonce := rfl
@[simp] theorem State.modClock_slices (s : State) (c : Nat) (f : Clock → Clock) : (s.modClock c f).slices = s.slices := rfl
@[simp] theorem State.modClock_qtlb (s : State) (c : Nat) (f : Clock → Clock) : (s.modClock c f).qtlb = s.qtlb := rfl
@[simp] theorem State.modClock_wcache (s : State) (c : Nat) (f : Clock → Clock) : (s.modClock c f).wcache = s.wcache := rfl
@[simp] theorem State.modClock_invals (s : State) (c : Nat) (f : Clock → Clock) : (s.modClock c f).invals = s.invals := rfl
@[simp] theorem State.modClock_kettles (s : State) (c : Nat) (f : Clock → Clock) : (s.modClock c f).kettles = s.kettles := rfl
@[simp] theorem State.modClock_grids (s : State) (c : Nat) (f : Clock → Clock) : (s.modClock c f).grids = s.grids := rfl
@[simp] theorem State.modClock_nextGrid (s : State) (c : Nat) (f : Clock → Clock) : (s.modClock c f).nextGrid = s.nextGrid := rfl
@[simp] theorem State.modClock_admits (s : State) (c : Nat) (f : Clock → Clock) : (s.modClock c f).admits = s.admits := rfl
@[simp] theorem State.modClock_stuck (s : State) (c : Nat) (f : Clock → Clock) : (s.modClock c f).stuck = s.stuck := rfl
@[simp] theorem State.modClock_waiting (s : State) (c : Nat) (f : Clock → Clock) : (s.modClock c f).waiting = s.waiting := rfl
@[simp] theorem State.modClock_tickets (s : State) (c : Nat) (f : Clock → Clock) : (s.modClock c f).tickets = s.tickets := rfl
@[simp] theorem State.modClock_qsubs (s : State) (c : Nat) (f : Clock → Clock) : (s.modClock c f).qsubs = s.qsubs := rfl
@[simp] theorem State.modClock_irqs (s : State) (c : Nat) (f : Clock → Clock) : (s.modClock c f).irqs = s.irqs := rfl
@[simp] theorem State.modClock_hb (s : State) (c : Nat) (f : Clock → Clock) : (s.modClock c f).hb = s.hb := rfl
@[simp] theorem State.modClock_rings (s : State) (c : Nat) (f : Clock → Clock) : (s.modClock c f).rings = s.rings := rfl
@[simp] theorem State.modClock_slew (s : State) (c : Nat) (f : Clock → Clock) : (s.modClock c f).slew = s.slew := rfl
@[simp] theorem State.modClock_slewTick (s : State) (c : Nat) (f : Clock → Clock) : (s.modClock c f).slewTick = s.slewTick := rfl
@[simp] theorem State.modClock_slewEff (s : State) (c : Nat) (f : Clock → Clock) : (s.modClock c f).slewEff = s.slewEff := rfl
@[simp] theorem State.modClock_press (s : State) (c : Nat) (f : Clock → Clock) : (s.modClock c f).press = s.press := rfl
@[simp] theorem State.modClock_boot (s : State) (c : Nat) (f : Clock → Clock) : (s.modClock c f).boot = s.boot := rfl
@[simp] theorem State.modClock_cfg (s : State) (c : Nat) (f : Clock → Clock) : (s.modClock c f).cfg = s.cfg := rfl
@[simp] theorem State.modClock_commanded (s : State) (c : Nat) (f : Clock → Clock) : (s.modClock c f).commanded = s.commanded := rfl
@[simp] theorem State.modClock_priFailed (s : State) (c : Nat) (f : Clock → Clock) : (s.modClock c f).priFailed = s.priFailed := rfl
@[simp] theorem State.modClock_answer (s : State) (c : Nat) (f : Clock → Clock) : (s.modClock c f).answer = s.answer := rfl
@[simp] theorem State.modClock_l2 (s : State) (c : Nat) (f : Clock → Clock) : (s.modClock c f).l2 = s.l2 := rfl

/-! ## modWarp -/

@[simp] theorem State.modWarp_time (s : State) (c w : Nat) (f : Warp → Warp) : (s.modWarp c w f).time = s.time := rfl
@[simp] theorem State.modWarp_mem (s : State) (c w : Nat) (f : Warp → Warp) : (s.modWarp c w f).mem = s.mem := rfl
@[simp] theorem State.modWarp_ctl (s : State) (c w : Nat) (f : Warp → Warp) : (s.modWarp c w f).ctl = s.ctl := rfl
@[simp] theorem State.modWarp_sel (s : State) (c w : Nat) (f : Warp → Warp) : (s.modWarp c w f).sel = s.sel := rfl
@[simp] theorem State.modWarp_inbox (s : State) (c w : Nat) (f : Warp → Warp) : (s.modWarp c w f).inbox = s.inbox := rfl
@[simp] theorem State.modWarp_nonce (s : State) (c w : Nat) (f : Warp → Warp) : (s.modWarp c w f).nonce = s.nonce := rfl
@[simp] theorem State.modWarp_slices (s : State) (c w : Nat) (f : Warp → Warp) : (s.modWarp c w f).slices = s.slices := rfl
@[simp] theorem State.modWarp_qtlb (s : State) (c w : Nat) (f : Warp → Warp) : (s.modWarp c w f).qtlb = s.qtlb := rfl
@[simp] theorem State.modWarp_wcache (s : State) (c w : Nat) (f : Warp → Warp) : (s.modWarp c w f).wcache = s.wcache := rfl
@[simp] theorem State.modWarp_invals (s : State) (c w : Nat) (f : Warp → Warp) : (s.modWarp c w f).invals = s.invals := rfl
@[simp] theorem State.modWarp_kettles (s : State) (c w : Nat) (f : Warp → Warp) : (s.modWarp c w f).kettles = s.kettles := rfl
@[simp] theorem State.modWarp_grids (s : State) (c w : Nat) (f : Warp → Warp) : (s.modWarp c w f).grids = s.grids := rfl
@[simp] theorem State.modWarp_nextGrid (s : State) (c w : Nat) (f : Warp → Warp) : (s.modWarp c w f).nextGrid = s.nextGrid := rfl
@[simp] theorem State.modWarp_admits (s : State) (c w : Nat) (f : Warp → Warp) : (s.modWarp c w f).admits = s.admits := rfl
@[simp] theorem State.modWarp_stuck (s : State) (c w : Nat) (f : Warp → Warp) : (s.modWarp c w f).stuck = s.stuck := rfl
@[simp] theorem State.modWarp_waiting (s : State) (c w : Nat) (f : Warp → Warp) : (s.modWarp c w f).waiting = s.waiting := rfl
@[simp] theorem State.modWarp_tickets (s : State) (c w : Nat) (f : Warp → Warp) : (s.modWarp c w f).tickets = s.tickets := rfl
@[simp] theorem State.modWarp_qsubs (s : State) (c w : Nat) (f : Warp → Warp) : (s.modWarp c w f).qsubs = s.qsubs := rfl
@[simp] theorem State.modWarp_irqs (s : State) (c w : Nat) (f : Warp → Warp) : (s.modWarp c w f).irqs = s.irqs := rfl
@[simp] theorem State.modWarp_hb (s : State) (c w : Nat) (f : Warp → Warp) : (s.modWarp c w f).hb = s.hb := rfl
@[simp] theorem State.modWarp_rings (s : State) (c w : Nat) (f : Warp → Warp) : (s.modWarp c w f).rings = s.rings := rfl
@[simp] theorem State.modWarp_slew (s : State) (c w : Nat) (f : Warp → Warp) : (s.modWarp c w f).slew = s.slew := rfl
@[simp] theorem State.modWarp_slewTick (s : State) (c w : Nat) (f : Warp → Warp) : (s.modWarp c w f).slewTick = s.slewTick := rfl
@[simp] theorem State.modWarp_slewEff (s : State) (c w : Nat) (f : Warp → Warp) : (s.modWarp c w f).slewEff = s.slewEff := rfl
@[simp] theorem State.modWarp_press (s : State) (c w : Nat) (f : Warp → Warp) : (s.modWarp c w f).press = s.press := rfl
@[simp] theorem State.modWarp_boot (s : State) (c w : Nat) (f : Warp → Warp) : (s.modWarp c w f).boot = s.boot := rfl
@[simp] theorem State.modWarp_cfg (s : State) (c w : Nat) (f : Warp → Warp) : (s.modWarp c w f).cfg = s.cfg := rfl
@[simp] theorem State.modWarp_commanded (s : State) (c w : Nat) (f : Warp → Warp) : (s.modWarp c w f).commanded = s.commanded := rfl
@[simp] theorem State.modWarp_priFailed (s : State) (c w : Nat) (f : Warp → Warp) : (s.modWarp c w f).priFailed = s.priFailed := rfl
@[simp] theorem State.modWarp_answer (s : State) (c w : Nat) (f : Warp → Warp) : (s.modWarp c w f).answer = s.answer := rfl
@[simp] theorem State.modWarp_l2 (s : State) (c w : Nat) (f : Warp → Warp) : (s.modWarp c w f).l2 = s.l2 := rfl

/-! ## modBlock -/

@[simp] theorem State.modBlock_time (s : State) (c r : Nat) (f : Block → Block) : (s.modBlock c r f).time = s.time := rfl
@[simp] theorem State.modBlock_mem (s : State) (c r : Nat) (f : Block → Block) : (s.modBlock c r f).mem = s.mem := rfl
@[simp] theorem State.modBlock_ctl (s : State) (c r : Nat) (f : Block → Block) : (s.modBlock c r f).ctl = s.ctl := rfl
@[simp] theorem State.modBlock_sel (s : State) (c r : Nat) (f : Block → Block) : (s.modBlock c r f).sel = s.sel := rfl
@[simp] theorem State.modBlock_inbox (s : State) (c r : Nat) (f : Block → Block) : (s.modBlock c r f).inbox = s.inbox := rfl
@[simp] theorem State.modBlock_nonce (s : State) (c r : Nat) (f : Block → Block) : (s.modBlock c r f).nonce = s.nonce := rfl
@[simp] theorem State.modBlock_slices (s : State) (c r : Nat) (f : Block → Block) : (s.modBlock c r f).slices = s.slices := rfl
@[simp] theorem State.modBlock_qtlb (s : State) (c r : Nat) (f : Block → Block) : (s.modBlock c r f).qtlb = s.qtlb := rfl
@[simp] theorem State.modBlock_wcache (s : State) (c r : Nat) (f : Block → Block) : (s.modBlock c r f).wcache = s.wcache := rfl
@[simp] theorem State.modBlock_invals (s : State) (c r : Nat) (f : Block → Block) : (s.modBlock c r f).invals = s.invals := rfl
@[simp] theorem State.modBlock_kettles (s : State) (c r : Nat) (f : Block → Block) : (s.modBlock c r f).kettles = s.kettles := rfl
@[simp] theorem State.modBlock_grids (s : State) (c r : Nat) (f : Block → Block) : (s.modBlock c r f).grids = s.grids := rfl
@[simp] theorem State.modBlock_nextGrid (s : State) (c r : Nat) (f : Block → Block) : (s.modBlock c r f).nextGrid = s.nextGrid := rfl
@[simp] theorem State.modBlock_admits (s : State) (c r : Nat) (f : Block → Block) : (s.modBlock c r f).admits = s.admits := rfl
@[simp] theorem State.modBlock_stuck (s : State) (c r : Nat) (f : Block → Block) : (s.modBlock c r f).stuck = s.stuck := rfl
@[simp] theorem State.modBlock_waiting (s : State) (c r : Nat) (f : Block → Block) : (s.modBlock c r f).waiting = s.waiting := rfl
@[simp] theorem State.modBlock_tickets (s : State) (c r : Nat) (f : Block → Block) : (s.modBlock c r f).tickets = s.tickets := rfl
@[simp] theorem State.modBlock_qsubs (s : State) (c r : Nat) (f : Block → Block) : (s.modBlock c r f).qsubs = s.qsubs := rfl
@[simp] theorem State.modBlock_irqs (s : State) (c r : Nat) (f : Block → Block) : (s.modBlock c r f).irqs = s.irqs := rfl
@[simp] theorem State.modBlock_hb (s : State) (c r : Nat) (f : Block → Block) : (s.modBlock c r f).hb = s.hb := rfl
@[simp] theorem State.modBlock_rings (s : State) (c r : Nat) (f : Block → Block) : (s.modBlock c r f).rings = s.rings := rfl
@[simp] theorem State.modBlock_slew (s : State) (c r : Nat) (f : Block → Block) : (s.modBlock c r f).slew = s.slew := rfl
@[simp] theorem State.modBlock_slewTick (s : State) (c r : Nat) (f : Block → Block) : (s.modBlock c r f).slewTick = s.slewTick := rfl
@[simp] theorem State.modBlock_slewEff (s : State) (c r : Nat) (f : Block → Block) : (s.modBlock c r f).slewEff = s.slewEff := rfl
@[simp] theorem State.modBlock_press (s : State) (c r : Nat) (f : Block → Block) : (s.modBlock c r f).press = s.press := rfl
@[simp] theorem State.modBlock_boot (s : State) (c r : Nat) (f : Block → Block) : (s.modBlock c r f).boot = s.boot := rfl
@[simp] theorem State.modBlock_cfg (s : State) (c r : Nat) (f : Block → Block) : (s.modBlock c r f).cfg = s.cfg := rfl
@[simp] theorem State.modBlock_commanded (s : State) (c r : Nat) (f : Block → Block) : (s.modBlock c r f).commanded = s.commanded := rfl
@[simp] theorem State.modBlock_priFailed (s : State) (c r : Nat) (f : Block → Block) : (s.modBlock c r f).priFailed = s.priFailed := rfl
@[simp] theorem State.modBlock_answer (s : State) (c r : Nat) (f : Block → Block) : (s.modBlock c r f).answer = s.answer := rfl
@[simp] theorem State.modBlock_l2 (s : State) (c r : Nat) (f : Block → Block) : (s.modBlock c r f).l2 = s.l2 := rfl

/-! ## modStrand -/

@[simp] theorem State.modStrand_time (s : State) (c : Nat) (f : Strand → Strand) : (s.modStrand c f).time = s.time := rfl
@[simp] theorem State.modStrand_mem (s : State) (c : Nat) (f : Strand → Strand) : (s.modStrand c f).mem = s.mem := rfl
@[simp] theorem State.modStrand_ctl (s : State) (c : Nat) (f : Strand → Strand) : (s.modStrand c f).ctl = s.ctl := rfl
@[simp] theorem State.modStrand_sel (s : State) (c : Nat) (f : Strand → Strand) : (s.modStrand c f).sel = s.sel := rfl
@[simp] theorem State.modStrand_inbox (s : State) (c : Nat) (f : Strand → Strand) : (s.modStrand c f).inbox = s.inbox := rfl
@[simp] theorem State.modStrand_nonce (s : State) (c : Nat) (f : Strand → Strand) : (s.modStrand c f).nonce = s.nonce := rfl
@[simp] theorem State.modStrand_slices (s : State) (c : Nat) (f : Strand → Strand) : (s.modStrand c f).slices = s.slices := rfl
@[simp] theorem State.modStrand_qtlb (s : State) (c : Nat) (f : Strand → Strand) : (s.modStrand c f).qtlb = s.qtlb := rfl
@[simp] theorem State.modStrand_wcache (s : State) (c : Nat) (f : Strand → Strand) : (s.modStrand c f).wcache = s.wcache := rfl
@[simp] theorem State.modStrand_invals (s : State) (c : Nat) (f : Strand → Strand) : (s.modStrand c f).invals = s.invals := rfl
@[simp] theorem State.modStrand_kettles (s : State) (c : Nat) (f : Strand → Strand) : (s.modStrand c f).kettles = s.kettles := rfl
@[simp] theorem State.modStrand_grids (s : State) (c : Nat) (f : Strand → Strand) : (s.modStrand c f).grids = s.grids := rfl
@[simp] theorem State.modStrand_nextGrid (s : State) (c : Nat) (f : Strand → Strand) : (s.modStrand c f).nextGrid = s.nextGrid := rfl
@[simp] theorem State.modStrand_admits (s : State) (c : Nat) (f : Strand → Strand) : (s.modStrand c f).admits = s.admits := rfl
@[simp] theorem State.modStrand_stuck (s : State) (c : Nat) (f : Strand → Strand) : (s.modStrand c f).stuck = s.stuck := rfl
@[simp] theorem State.modStrand_waiting (s : State) (c : Nat) (f : Strand → Strand) : (s.modStrand c f).waiting = s.waiting := rfl
@[simp] theorem State.modStrand_tickets (s : State) (c : Nat) (f : Strand → Strand) : (s.modStrand c f).tickets = s.tickets := rfl
@[simp] theorem State.modStrand_qsubs (s : State) (c : Nat) (f : Strand → Strand) : (s.modStrand c f).qsubs = s.qsubs := rfl
@[simp] theorem State.modStrand_irqs (s : State) (c : Nat) (f : Strand → Strand) : (s.modStrand c f).irqs = s.irqs := rfl
@[simp] theorem State.modStrand_hb (s : State) (c : Nat) (f : Strand → Strand) : (s.modStrand c f).hb = s.hb := rfl
@[simp] theorem State.modStrand_rings (s : State) (c : Nat) (f : Strand → Strand) : (s.modStrand c f).rings = s.rings := rfl
@[simp] theorem State.modStrand_slew (s : State) (c : Nat) (f : Strand → Strand) : (s.modStrand c f).slew = s.slew := rfl
@[simp] theorem State.modStrand_slewTick (s : State) (c : Nat) (f : Strand → Strand) : (s.modStrand c f).slewTick = s.slewTick := rfl
@[simp] theorem State.modStrand_slewEff (s : State) (c : Nat) (f : Strand → Strand) : (s.modStrand c f).slewEff = s.slewEff := rfl
@[simp] theorem State.modStrand_press (s : State) (c : Nat) (f : Strand → Strand) : (s.modStrand c f).press = s.press := rfl
@[simp] theorem State.modStrand_boot (s : State) (c : Nat) (f : Strand → Strand) : (s.modStrand c f).boot = s.boot := rfl
@[simp] theorem State.modStrand_cfg (s : State) (c : Nat) (f : Strand → Strand) : (s.modStrand c f).cfg = s.cfg := rfl
@[simp] theorem State.modStrand_commanded (s : State) (c : Nat) (f : Strand → Strand) : (s.modStrand c f).commanded = s.commanded := rfl
@[simp] theorem State.modStrand_priFailed (s : State) (c : Nat) (f : Strand → Strand) : (s.modStrand c f).priFailed = s.priFailed := rfl
@[simp] theorem State.modStrand_answer (s : State) (c : Nat) (f : Strand → Strand) : (s.modStrand c f).answer = s.answer := rfl
@[simp] theorem State.modStrand_l2 (s : State) (c : Nat) (f : Strand → Strand) : (s.modStrand c f).l2 = s.l2 := rfl

/-! ## modPath -/

@[simp] theorem State.modPath_time (s : State) (c w : Nat) (alt : Bool) (f : Path → Path) : (s.modPath c w alt f).time = s.time := rfl
@[simp] theorem State.modPath_mem (s : State) (c w : Nat) (alt : Bool) (f : Path → Path) : (s.modPath c w alt f).mem = s.mem := rfl
@[simp] theorem State.modPath_ctl (s : State) (c w : Nat) (alt : Bool) (f : Path → Path) : (s.modPath c w alt f).ctl = s.ctl := rfl
@[simp] theorem State.modPath_sel (s : State) (c w : Nat) (alt : Bool) (f : Path → Path) : (s.modPath c w alt f).sel = s.sel := rfl
@[simp] theorem State.modPath_inbox (s : State) (c w : Nat) (alt : Bool) (f : Path → Path) : (s.modPath c w alt f).inbox = s.inbox := rfl
@[simp] theorem State.modPath_nonce (s : State) (c w : Nat) (alt : Bool) (f : Path → Path) : (s.modPath c w alt f).nonce = s.nonce := rfl
@[simp] theorem State.modPath_slices (s : State) (c w : Nat) (alt : Bool) (f : Path → Path) : (s.modPath c w alt f).slices = s.slices := rfl
@[simp] theorem State.modPath_qtlb (s : State) (c w : Nat) (alt : Bool) (f : Path → Path) : (s.modPath c w alt f).qtlb = s.qtlb := rfl
@[simp] theorem State.modPath_wcache (s : State) (c w : Nat) (alt : Bool) (f : Path → Path) : (s.modPath c w alt f).wcache = s.wcache := rfl
@[simp] theorem State.modPath_invals (s : State) (c w : Nat) (alt : Bool) (f : Path → Path) : (s.modPath c w alt f).invals = s.invals := rfl
@[simp] theorem State.modPath_kettles (s : State) (c w : Nat) (alt : Bool) (f : Path → Path) : (s.modPath c w alt f).kettles = s.kettles := rfl
@[simp] theorem State.modPath_grids (s : State) (c w : Nat) (alt : Bool) (f : Path → Path) : (s.modPath c w alt f).grids = s.grids := rfl
@[simp] theorem State.modPath_nextGrid (s : State) (c w : Nat) (alt : Bool) (f : Path → Path) : (s.modPath c w alt f).nextGrid = s.nextGrid := rfl
@[simp] theorem State.modPath_admits (s : State) (c w : Nat) (alt : Bool) (f : Path → Path) : (s.modPath c w alt f).admits = s.admits := rfl
@[simp] theorem State.modPath_stuck (s : State) (c w : Nat) (alt : Bool) (f : Path → Path) : (s.modPath c w alt f).stuck = s.stuck := rfl
@[simp] theorem State.modPath_waiting (s : State) (c w : Nat) (alt : Bool) (f : Path → Path) : (s.modPath c w alt f).waiting = s.waiting := rfl
@[simp] theorem State.modPath_tickets (s : State) (c w : Nat) (alt : Bool) (f : Path → Path) : (s.modPath c w alt f).tickets = s.tickets := rfl
@[simp] theorem State.modPath_qsubs (s : State) (c w : Nat) (alt : Bool) (f : Path → Path) : (s.modPath c w alt f).qsubs = s.qsubs := rfl
@[simp] theorem State.modPath_irqs (s : State) (c w : Nat) (alt : Bool) (f : Path → Path) : (s.modPath c w alt f).irqs = s.irqs := rfl
@[simp] theorem State.modPath_hb (s : State) (c w : Nat) (alt : Bool) (f : Path → Path) : (s.modPath c w alt f).hb = s.hb := rfl
@[simp] theorem State.modPath_rings (s : State) (c w : Nat) (alt : Bool) (f : Path → Path) : (s.modPath c w alt f).rings = s.rings := rfl
@[simp] theorem State.modPath_slew (s : State) (c w : Nat) (alt : Bool) (f : Path → Path) : (s.modPath c w alt f).slew = s.slew := rfl
@[simp] theorem State.modPath_slewTick (s : State) (c w : Nat) (alt : Bool) (f : Path → Path) : (s.modPath c w alt f).slewTick = s.slewTick := rfl
@[simp] theorem State.modPath_slewEff (s : State) (c w : Nat) (alt : Bool) (f : Path → Path) : (s.modPath c w alt f).slewEff = s.slewEff := rfl
@[simp] theorem State.modPath_press (s : State) (c w : Nat) (alt : Bool) (f : Path → Path) : (s.modPath c w alt f).press = s.press := rfl
@[simp] theorem State.modPath_boot (s : State) (c w : Nat) (alt : Bool) (f : Path → Path) : (s.modPath c w alt f).boot = s.boot := rfl
@[simp] theorem State.modPath_cfg (s : State) (c w : Nat) (alt : Bool) (f : Path → Path) : (s.modPath c w alt f).cfg = s.cfg := rfl
@[simp] theorem State.modPath_commanded (s : State) (c w : Nat) (alt : Bool) (f : Path → Path) : (s.modPath c w alt f).commanded = s.commanded := rfl
@[simp] theorem State.modPath_priFailed (s : State) (c w : Nat) (alt : Bool) (f : Path → Path) : (s.modPath c w alt f).priFailed = s.priFailed := rfl
@[simp] theorem State.modPath_answer (s : State) (c w : Nat) (alt : Bool) (f : Path → Path) : (s.modPath c w alt f).answer = s.answer := rfl
@[simp] theorem State.modPath_l2 (s : State) (c w : Nat) (alt : Bool) (f : Path → Path) : (s.modPath c w alt f).l2 = s.l2 := rfl

/-! ## progress -/

@[simp] theorem State.progress_time (s : State) (c : Nat) : (s.progress c).time = s.time := rfl
@[simp] theorem State.progress_mem (s : State) (c : Nat) : (s.progress c).mem = s.mem := rfl
@[simp] theorem State.progress_ctl (s : State) (c : Nat) : (s.progress c).ctl = s.ctl := rfl
@[simp] theorem State.progress_sel (s : State) (c : Nat) : (s.progress c).sel = s.sel := rfl
@[simp] theorem State.progress_inbox (s : State) (c : Nat) : (s.progress c).inbox = s.inbox := rfl
@[simp] theorem State.progress_nonce (s : State) (c : Nat) : (s.progress c).nonce = s.nonce := rfl
@[simp] theorem State.progress_slices (s : State) (c : Nat) : (s.progress c).slices = s.slices := rfl
@[simp] theorem State.progress_qtlb (s : State) (c : Nat) : (s.progress c).qtlb = s.qtlb := rfl
@[simp] theorem State.progress_wcache (s : State) (c : Nat) : (s.progress c).wcache = s.wcache := rfl
@[simp] theorem State.progress_invals (s : State) (c : Nat) : (s.progress c).invals = s.invals := rfl
@[simp] theorem State.progress_kettles (s : State) (c : Nat) : (s.progress c).kettles = s.kettles := rfl
@[simp] theorem State.progress_grids (s : State) (c : Nat) : (s.progress c).grids = s.grids := rfl
@[simp] theorem State.progress_nextGrid (s : State) (c : Nat) : (s.progress c).nextGrid = s.nextGrid := rfl
@[simp] theorem State.progress_admits (s : State) (c : Nat) : (s.progress c).admits = s.admits := rfl
@[simp] theorem State.progress_stuck (s : State) (c : Nat) : (s.progress c).stuck = s.stuck := rfl
@[simp] theorem State.progress_waiting (s : State) (c : Nat) : (s.progress c).waiting = s.waiting := rfl
@[simp] theorem State.progress_tickets (s : State) (c : Nat) : (s.progress c).tickets = s.tickets := rfl
@[simp] theorem State.progress_qsubs (s : State) (c : Nat) : (s.progress c).qsubs = s.qsubs := rfl
@[simp] theorem State.progress_irqs (s : State) (c : Nat) : (s.progress c).irqs = s.irqs := rfl
@[simp] theorem State.progress_hb (s : State) (c : Nat) : (s.progress c).hb = s.hb := rfl
@[simp] theorem State.progress_rings (s : State) (c : Nat) : (s.progress c).rings = s.rings := rfl
@[simp] theorem State.progress_slew (s : State) (c : Nat) : (s.progress c).slew = s.slew := rfl
@[simp] theorem State.progress_slewTick (s : State) (c : Nat) : (s.progress c).slewTick = s.slewTick := rfl
@[simp] theorem State.progress_slewEff (s : State) (c : Nat) : (s.progress c).slewEff = s.slewEff := rfl
@[simp] theorem State.progress_press (s : State) (c : Nat) : (s.progress c).press = s.press := rfl
@[simp] theorem State.progress_boot (s : State) (c : Nat) : (s.progress c).boot = s.boot := rfl
@[simp] theorem State.progress_cfg (s : State) (c : Nat) : (s.progress c).cfg = s.cfg := rfl
@[simp] theorem State.progress_commanded (s : State) (c : Nat) : (s.progress c).commanded = s.commanded := rfl
@[simp] theorem State.progress_priFailed (s : State) (c : Nat) : (s.progress c).priFailed = s.priFailed := rfl
@[simp] theorem State.progress_answer (s : State) (c : Nat) : (s.progress c).answer = s.answer := rfl
@[simp] theorem State.progress_l2 (s : State) (c : Nat) : (s.progress c).l2 = s.l2 := rfl

/-! ## tickNonce -/

@[simp] theorem State.tickNonce_time (s : State) : (s.tickNonce).time = s.time := rfl
@[simp] theorem State.tickNonce_mem (s : State) : (s.tickNonce).mem = s.mem := rfl
@[simp] theorem State.tickNonce_ctl (s : State) : (s.tickNonce).ctl = s.ctl := rfl
@[simp] theorem State.tickNonce_cores (s : State) : (s.tickNonce).cores = s.cores := rfl
@[simp] theorem State.tickNonce_sel (s : State) : (s.tickNonce).sel = s.sel := rfl
@[simp] theorem State.tickNonce_inbox (s : State) : (s.tickNonce).inbox = s.inbox := rfl
@[simp] theorem State.tickNonce_slices (s : State) : (s.tickNonce).slices = s.slices := rfl
@[simp] theorem State.tickNonce_qtlb (s : State) : (s.tickNonce).qtlb = s.qtlb := rfl
@[simp] theorem State.tickNonce_wcache (s : State) : (s.tickNonce).wcache = s.wcache := rfl
@[simp] theorem State.tickNonce_invals (s : State) : (s.tickNonce).invals = s.invals := rfl
@[simp] theorem State.tickNonce_kettles (s : State) : (s.tickNonce).kettles = s.kettles := rfl
@[simp] theorem State.tickNonce_grids (s : State) : (s.tickNonce).grids = s.grids := rfl
@[simp] theorem State.tickNonce_nextGrid (s : State) : (s.tickNonce).nextGrid = s.nextGrid := rfl
@[simp] theorem State.tickNonce_admits (s : State) : (s.tickNonce).admits = s.admits := rfl
@[simp] theorem State.tickNonce_stuck (s : State) : (s.tickNonce).stuck = s.stuck := rfl
@[simp] theorem State.tickNonce_waiting (s : State) : (s.tickNonce).waiting = s.waiting := rfl
@[simp] theorem State.tickNonce_tickets (s : State) : (s.tickNonce).tickets = s.tickets := rfl
@[simp] theorem State.tickNonce_qsubs (s : State) : (s.tickNonce).qsubs = s.qsubs := rfl
@[simp] theorem State.tickNonce_irqs (s : State) : (s.tickNonce).irqs = s.irqs := rfl
@[simp] theorem State.tickNonce_hb (s : State) : (s.tickNonce).hb = s.hb := rfl
@[simp] theorem State.tickNonce_rings (s : State) : (s.tickNonce).rings = s.rings := rfl
@[simp] theorem State.tickNonce_slew (s : State) : (s.tickNonce).slew = s.slew := rfl
@[simp] theorem State.tickNonce_slewTick (s : State) : (s.tickNonce).slewTick = s.slewTick := rfl
@[simp] theorem State.tickNonce_slewEff (s : State) : (s.tickNonce).slewEff = s.slewEff := rfl
@[simp] theorem State.tickNonce_press (s : State) : (s.tickNonce).press = s.press := rfl
@[simp] theorem State.tickNonce_boot (s : State) : (s.tickNonce).boot = s.boot := rfl
@[simp] theorem State.tickNonce_cfg (s : State) : (s.tickNonce).cfg = s.cfg := rfl
@[simp] theorem State.tickNonce_commanded (s : State) : (s.tickNonce).commanded = s.commanded := rfl
@[simp] theorem State.tickNonce_priFailed (s : State) : (s.tickNonce).priFailed = s.priFailed := rfl
@[simp] theorem State.tickNonce_answer (s : State) : (s.tickNonce).answer = s.answer := rfl
@[simp] theorem State.tickNonce_l2 (s : State) : (s.tickNonce).l2 = s.l2 := rfl

/-! ## write -/

@[simp] theorem State.write_time (s : State) (a : Nat) (b : List Byte) : (s.write a b).time = s.time := rfl
@[simp] theorem State.write_ctl (s : State) (a : Nat) (b : List Byte) : (s.write a b).ctl = s.ctl := rfl
@[simp] theorem State.write_cores (s : State) (a : Nat) (b : List Byte) : (s.write a b).cores = s.cores := rfl
@[simp] theorem State.write_sel (s : State) (a : Nat) (b : List Byte) : (s.write a b).sel = s.sel := rfl
@[simp] theorem State.write_inbox (s : State) (a : Nat) (b : List Byte) : (s.write a b).inbox = s.inbox := rfl
@[simp] theorem State.write_nonce (s : State) (a : Nat) (b : List Byte) : (s.write a b).nonce = s.nonce := rfl
@[simp] theorem State.write_slices (s : State) (a : Nat) (b : List Byte) : (s.write a b).slices = s.slices := rfl
@[simp] theorem State.write_qtlb (s : State) (a : Nat) (b : List Byte) : (s.write a b).qtlb = s.qtlb := rfl
@[simp] theorem State.write_wcache (s : State) (a : Nat) (b : List Byte) : (s.write a b).wcache = s.wcache := rfl
@[simp] theorem State.write_invals (s : State) (a : Nat) (b : List Byte) : (s.write a b).invals = s.invals := rfl
@[simp] theorem State.write_kettles (s : State) (a : Nat) (b : List Byte) : (s.write a b).kettles = s.kettles := rfl
@[simp] theorem State.write_grids (s : State) (a : Nat) (b : List Byte) : (s.write a b).grids = s.grids := rfl
@[simp] theorem State.write_nextGrid (s : State) (a : Nat) (b : List Byte) : (s.write a b).nextGrid = s.nextGrid := rfl
@[simp] theorem State.write_admits (s : State) (a : Nat) (b : List Byte) : (s.write a b).admits = s.admits := rfl
@[simp] theorem State.write_stuck (s : State) (a : Nat) (b : List Byte) : (s.write a b).stuck = s.stuck := rfl
@[simp] theorem State.write_waiting (s : State) (a : Nat) (b : List Byte) : (s.write a b).waiting = s.waiting := rfl
@[simp] theorem State.write_tickets (s : State) (a : Nat) (b : List Byte) : (s.write a b).tickets = s.tickets := rfl
@[simp] theorem State.write_qsubs (s : State) (a : Nat) (b : List Byte) : (s.write a b).qsubs = s.qsubs := rfl
@[simp] theorem State.write_irqs (s : State) (a : Nat) (b : List Byte) : (s.write a b).irqs = s.irqs := rfl
@[simp] theorem State.write_hb (s : State) (a : Nat) (b : List Byte) : (s.write a b).hb = s.hb := rfl
@[simp] theorem State.write_rings (s : State) (a : Nat) (b : List Byte) : (s.write a b).rings = s.rings := rfl
@[simp] theorem State.write_slew (s : State) (a : Nat) (b : List Byte) : (s.write a b).slew = s.slew := rfl
@[simp] theorem State.write_slewTick (s : State) (a : Nat) (b : List Byte) : (s.write a b).slewTick = s.slewTick := rfl
@[simp] theorem State.write_slewEff (s : State) (a : Nat) (b : List Byte) : (s.write a b).slewEff = s.slewEff := rfl
@[simp] theorem State.write_press (s : State) (a : Nat) (b : List Byte) : (s.write a b).press = s.press := rfl
@[simp] theorem State.write_boot (s : State) (a : Nat) (b : List Byte) : (s.write a b).boot = s.boot := rfl
@[simp] theorem State.write_cfg (s : State) (a : Nat) (b : List Byte) : (s.write a b).cfg = s.cfg := rfl
@[simp] theorem State.write_commanded (s : State) (a : Nat) (b : List Byte) : (s.write a b).commanded = s.commanded := rfl
@[simp] theorem State.write_priFailed (s : State) (a : Nat) (b : List Byte) : (s.write a b).priFailed = s.priFailed := rfl
@[simp] theorem State.write_answer (s : State) (a : Nat) (b : List Byte) : (s.write a b).answer = s.answer := rfl
@[simp] theorem State.write_l2 (s : State) (a : Nat) (b : List Byte) : (s.write a b).l2 = s.l2 := rfl

/-! ## setCtl -/

@[simp] theorem State.setCtl_time (s : State) (off : Nat) (v : W32) : (s.setCtl off v).time = s.time := rfl
@[simp] theorem State.setCtl_mem (s : State) (off : Nat) (v : W32) : (s.setCtl off v).mem = s.mem := rfl
@[simp] theorem State.setCtl_cores (s : State) (off : Nat) (v : W32) : (s.setCtl off v).cores = s.cores := rfl
@[simp] theorem State.setCtl_sel (s : State) (off : Nat) (v : W32) : (s.setCtl off v).sel = s.sel := rfl
@[simp] theorem State.setCtl_inbox (s : State) (off : Nat) (v : W32) : (s.setCtl off v).inbox = s.inbox := rfl
@[simp] theorem State.setCtl_nonce (s : State) (off : Nat) (v : W32) : (s.setCtl off v).nonce = s.nonce := rfl
@[simp] theorem State.setCtl_slices (s : State) (off : Nat) (v : W32) : (s.setCtl off v).slices = s.slices := rfl
@[simp] theorem State.setCtl_qtlb (s : State) (off : Nat) (v : W32) : (s.setCtl off v).qtlb = s.qtlb := rfl
@[simp] theorem State.setCtl_wcache (s : State) (off : Nat) (v : W32) : (s.setCtl off v).wcache = s.wcache := rfl
@[simp] theorem State.setCtl_invals (s : State) (off : Nat) (v : W32) : (s.setCtl off v).invals = s.invals := rfl
@[simp] theorem State.setCtl_kettles (s : State) (off : Nat) (v : W32) : (s.setCtl off v).kettles = s.kettles := rfl
@[simp] theorem State.setCtl_grids (s : State) (off : Nat) (v : W32) : (s.setCtl off v).grids = s.grids := rfl
@[simp] theorem State.setCtl_nextGrid (s : State) (off : Nat) (v : W32) : (s.setCtl off v).nextGrid = s.nextGrid := rfl
@[simp] theorem State.setCtl_admits (s : State) (off : Nat) (v : W32) : (s.setCtl off v).admits = s.admits := rfl
@[simp] theorem State.setCtl_stuck (s : State) (off : Nat) (v : W32) : (s.setCtl off v).stuck = s.stuck := rfl
@[simp] theorem State.setCtl_waiting (s : State) (off : Nat) (v : W32) : (s.setCtl off v).waiting = s.waiting := rfl
@[simp] theorem State.setCtl_tickets (s : State) (off : Nat) (v : W32) : (s.setCtl off v).tickets = s.tickets := rfl
@[simp] theorem State.setCtl_qsubs (s : State) (off : Nat) (v : W32) : (s.setCtl off v).qsubs = s.qsubs := rfl
@[simp] theorem State.setCtl_irqs (s : State) (off : Nat) (v : W32) : (s.setCtl off v).irqs = s.irqs := rfl
@[simp] theorem State.setCtl_hb (s : State) (off : Nat) (v : W32) : (s.setCtl off v).hb = s.hb := rfl
@[simp] theorem State.setCtl_rings (s : State) (off : Nat) (v : W32) : (s.setCtl off v).rings = s.rings := rfl
@[simp] theorem State.setCtl_slew (s : State) (off : Nat) (v : W32) : (s.setCtl off v).slew = s.slew := rfl
@[simp] theorem State.setCtl_slewTick (s : State) (off : Nat) (v : W32) : (s.setCtl off v).slewTick = s.slewTick := rfl
@[simp] theorem State.setCtl_slewEff (s : State) (off : Nat) (v : W32) : (s.setCtl off v).slewEff = s.slewEff := rfl
@[simp] theorem State.setCtl_press (s : State) (off : Nat) (v : W32) : (s.setCtl off v).press = s.press := rfl
@[simp] theorem State.setCtl_boot (s : State) (off : Nat) (v : W32) : (s.setCtl off v).boot = s.boot := rfl
@[simp] theorem State.setCtl_cfg (s : State) (off : Nat) (v : W32) : (s.setCtl off v).cfg = s.cfg := rfl
@[simp] theorem State.setCtl_commanded (s : State) (off : Nat) (v : W32) : (s.setCtl off v).commanded = s.commanded := rfl
@[simp] theorem State.setCtl_priFailed (s : State) (off : Nat) (v : W32) : (s.setCtl off v).priFailed = s.priFailed := rfl
@[simp] theorem State.setCtl_answer (s : State) (off : Nat) (v : W32) : (s.setCtl off v).answer = s.answer := rfl
@[simp] theorem State.setCtl_l2 (s : State) (off : Nat) (v : W32) : (s.setCtl off v).l2 = s.l2 := rfl

/-! ## setCtl64 -/

@[simp] theorem State.setCtl64_time (s : State) (off : Nat) (v : W64) : (s.setCtl64 off v).time = s.time := rfl
@[simp] theorem State.setCtl64_mem (s : State) (off : Nat) (v : W64) : (s.setCtl64 off v).mem = s.mem := rfl
@[simp] theorem State.setCtl64_cores (s : State) (off : Nat) (v : W64) : (s.setCtl64 off v).cores = s.cores := rfl
@[simp] theorem State.setCtl64_sel (s : State) (off : Nat) (v : W64) : (s.setCtl64 off v).sel = s.sel := rfl
@[simp] theorem State.setCtl64_inbox (s : State) (off : Nat) (v : W64) : (s.setCtl64 off v).inbox = s.inbox := rfl
@[simp] theorem State.setCtl64_nonce (s : State) (off : Nat) (v : W64) : (s.setCtl64 off v).nonce = s.nonce := rfl
@[simp] theorem State.setCtl64_slices (s : State) (off : Nat) (v : W64) : (s.setCtl64 off v).slices = s.slices := rfl
@[simp] theorem State.setCtl64_qtlb (s : State) (off : Nat) (v : W64) : (s.setCtl64 off v).qtlb = s.qtlb := rfl
@[simp] theorem State.setCtl64_wcache (s : State) (off : Nat) (v : W64) : (s.setCtl64 off v).wcache = s.wcache := rfl
@[simp] theorem State.setCtl64_invals (s : State) (off : Nat) (v : W64) : (s.setCtl64 off v).invals = s.invals := rfl
@[simp] theorem State.setCtl64_kettles (s : State) (off : Nat) (v : W64) : (s.setCtl64 off v).kettles = s.kettles := rfl
@[simp] theorem State.setCtl64_grids (s : State) (off : Nat) (v : W64) : (s.setCtl64 off v).grids = s.grids := rfl
@[simp] theorem State.setCtl64_nextGrid (s : State) (off : Nat) (v : W64) : (s.setCtl64 off v).nextGrid = s.nextGrid := rfl
@[simp] theorem State.setCtl64_admits (s : State) (off : Nat) (v : W64) : (s.setCtl64 off v).admits = s.admits := rfl
@[simp] theorem State.setCtl64_stuck (s : State) (off : Nat) (v : W64) : (s.setCtl64 off v).stuck = s.stuck := rfl
@[simp] theorem State.setCtl64_waiting (s : State) (off : Nat) (v : W64) : (s.setCtl64 off v).waiting = s.waiting := rfl
@[simp] theorem State.setCtl64_tickets (s : State) (off : Nat) (v : W64) : (s.setCtl64 off v).tickets = s.tickets := rfl
@[simp] theorem State.setCtl64_qsubs (s : State) (off : Nat) (v : W64) : (s.setCtl64 off v).qsubs = s.qsubs := rfl
@[simp] theorem State.setCtl64_irqs (s : State) (off : Nat) (v : W64) : (s.setCtl64 off v).irqs = s.irqs := rfl
@[simp] theorem State.setCtl64_hb (s : State) (off : Nat) (v : W64) : (s.setCtl64 off v).hb = s.hb := rfl
@[simp] theorem State.setCtl64_rings (s : State) (off : Nat) (v : W64) : (s.setCtl64 off v).rings = s.rings := rfl
@[simp] theorem State.setCtl64_slew (s : State) (off : Nat) (v : W64) : (s.setCtl64 off v).slew = s.slew := rfl
@[simp] theorem State.setCtl64_slewTick (s : State) (off : Nat) (v : W64) : (s.setCtl64 off v).slewTick = s.slewTick := rfl
@[simp] theorem State.setCtl64_slewEff (s : State) (off : Nat) (v : W64) : (s.setCtl64 off v).slewEff = s.slewEff := rfl
@[simp] theorem State.setCtl64_press (s : State) (off : Nat) (v : W64) : (s.setCtl64 off v).press = s.press := rfl
@[simp] theorem State.setCtl64_boot (s : State) (off : Nat) (v : W64) : (s.setCtl64 off v).boot = s.boot := rfl
@[simp] theorem State.setCtl64_cfg (s : State) (off : Nat) (v : W64) : (s.setCtl64 off v).cfg = s.cfg := rfl
@[simp] theorem State.setCtl64_commanded (s : State) (off : Nat) (v : W64) : (s.setCtl64 off v).commanded = s.commanded := rfl
@[simp] theorem State.setCtl64_priFailed (s : State) (off : Nat) (v : W64) : (s.setCtl64 off v).priFailed = s.priFailed := rfl
@[simp] theorem State.setCtl64_answer (s : State) (off : Nat) (v : W64) : (s.setCtl64 off v).answer = s.answer := rfl
@[simp] theorem State.setCtl64_l2 (s : State) (off : Nat) (v : W64) : (s.setCtl64 off v).l2 = s.l2 := rfl

/-! ## endpaper -/

@[simp] theorem State.endpaper_time (s : State) (q code src a1 a2 a3 : Nat) : (s.endpaper q code src a1 a2 a3).time = s.time := rfl
@[simp] theorem State.endpaper_mem (s : State) (q code src a1 a2 a3 : Nat) : (s.endpaper q code src a1 a2 a3).mem = s.mem := rfl
@[simp] theorem State.endpaper_ctl (s : State) (q code src a1 a2 a3 : Nat) : (s.endpaper q code src a1 a2 a3).ctl = s.ctl := rfl
@[simp] theorem State.endpaper_cores (s : State) (q code src a1 a2 a3 : Nat) : (s.endpaper q code src a1 a2 a3).cores = s.cores := rfl
@[simp] theorem State.endpaper_sel (s : State) (q code src a1 a2 a3 : Nat) : (s.endpaper q code src a1 a2 a3).sel = s.sel := rfl
@[simp] theorem State.endpaper_inbox (s : State) (q code src a1 a2 a3 : Nat) : (s.endpaper q code src a1 a2 a3).inbox = s.inbox := rfl
@[simp] theorem State.endpaper_nonce (s : State) (q code src a1 a2 a3 : Nat) : (s.endpaper q code src a1 a2 a3).nonce = s.nonce := rfl
@[simp] theorem State.endpaper_slices (s : State) (q code src a1 a2 a3 : Nat) : (s.endpaper q code src a1 a2 a3).slices = s.slices := rfl
@[simp] theorem State.endpaper_qtlb (s : State) (q code src a1 a2 a3 : Nat) : (s.endpaper q code src a1 a2 a3).qtlb = s.qtlb := rfl
@[simp] theorem State.endpaper_wcache (s : State) (q code src a1 a2 a3 : Nat) : (s.endpaper q code src a1 a2 a3).wcache = s.wcache := rfl
@[simp] theorem State.endpaper_invals (s : State) (q code src a1 a2 a3 : Nat) : (s.endpaper q code src a1 a2 a3).invals = s.invals := rfl
@[simp] theorem State.endpaper_kettles (s : State) (q code src a1 a2 a3 : Nat) : (s.endpaper q code src a1 a2 a3).kettles = s.kettles := rfl
@[simp] theorem State.endpaper_grids (s : State) (q code src a1 a2 a3 : Nat) : (s.endpaper q code src a1 a2 a3).grids = s.grids := rfl
@[simp] theorem State.endpaper_nextGrid (s : State) (q code src a1 a2 a3 : Nat) : (s.endpaper q code src a1 a2 a3).nextGrid = s.nextGrid := rfl
@[simp] theorem State.endpaper_admits (s : State) (q code src a1 a2 a3 : Nat) : (s.endpaper q code src a1 a2 a3).admits = s.admits := rfl
@[simp] theorem State.endpaper_stuck (s : State) (q code src a1 a2 a3 : Nat) : (s.endpaper q code src a1 a2 a3).stuck = s.stuck := rfl
@[simp] theorem State.endpaper_waiting (s : State) (q code src a1 a2 a3 : Nat) : (s.endpaper q code src a1 a2 a3).waiting = s.waiting := rfl
@[simp] theorem State.endpaper_tickets (s : State) (q code src a1 a2 a3 : Nat) : (s.endpaper q code src a1 a2 a3).tickets = s.tickets := rfl
@[simp] theorem State.endpaper_qsubs (s : State) (q code src a1 a2 a3 : Nat) : (s.endpaper q code src a1 a2 a3).qsubs = s.qsubs := rfl
@[simp] theorem State.endpaper_irqs (s : State) (q code src a1 a2 a3 : Nat) : (s.endpaper q code src a1 a2 a3).irqs = s.irqs := rfl
@[simp] theorem State.endpaper_hb (s : State) (q code src a1 a2 a3 : Nat) : (s.endpaper q code src a1 a2 a3).hb = s.hb := rfl
@[simp] theorem State.endpaper_slew (s : State) (q code src a1 a2 a3 : Nat) : (s.endpaper q code src a1 a2 a3).slew = s.slew := rfl
@[simp] theorem State.endpaper_slewTick (s : State) (q code src a1 a2 a3 : Nat) : (s.endpaper q code src a1 a2 a3).slewTick = s.slewTick := rfl
@[simp] theorem State.endpaper_slewEff (s : State) (q code src a1 a2 a3 : Nat) : (s.endpaper q code src a1 a2 a3).slewEff = s.slewEff := rfl
@[simp] theorem State.endpaper_press (s : State) (q code src a1 a2 a3 : Nat) : (s.endpaper q code src a1 a2 a3).press = s.press := rfl
@[simp] theorem State.endpaper_boot (s : State) (q code src a1 a2 a3 : Nat) : (s.endpaper q code src a1 a2 a3).boot = s.boot := rfl
@[simp] theorem State.endpaper_cfg (s : State) (q code src a1 a2 a3 : Nat) : (s.endpaper q code src a1 a2 a3).cfg = s.cfg := rfl
@[simp] theorem State.endpaper_commanded (s : State) (q code src a1 a2 a3 : Nat) : (s.endpaper q code src a1 a2 a3).commanded = s.commanded := rfl
@[simp] theorem State.endpaper_priFailed (s : State) (q code src a1 a2 a3 : Nat) : (s.endpaper q code src a1 a2 a3).priFailed = s.priFailed := rfl
@[simp] theorem State.endpaper_answer (s : State) (q code src a1 a2 a3 : Nat) : (s.endpaper q code src a1 a2 a3).answer = s.answer := rfl
@[simp] theorem State.endpaper_l2 (s : State) (q code src a1 a2 a3 : Nat) : (s.endpaper q code src a1 a2 a3).l2 = s.l2 := rfl

/-! ## scratchPut -/

@[simp] theorem State.scratchPut_time (s : State) (c r off : Nat) (b : List Byte) : (s.scratchPut c r off b).time = s.time := rfl
@[simp] theorem State.scratchPut_mem (s : State) (c r off : Nat) (b : List Byte) : (s.scratchPut c r off b).mem = s.mem := rfl
@[simp] theorem State.scratchPut_ctl (s : State) (c r off : Nat) (b : List Byte) : (s.scratchPut c r off b).ctl = s.ctl := rfl
@[simp] theorem State.scratchPut_sel (s : State) (c r off : Nat) (b : List Byte) : (s.scratchPut c r off b).sel = s.sel := rfl
@[simp] theorem State.scratchPut_inbox (s : State) (c r off : Nat) (b : List Byte) : (s.scratchPut c r off b).inbox = s.inbox := rfl
@[simp] theorem State.scratchPut_nonce (s : State) (c r off : Nat) (b : List Byte) : (s.scratchPut c r off b).nonce = s.nonce := rfl
@[simp] theorem State.scratchPut_slices (s : State) (c r off : Nat) (b : List Byte) : (s.scratchPut c r off b).slices = s.slices := rfl
@[simp] theorem State.scratchPut_qtlb (s : State) (c r off : Nat) (b : List Byte) : (s.scratchPut c r off b).qtlb = s.qtlb := rfl
@[simp] theorem State.scratchPut_wcache (s : State) (c r off : Nat) (b : List Byte) : (s.scratchPut c r off b).wcache = s.wcache := rfl
@[simp] theorem State.scratchPut_invals (s : State) (c r off : Nat) (b : List Byte) : (s.scratchPut c r off b).invals = s.invals := rfl
@[simp] theorem State.scratchPut_kettles (s : State) (c r off : Nat) (b : List Byte) : (s.scratchPut c r off b).kettles = s.kettles := rfl
@[simp] theorem State.scratchPut_grids (s : State) (c r off : Nat) (b : List Byte) : (s.scratchPut c r off b).grids = s.grids := rfl
@[simp] theorem State.scratchPut_nextGrid (s : State) (c r off : Nat) (b : List Byte) : (s.scratchPut c r off b).nextGrid = s.nextGrid := rfl
@[simp] theorem State.scratchPut_admits (s : State) (c r off : Nat) (b : List Byte) : (s.scratchPut c r off b).admits = s.admits := rfl
@[simp] theorem State.scratchPut_stuck (s : State) (c r off : Nat) (b : List Byte) : (s.scratchPut c r off b).stuck = s.stuck := rfl
@[simp] theorem State.scratchPut_waiting (s : State) (c r off : Nat) (b : List Byte) : (s.scratchPut c r off b).waiting = s.waiting := rfl
@[simp] theorem State.scratchPut_tickets (s : State) (c r off : Nat) (b : List Byte) : (s.scratchPut c r off b).tickets = s.tickets := rfl
@[simp] theorem State.scratchPut_qsubs (s : State) (c r off : Nat) (b : List Byte) : (s.scratchPut c r off b).qsubs = s.qsubs := rfl
@[simp] theorem State.scratchPut_irqs (s : State) (c r off : Nat) (b : List Byte) : (s.scratchPut c r off b).irqs = s.irqs := rfl
@[simp] theorem State.scratchPut_hb (s : State) (c r off : Nat) (b : List Byte) : (s.scratchPut c r off b).hb = s.hb := rfl
@[simp] theorem State.scratchPut_rings (s : State) (c r off : Nat) (b : List Byte) : (s.scratchPut c r off b).rings = s.rings := rfl
@[simp] theorem State.scratchPut_slew (s : State) (c r off : Nat) (b : List Byte) : (s.scratchPut c r off b).slew = s.slew := rfl
@[simp] theorem State.scratchPut_slewTick (s : State) (c r off : Nat) (b : List Byte) : (s.scratchPut c r off b).slewTick = s.slewTick := rfl
@[simp] theorem State.scratchPut_slewEff (s : State) (c r off : Nat) (b : List Byte) : (s.scratchPut c r off b).slewEff = s.slewEff := rfl
@[simp] theorem State.scratchPut_press (s : State) (c r off : Nat) (b : List Byte) : (s.scratchPut c r off b).press = s.press := rfl
@[simp] theorem State.scratchPut_boot (s : State) (c r off : Nat) (b : List Byte) : (s.scratchPut c r off b).boot = s.boot := rfl
@[simp] theorem State.scratchPut_cfg (s : State) (c r off : Nat) (b : List Byte) : (s.scratchPut c r off b).cfg = s.cfg := rfl
@[simp] theorem State.scratchPut_commanded (s : State) (c r off : Nat) (b : List Byte) : (s.scratchPut c r off b).commanded = s.commanded := rfl
@[simp] theorem State.scratchPut_priFailed (s : State) (c r off : Nat) (b : List Byte) : (s.scratchPut c r off b).priFailed = s.priFailed := rfl
@[simp] theorem State.scratchPut_answer (s : State) (c r off : Nat) (b : List Byte) : (s.scratchPut c r off b).answer = s.answer := rfl
@[simp] theorem State.scratchPut_l2 (s : State) (c r off : Nat) (b : List Byte) : (s.scratchPut c r off b).l2 = s.l2 := rfl

/-! ## What an update reads as -/

@[simp] theorem State.tickNonce_nonce (s : State) : s.tickNonce.nonce = s.nonce + 1 := rfl
@[simp] theorem State.write_mem (s : State) (a : Nat) (b : List Byte) : (s.write a b).mem = SMap.setMany 0 s.mem a b := rfl
@[simp] theorem State.setCtl_ctl (s : State) (off : Nat) (v : W32) :
    (s.setCtl off v).ctl = SMap.set 0 s.ctl off (v ^^^ ctlReset off) := rfl

@[simp] theorem State.tickNonce_core (s : State) (c : Nat) : s.tickNonce.core c = s.core c := rfl
@[simp] theorem State.write_core (s : State) (a : Nat) (b : List Byte) (c : Nat) : (s.write a b).core c = s.core c := rfl
@[simp] theorem State.setCtl_core (s : State) (off : Nat) (v : W32) (c : Nat) : (s.setCtl off v).core c = s.core c := rfl
@[simp] theorem State.endpaper_core (s : State) (q code src a1 a2 a3 c : Nat) :
    (s.endpaper q code src a1 a2 a3).core c = s.core c := rfl

/-- The core that was put is read. -/
@[simp] theorem State.putCore_core (s : State) (c : Nat) (k : Core) : (s.putCore c k).core c = k := by
  simp [State.core, State.putCore, KMap.find?_put_same]

/-- Another core is as it was. -/
theorem State.putCore_core_other (s : State) (c d : Nat) (k : Core) (h : d ≠ c) : (s.putCore c k).core d = s.core d := by
  simp [State.core, State.putCore, KMap.find?_put_other _ _ _ _ h]

@[simp] theorem State.modCore_core (s : State) (c : Nat) (f : Core → Core) : (s.modCore c f).core c = f (s.core c) :=
  State.putCore_core s c _

theorem State.modCore_core_other (s : State) (c d : Nat) (f : Core → Core) (h : d ≠ c) :
    (s.modCore c f).core d = s.core d := State.putCore_core_other s c d _ h

@[simp] theorem State.modClock_core (s : State) (c : Nat) (f : Clock → Clock) :
    (s.modClock c f).core c = { s.core c with ck := f (s.core c).ck } := State.modCore_core s c _

theorem State.modClock_core_other (s : State) (c d : Nat) (f : Clock → Clock) (h : d ≠ c) :
    (s.modClock c f).core d = s.core d := State.modCore_core_other s c d _ h

@[simp] theorem State.modWarp_core (s : State) (c w : Nat) (f : Warp → Warp) :
    (s.modWarp c w f).core c = (s.core c).modWarp w f := State.modCore_core s c _

theorem State.modWarp_core_other (s : State) (c d w : Nat) (f : Warp → Warp) (h : d ≠ c) :
    (s.modWarp c w f).core d = s.core d := State.modCore_core_other s c d _ h

@[simp] theorem State.modBlock_core (s : State) (c r : Nat) (f : Block → Block) :
    (s.modBlock c r f).core c = (s.core c).modBlock r f := State.modCore_core s c _

theorem State.modBlock_core_other (s : State) (c d r : Nat) (f : Block → Block) (h : d ≠ c) :
    (s.modBlock c r f).core d = s.core d := State.modCore_core_other s c d _ h

@[simp] theorem State.modStrand_core (s : State) (c : Nat) (f : Strand → Strand) :
    (s.modStrand c f).core c = { s.core c with strand := (s.core c).strand.map f } := State.modCore_core s c _

theorem State.modStrand_core_other (s : State) (c d : Nat) (f : Strand → Strand) (h : d ≠ c) :
    (s.modStrand c f).core d = s.core d := State.modCore_core_other s c d _ h

theorem State.modPath_core_other (s : State) (c d w : Nat) (alt : Bool) (f : Path → Path) (h : d ≠ c) :
    (s.modPath c w alt f).core d = s.core d := State.modCore_core_other s c d _ h

/-- The warp that was changed is read changed. -/
@[simp] theorem Core.modWarp_find (k : Core) (w : Nat) (f : Warp → Warp) :
    (k.modWarp w f).warps.find? w = (k.warps.find? w).map f := by
  unfold Core.modWarp
  cases h : k.warps.find? w <;> simp [h, KMap.find?_put_same]

theorem Core.modWarp_find_other (k : Core) (w x : Nat) (f : Warp → Warp) (h : x ≠ w) :
    (k.modWarp w f).warps.find? x = k.warps.find? x := by
  unfold Core.modWarp
  cases k.warps.find? w <;> simp [KMap.find?_put_other _ _ _ _ h]

/-- The block that was changed is read changed. -/
@[simp] theorem Core.modBlock_find (k : Core) (r : Nat) (f : Block → Block) :
    (k.modBlock r f).blocks.find? r = (k.blocks.find? r).map f := by
  unfold Core.modBlock
  cases h : k.blocks.find? r <;> simp [h, KMap.find?_put_same]

theorem Core.modBlock_find_other (k : Core) (r x : Nat) (f : Block → Block) (h : x ≠ r) :
    (k.modBlock r f).blocks.find? x = k.blocks.find? x := by
  unfold Core.modBlock
  cases k.blocks.find? r <;> simp [KMap.find?_put_other _ _ _ _ h]

/-! ## What a change of a warp or a block leaves of its core -/

@[simp] theorem Core.modWarp_ck (k : Core) (w : Nat) (f : Warp → Warp) : (k.modWarp w f).ck = k.ck := by
  unfold Core.modWarp; split <;> rfl
@[simp] theorem Core.modWarp_gov (k : Core) (w : Nat) (f : Warp → Warp) : (k.modWarp w f).gov = k.gov := by
  unfold Core.modWarp; split <;> rfl
@[simp] theorem Core.modWarp_blocks (k : Core) (w : Nat) (f : Warp → Warp) : (k.modWarp w f).blocks = k.blocks := by
  unfold Core.modWarp; split <;> rfl
@[simp] theorem Core.modWarp_strand (k : Core) (w : Nat) (f : Warp → Warp) : (k.modWarp w f).strand = k.strand := by
  unfold Core.modWarp; split <;> rfl
@[simp] theorem Core.modWarp_placed (k : Core) (w : Nat) (f : Warp → Warp) : (k.modWarp w f).placed = k.placed := by
  unfold Core.modWarp; split <;> rfl
@[simp] theorem Core.modWarp_clasp (k : Core) (w : Nat) (f : Warp → Warp) : (k.modWarp w f).clasp = k.clasp := by
  unfold Core.modWarp; split <;> rfl
@[simp] theorem Core.modWarp_copy (k : Core) (w : Nat) (f : Warp → Warp) : (k.modWarp w f).copy = k.copy := by
  unfold Core.modWarp; split <;> rfl
@[simp] theorem Core.modWarp_corder (k : Core) (w : Nat) (f : Warp → Warp) : (k.modWarp w f).corder = k.corder := by
  unfold Core.modWarp; split <;> rfl
@[simp] theorem Core.modWarp_caccept (k : Core) (w : Nat) (f : Warp → Warp) : (k.modWarp w f).caccept = k.caccept := by
  unfold Core.modWarp; split <;> rfl
@[simp] theorem Core.modWarp_kfaults (k : Core) (w : Nat) (f : Warp → Warp) : (k.modWarp w f).kfaults = k.kfaults := by
  unfold Core.modWarp; split <;> rfl
@[simp] theorem Core.modWarp_kick (k : Core) (w : Nat) (f : Warp → Warp) : (k.modWarp w f).kick = k.kick := by
  unfold Core.modWarp; split <;> rfl
@[simp] theorem Core.modWarp_kickBy (k : Core) (w : Nat) (f : Warp → Warp) : (k.modWarp w f).kickBy = k.kickBy := by
  unfold Core.modWarp; split <;> rfl
@[simp] theorem Core.modWarp_mar (k : Core) (w : Nat) (f : Warp → Warp) : (k.modWarp w f).mar = k.mar := by
  unfold Core.modWarp; split <;> rfl
@[simp] theorem Core.modWarp_mx (k : Core) (w : Nat) (f : Warp → Warp) : (k.modWarp w f).mx = k.mx := by
  unfold Core.modWarp; split <;> rfl
@[simp] theorem Core.modWarp_l1 (k : Core) (w : Nat) (f : Warp → Warp) : (k.modWarp w f).l1 = k.l1 := by
  unfold Core.modWarp; split <;> rfl
@[simp] theorem Core.modWarp_wb (k : Core) (w : Nat) (f : Warp → Warp) : (k.modWarp w f).wb = k.wb := by
  unfold Core.modWarp; split <;> rfl
@[simp] theorem Core.modWarp_promo (k : Core) (w : Nat) (f : Warp → Warp) : (k.modWarp w f).promo = k.promo := by
  unfold Core.modWarp; split <;> rfl
@[simp] theorem Core.modWarp_remote (k : Core) (w : Nat) (f : Warp → Warp) : (k.modWarp w f).remote = k.remote := by
  unfold Core.modWarp; split <;> rfl
@[simp] theorem Core.modWarp_lpr (k : Core) (w : Nat) (f : Warp → Warp) : (k.modWarp w f).lpr = k.lpr := by
  unfold Core.modWarp; split <;> rfl
@[simp] theorem Core.modWarp_tlb (k : Core) (w : Nat) (f : Warp → Warp) : (k.modWarp w f).tlb = k.tlb := by
  unfold Core.modWarp; split <;> rfl
@[simp] theorem Core.modWarp_walks (k : Core) (w : Nat) (f : Warp → Warp) : (k.modWarp w f).walks = k.walks := by
  unfold Core.modWarp; split <;> rfl
@[simp] theorem Core.modWarp_xlates (k : Core) (w : Nat) (f : Warp → Warp) : (k.modWarp w f).xlates = k.xlates := by
  unfold Core.modWarp; split <;> rfl
@[simp] theorem Core.modWarp_faults (k : Core) (w : Nat) (f : Warp → Warp) : (k.modWarp w f).faults = k.faults := by
  unfold Core.modWarp; split <;> rfl
@[simp] theorem Core.modWarp_xport (k : Core) (w : Nat) (f : Warp → Warp) : (k.modWarp w f).xport = k.xport := by
  unfold Core.modWarp; split <;> rfl
@[simp] theorem Core.modWarp_domain (k : Core) (w : Nat) (f : Warp → Warp) : (k.modWarp w f).domain = k.domain := by
  unfold Core.modWarp; split <;> rfl
@[simp] theorem Core.modWarp_member (k : Core) (w : Nat) (f : Warp → Warp) : (k.modWarp w f).member = k.member := by
  unfold Core.modWarp; split <;> rfl
@[simp] theorem Core.modWarp_obs (k : Core) (w : Nat) (f : Warp → Warp) : (k.modWarp w f).obs = k.obs := by
  unfold Core.modWarp; split <;> rfl
@[simp] theorem Core.modWarp_floads (k : Core) (w : Nat) (f : Warp → Warp) : (k.modWarp w f).floads = k.floads := by
  unfold Core.modWarp; split <;> rfl
@[simp] theorem Core.modWarp_hashes (k : Core) (w : Nat) (f : Warp → Warp) : (k.modWarp w f).hashes = k.hashes := by
  unfold Core.modWarp; split <;> rfl
@[simp] theorem Core.modBlock_ck (k : Core) (r : Nat) (f : Block → Block) : (k.modBlock r f).ck = k.ck := by
  unfold Core.modBlock; split <;> rfl
@[simp] theorem Core.modBlock_gov (k : Core) (r : Nat) (f : Block → Block) : (k.modBlock r f).gov = k.gov := by
  unfold Core.modBlock; split <;> rfl
@[simp] theorem Core.modBlock_warps (k : Core) (r : Nat) (f : Block → Block) : (k.modBlock r f).warps = k.warps := by
  unfold Core.modBlock; split <;> rfl
@[simp] theorem Core.modBlock_strand (k : Core) (r : Nat) (f : Block → Block) : (k.modBlock r f).strand = k.strand := by
  unfold Core.modBlock; split <;> rfl
@[simp] theorem Core.modBlock_placed (k : Core) (r : Nat) (f : Block → Block) : (k.modBlock r f).placed = k.placed := by
  unfold Core.modBlock; split <;> rfl
@[simp] theorem Core.modBlock_clasp (k : Core) (r : Nat) (f : Block → Block) : (k.modBlock r f).clasp = k.clasp := by
  unfold Core.modBlock; split <;> rfl
@[simp] theorem Core.modBlock_copy (k : Core) (r : Nat) (f : Block → Block) : (k.modBlock r f).copy = k.copy := by
  unfold Core.modBlock; split <;> rfl
@[simp] theorem Core.modBlock_corder (k : Core) (r : Nat) (f : Block → Block) : (k.modBlock r f).corder = k.corder := by
  unfold Core.modBlock; split <;> rfl
@[simp] theorem Core.modBlock_caccept (k : Core) (r : Nat) (f : Block → Block) : (k.modBlock r f).caccept = k.caccept := by
  unfold Core.modBlock; split <;> rfl
@[simp] theorem Core.modBlock_kfaults (k : Core) (r : Nat) (f : Block → Block) : (k.modBlock r f).kfaults = k.kfaults := by
  unfold Core.modBlock; split <;> rfl
@[simp] theorem Core.modBlock_kick (k : Core) (r : Nat) (f : Block → Block) : (k.modBlock r f).kick = k.kick := by
  unfold Core.modBlock; split <;> rfl
@[simp] theorem Core.modBlock_kickBy (k : Core) (r : Nat) (f : Block → Block) : (k.modBlock r f).kickBy = k.kickBy := by
  unfold Core.modBlock; split <;> rfl
@[simp] theorem Core.modBlock_mar (k : Core) (r : Nat) (f : Block → Block) : (k.modBlock r f).mar = k.mar := by
  unfold Core.modBlock; split <;> rfl
@[simp] theorem Core.modBlock_mx (k : Core) (r : Nat) (f : Block → Block) : (k.modBlock r f).mx = k.mx := by
  unfold Core.modBlock; split <;> rfl
@[simp] theorem Core.modBlock_l1 (k : Core) (r : Nat) (f : Block → Block) : (k.modBlock r f).l1 = k.l1 := by
  unfold Core.modBlock; split <;> rfl
@[simp] theorem Core.modBlock_wb (k : Core) (r : Nat) (f : Block → Block) : (k.modBlock r f).wb = k.wb := by
  unfold Core.modBlock; split <;> rfl
@[simp] theorem Core.modBlock_promo (k : Core) (r : Nat) (f : Block → Block) : (k.modBlock r f).promo = k.promo := by
  unfold Core.modBlock; split <;> rfl
@[simp] theorem Core.modBlock_remote (k : Core) (r : Nat) (f : Block → Block) : (k.modBlock r f).remote = k.remote := by
  unfold Core.modBlock; split <;> rfl
@[simp] theorem Core.modBlock_lpr (k : Core) (r : Nat) (f : Block → Block) : (k.modBlock r f).lpr = k.lpr := by
  unfold Core.modBlock; split <;> rfl
@[simp] theorem Core.modBlock_tlb (k : Core) (r : Nat) (f : Block → Block) : (k.modBlock r f).tlb = k.tlb := by
  unfold Core.modBlock; split <;> rfl
@[simp] theorem Core.modBlock_walks (k : Core) (r : Nat) (f : Block → Block) : (k.modBlock r f).walks = k.walks := by
  unfold Core.modBlock; split <;> rfl
@[simp] theorem Core.modBlock_xlates (k : Core) (r : Nat) (f : Block → Block) : (k.modBlock r f).xlates = k.xlates := by
  unfold Core.modBlock; split <;> rfl
@[simp] theorem Core.modBlock_faults (k : Core) (r : Nat) (f : Block → Block) : (k.modBlock r f).faults = k.faults := by
  unfold Core.modBlock; split <;> rfl
@[simp] theorem Core.modBlock_xport (k : Core) (r : Nat) (f : Block → Block) : (k.modBlock r f).xport = k.xport := by
  unfold Core.modBlock; split <;> rfl
@[simp] theorem Core.modBlock_domain (k : Core) (r : Nat) (f : Block → Block) : (k.modBlock r f).domain = k.domain := by
  unfold Core.modBlock; split <;> rfl
@[simp] theorem Core.modBlock_member (k : Core) (r : Nat) (f : Block → Block) : (k.modBlock r f).member = k.member := by
  unfold Core.modBlock; split <;> rfl
@[simp] theorem Core.modBlock_obs (k : Core) (r : Nat) (f : Block → Block) : (k.modBlock r f).obs = k.obs := by
  unfold Core.modBlock; split <;> rfl
@[simp] theorem Core.modBlock_floads (k : Core) (r : Nat) (f : Block → Block) : (k.modBlock r f).floads = k.floads := by
  unfold Core.modBlock; split <;> rfl
@[simp] theorem Core.modBlock_hashes (k : Core) (r : Nat) (f : Block → Block) : (k.modBlock r f).hashes = k.hashes := by
  unfold Core.modBlock; split <;> rfl

/-! ## What a change of a path leaves of its warp -/

@[simp] theorem Warp.modPath_rix (w : Warp) (alt : Bool) (f : Path → Path) : (w.modPath alt f).rix = w.rix := by
  cases alt <;> rfl
@[simp] theorem Warp.modPath_role (w : Warp) (alt : Bool) (f : Path → Path) : (w.modPath alt f).role = w.role := by
  cases alt <;> rfl
@[simp] theorem Warp.modPath_idx (w : Warp) (alt : Bool) (f : Path → Path) : (w.modPath alt f).idx = w.idx := by
  cases alt <;> rfl
@[simp] theorem Warp.modPath_v (w : Warp) (alt : Bool) (f : Path → Path) : (w.modPath alt f).v = w.v := by
  cases alt <;> rfl
@[simp] theorem Warp.modPath_w (w : Warp) (alt : Bool) (f : Path → Path) : (w.modPath alt f).w = w.w := by
  cases alt <;> rfl
@[simp] theorem Warp.modPath_q (w : Warp) (alt : Bool) (f : Path → Path) : (w.modPath alt f).q = w.q := by
  cases alt <;> rfl
@[simp] theorem Warp.modPath_flags (w : Warp) (alt : Bool) (f : Path → Path) : (w.modPath alt f).flags = w.flags := by
  cases alt <;> rfl
@[simp] theorem Warp.modPath_seed (w : Warp) (alt : Bool) (f : Path → Path) : (w.modPath alt f).seed = w.seed := by
  cases alt <;> rfl
@[simp] theorem Warp.modPath_fmode (w : Warp) (alt : Bool) (f : Path → Path) : (w.modPath alt f).fmode = w.fmode := by
  cases alt <;> rfl
@[simp] theorem Warp.modPath_rotbase (w : Warp) (alt : Bool) (f : Path → Path) : (w.modPath alt f).rotbase = w.rotbase := by
  cases alt <;> rfl
@[simp] theorem Warp.modPath_loops (w : Warp) (alt : Bool) (f : Path → Path) : (w.modPath alt f).loops = w.loops := by
  cases alt <;> rfl
@[simp] theorem Warp.modPath_wait (w : Warp) (alt : Bool) (f : Path → Path) : (w.modPath alt f).wait = w.wait := by
  cases alt <;> rfl
@[simp] theorem Warp.modPath_sw (w : Warp) (alt : Bool) (f : Path → Path) : (w.modPath alt f).sw = w.sw := by
  cases alt <;> rfl
@[simp] theorem Warp.modPath_recs (w : Warp) (alt : Bool) (f : Path → Path) : (w.modPath alt f).recs = w.recs := by
  cases alt <;> rfl
@[simp] theorem Warp.modPath_exited (w : Warp) (alt : Bool) (f : Path → Path) : (w.modPath alt f).exited = w.exited := by
  cases alt <;> rfl
@[simp] theorem Warp.modPath_hand (w : Warp) (alt : Bool) (f : Path → Path) : (w.modPath alt f).hand = w.hand := by
  cases alt <;> rfl
@[simp] theorem Warp.modPath_bankV (w : Warp) (alt : Bool) (f : Path → Path) : (w.modPath alt f).bankV = w.bankV := by
  cases alt <;> rfl
@[simp] theorem Warp.modPath_bankW (w : Warp) (alt : Bool) (f : Path → Path) : (w.modPath alt f).bankW = w.bankW := by
  cases alt <;> rfl
@[simp] theorem Warp.modPath_trapcause (w : Warp) (alt : Bool) (f : Path → Path) : (w.modPath alt f).trapcause = w.trapcause := by
  cases alt <;> rfl
@[simp] theorem Warp.modPath_trappc (w : Warp) (alt : Bool) (f : Path → Path) : (w.modPath alt f).trappc = w.trappc := by
  cases alt <;> rfl
@[simp] theorem Warp.modPath_traplanes (w : Warp) (alt : Bool) (f : Path → Path) : (w.modPath alt f).traplanes = w.traplanes := by
  cases alt <;> rfl
@[simp] theorem Warp.modPath_pend (w : Warp) (alt : Bool) (f : Path → Path) : (w.modPath alt f).pend = w.pend := by
  cases alt <;> rfl
@[simp] theorem Warp.modPath_results (w : Warp) (alt : Bool) (f : Path → Path) : (w.modPath alt f).results = w.results := by
  cases alt <;> rfl
@[simp] theorem Warp.modPath_priv (w : Warp) (alt : Bool) (f : Path → Path) : (w.modPath alt f).priv = w.priv := by
  cases alt <;> rfl
@[simp] theorem Warp.modPath_strand (w : Warp) (alt : Bool) (f : Path → Path) : (w.modPath alt f).strand = w.strand := by
  cases alt <;> rfl
@[simp] theorem Warp.modPath_crc (w : Warp) (alt : Bool) (f : Path → Path) : (w.modPath alt f).crc = w.crc := by
  cases alt <;> rfl
@[simp] theorem Warp.modPath_hcnt (w : Warp) (alt : Bool) (f : Path → Path) : (w.modPath alt f).hcnt = w.hcnt := by
  cases alt <;> rfl
@[simp] theorem Warp.modPath_edge (w : Warp) (alt : Bool) (f : Path → Path) : (w.modPath alt f).edge = w.edge := by
  cases alt <;> rfl
@[simp] theorem Warp.modPath_relSeq (w : Warp) (alt : Bool) (f : Path → Path) : (w.modPath alt f).relSeq = w.relSeq := by
  cases alt <;> rfl
@[simp] theorem Warp.modPath_hq (w : Warp) (alt : Bool) (f : Path → Path) : (w.modPath alt f).hq = w.hq := by
  cases alt <;> rfl

end Sys2Proof.Machine
end

