-- ==== Sys2Proof/Laws/Memory.lean ====
section
/-! SUPPORT. What keeps memory: every operation of the machine but the few that store to it leaves each byte of memory as
it was. -/

set_option Elab.async false

namespace Sys2Proof.Machine

/-- A choice of states. -/
@[simp] theorem State.ite_mem (p : Prop) [Decidable p] (s t : State) : (if p then s else t).mem = if p then s.mem else t.mem := by
  split <;> rfl

/-- A fold whose steps keep memory keeps it. -/
@[simp] theorem State.foldl_mem {α : Type} {f : State → α → State} (h : ∀ s x, (f s x).mem = s.mem) (l : List α) (s : State) :
    (l.foldl f s).mem = s.mem := by
  induction l generalizing s with
  | nil => rfl
  | cons x l ih => rw [List.foldl_cons, ih, h]

@[simp] theorem State.traceLossy_mem (s : State) (cls sub src : Nat) (payload : List W64) :
    (State.traceLossy s cls sub src payload).mem = s.mem := by
  simp [State.traceLossy]

@[simp] theorem State.traceLossless_mem (s : State) (cls sub src : Nat) (payload : List W64) :
    (State.traceLossless s cls sub src payload).mem = s.mem := by
  simp [State.traceLossless]

@[simp] theorem Env.put_mem (e : Env) (unit lat : Nat) (lock : Bool) (dest : Dest) (regs : List Nat) (lanes : W32) (vals : List W32) (s : State) :
    (Env.put e unit lat lock dest regs lanes vals s).mem = s.mem := rfl

@[simp] theorem State.land_mem (s : State) (c w : Nat) (r : Result) : (State.land s c w r).mem = s.mem := by
  unfold State.land
  dsimp only
  split <;> simp

@[simp] theorem State.withdraw_mem (s : State) (c w : Nat) (alt : Bool) (rix : Nat) : (State.withdraw s c w alt rix).mem = s.mem := rfl

@[simp] theorem State.killBlock_mem (s : State) (c r : Nat) (cause second : Nat) (pc : W64) :
    (State.killBlock s c r cause second pc).mem = s.mem := by
  unfold State.killBlock
  split <;> simp

@[simp] theorem State.enterTrap_mem (s : State) (c w : Nat) (alt : Bool) (cause : BitVec 8) (pc : W32) (lanes : W32) :
    (State.enterTrap s c w alt cause pc lanes).mem = s.mem := by
  unfold State.enterTrap
  repeat' split
  all_goals simp

@[simp] theorem State.takeTrap_mem (s : State) (c w : Nat) (alt : Bool) (cause : BitVec 8) (pc : W32) (lanes : W32) :
    (State.takeTrap s c w alt cause pc lanes).mem = s.mem := by
  unfold State.takeTrap
  split <;> simp

@[simp] theorem State.leaveTrap_mem (s : State) (c w : Nat) : (State.leaveTrap s c w).mem = s.mem := by
  unfold State.leaveTrap
  repeat' split
  all_goals simp

@[simp] theorem Env.enter_mem (e : Env) (s : State) : (Env.enter e s).mem = s.mem := by
  unfold Env.enter
  split <;> simp

@[simp] theorem Env.complete_mem (e : Env) (x : Cost) (g : Guard) (t : State) : (Env.complete e x g t).mem = t.mem := by
  unfold Env.complete
  split <;> simp

@[simp] theorem Env.chosen_mem (e : Env) (s : State) : (Env.chosen e s).mem = s.mem := by
  unfold Env.chosen
  split <;> simp

@[simp] theorem State.wake_mem (s : State) (c w : Nat) (alt : Bool) : (State.wake s c w alt).mem = s.mem := rfl

@[simp] theorem State.resume_mem (s : State) (c w : Nat) (alt : Bool) : (State.resume s c w alt).mem = s.mem := rfl

@[simp] theorem State.finish_mem (s : State) (c w : Nat) (alt : Bool) : (State.finish s c w alt).mem = s.mem := by
  unfold State.finish
  repeat' split
  all_goals simp

@[simp] theorem Env.putVW_mem (e : Env) (unit lat : Nat) (lock : Bool) (d : Code) (wide : Bool) (x : W64) (s : State) :
    (Env.putVW e unit lat lock d wide x s).mem = s.mem := by
  simp [Env.putVW]

@[simp] theorem Env.setSeeds_mem (e : Env) (l : List W32) (s : State) : (Env.setSeeds e l s).mem = s.mem := rfl

@[simp] theorem Env.putFlags_mem (e : Env) (unit lat : Nat) (nf : Bool) (l : List Nat) (s : State) :
    (Env.putFlags e unit lat nf l s).mem = s.mem := by
  simp [Env.putFlags]

@[simp] theorem Env.convResult_mem (e : Env) (f : F2) (n ws wd : Nat) (fpSrc : Bool) (g : Nat → W32 → Nat × Nat × W32) (s : State) :
    (Env.convResult e f n ws wd fpSrc g s).mem = s.mem := by
  simp [Env.convResult]

@[simp] theorem State.cacheCore_mem (s : State) (c : Nat) (t : Tlb) : (State.cacheCore s c t).mem = s.mem := rfl

@[simp] theorem State.cacheQuire_mem (s : State) (q : Nat) (t : Tlb) : (State.cacheQuire s q t).mem = s.mem := rfl

@[simp] theorem State.loadLpr_mem (s : State) (c lane : Nat) (t : Tlb) : (State.loadLpr s c lane t).mem = s.mem := rfl

@[simp] theorem State.noteFault_mem (s : State) (c pasid cause reason va : Nat) :
    (State.noteFault s c pasid cause reason va).mem = s.mem := rfl

@[simp] theorem State.startWalk_mem (s : State) (c pasid va : Nat) (write probe : Bool) (who : Asker) :
    (State.startWalk s c pasid va write probe who).mem = s.mem := by
  simp [State.startWalk]

@[simp] theorem State.startWalks_mem (s : State) (c pasid : Nat) (write probe : Bool) (who : Asker) (l : List Nat) :
    (s.startWalks c pasid write probe who l).mem = s.mem := by
  induction l generalizing s with
  | nil => rfl
  | cons x l ih => simp [State.startWalks, ih]

@[simp] theorem State.sweep_mem (s : State) (v : Cover) (c : Nat) : (State.sweep s v c).mem = s.mem := by
  simp [State.sweep]

@[simp] theorem State.bankWords_mem (s : State) (c r off n port delay src tag : Nat) :
    (State.bankWords s c r off n port delay src tag).mem = s.mem := rfl

@[simp] theorem State.askBar_mem (s : State) (c r off port src : Nat) : (State.askBar s c r off port src).mem = s.mem := rfl

@[simp] theorem State.l1Clear_mem (s : State) (c : Nat) : (State.l1Clear s c).mem = s.mem :=
  State.foldl_mem (fun _ _ => State.modCore_mem ..) _ _

@[simp] theorem State.l2Place_mem (s : State) (t : Tlb) (pa hint : Nat) : (State.l2Place s t pa hint).mem = s.mem := by
  simp [State.l2Place]

@[simp] theorem State.recheck_mem (s : State) (c r off n : Nat) : (State.recheck s c r off n).mem = s.mem := by
  simp [State.recheck]

@[simp] theorem State.barOp_mem (s : State) (c r off : Nat) (f : Bar → Bar) : (State.barOp s c r off f).mem = s.mem := by
  simp [State.barOp]

@[simp] theorem State.fill_mem (s : State) (c w id lane : Nat) (ws : List W32) :
    (State.fill s c w id lane ws).mem = s.mem := rfl

@[simp] theorem State.l1Drop_mem (s : State) (c pa : Nat) : (State.l1Drop s c pa).mem = s.mem := rfl

@[simp] theorem State.l1Read_mem (s : State) (c pa n hint : Nat) : (s.l1Read c pa n hint).2.mem = s.mem := by
  unfold State.l1Read
  dsimp only
  split
  · rfl
  · split <;> rfl

@[simp] theorem State.l1Store_mem (s : State) (c pa : Nat) (b : List Byte) : (State.l1Store s c pa b).mem = s.mem := rfl

@[simp] theorem State.wbPush_mem (s : State) (c w pa : Nat) (kind : WbKind) (rel : Bool) :
    (State.wbPush s c w pa kind rel).mem = s.mem := rfl

@[simp] theorem State.modSlice_mem (s : State) (sl : Nat) (f : Slice → Slice) : (State.modSlice s sl f).mem = s.mem := rfl

@[simp] theorem State.acquire_mem (s : State) (c scope : Nat) : (State.acquire s c scope).mem = s.mem := by
  unfold State.acquire
  split
  · rfl
  · split
    · split
      · rfl
      · exact State.foldl_mem (fun _ _ => by simp) _ _
    · rfl

@[simp] theorem State.scratchAccess_mem (s : State) (c w : Nat) (kind : AccKind) (n lane id space ea : Nat) (data cmp : List W32) (tc r off : Nat) :
    (State.scratchAccess s c w kind n lane id space ea data cmp tc r off).mem = s.mem := by
  unfold State.scratchAccess
  dsimp only
  repeat' split
  all_goals simp

@[simp] theorem State.markOuter_mem (s : State) (c w id lane ea n tgt : Nat) :
    (State.markOuter s c w id lane ea n tgt).mem = s.mem := rfl

@[simp] theorem State.loadGlobal_mem (s : State) (c w : Nat) (a : Access) (l : LaneAcc) (pa : Nat) (t : Tlb) :
    (State.loadGlobal s c w a l pa t).mem = s.mem := by
  simp [State.loadGlobal]

@[simp] theorem State.atomGlobal_mem (s : State) (c w : Nat) (a : Access) (l : LaneAcc) (pa : Nat) (t : Tlb) (relWarp : Bool) :
    (State.atomGlobal s c w a l pa t relWarp).mem = s.mem := by
  unfold State.atomGlobal
  dsimp only
  repeat' split
  all_goals simp

@[simp] theorem faultEvent_mem (c pasid : Nat) (cause : BitVec 8) (l : List (LaneAcc × Meets)) (s : State) :
    (faultEvent c pasid cause l s).mem = s.mem := by
  unfold faultEvent
  split <;> simp

@[simp] theorem Env.askBanks_mem (e : Env) (a : Access) (l : List (LaneAcc × Place)) (s : State) :
    (Env.askBanks e a l s).mem = s.mem := by
  refine State.foldl_mem (fun s x => ?_) _ _
  split <;> simp

@[simp] theorem Env.putDue_mem (e : Env) (d : LsDest) (lanes : List Nat) (lines : Nat) (s : State) :
    (Env.putDue e d lanes lines s).mem = s.mem := rfl

@[simp] theorem Env.lsLprs_mem (e : Env) (a : Access) (s : State) : (Env.lsLprs e a s).mem = s.mem := by
  refine State.foldl_mem (fun s x => ?_) _ _
  split <;> simp

@[simp] theorem Env.lsPut_mem (e : Env) (a : Access) (d : Option LsDest) (lines : Nat) (s : State) :
    (Env.lsPut e a d lines s).mem = s.mem := by
  unfold Env.lsPut
  split <;> simp

@[simp] theorem Env.askObject_mem (e : Env) (space : BitVec 2) (lane : Nat) (p : Nat × Nat × Nat) (s : State) :
    (Env.askObject e space lane p s).mem = s.mem := rfl

@[simp] theorem Env.release_mem (e : Env) (scope : Nat) (s : State) : (Env.release e scope s).mem = s.mem := by
  simp [Env.release]

@[simp] theorem State.deferOther_mem (s : State) (c w : Nat) (alt : Bool) (rix : Nat) :
    (State.deferOther s c w alt rix).mem = s.mem := by
  unfold State.deferOther
  split <;> simp

@[simp] theorem Env.setLoops_mem (e : Env) (f : List LoopEntry → List LoopEntry) (s : State) :
    (Env.setLoops e f s).mem = s.mem := by
  unfold Env.setLoops
  split <;> simp

@[simp] theorem Env.goto_mem (e : Env) (t : W32) (s : State) : (Env.goto e t s).mem = s.mem := rfl

@[simp] theorem Env.holdAt_mem (e : Env) (why : Park) (s : State) : (Env.holdAt e why s).mem = s.mem := rfl

@[simp] theorem Env.link_mem (e : Env) (reg : Nat) (taken : W32) (s : State) : (Env.link e reg taken s).mem = s.mem := rfl

@[simp] theorem State.modMx_mem (s : State) (c : Nat) (f : Mx → Mx) : (State.modMx s c f).mem = s.mem := rfl

@[simp] theorem State.grantBanks_mem (s : State) (c rix base n : Nat) : (State.grantBanks s c rix base n).mem = s.mem := rfl

@[simp] theorem Env.unqueue_mem (e : Env) (s : State) : (Env.unqueue e s).mem = s.mem := rfl

@[simp] theorem Env.mxTake_mem (e : Env) (x : MxEntry) (s : State) : (Env.mxTake e x s).mem = s.mem := rfl

@[simp] theorem Env.mxJoin_mem (e : Env) (x : MxEntry) (s : State) : (Env.mxJoin e x s).mem = s.mem := by
  simp [Env.mxJoin]

@[simp] theorem State.mxBegin_mem (s : State) (c : Nat) (r : MxRun) (start : Nat) :
    (State.mxBegin s c r start).mem = s.mem := rfl

@[simp] theorem State.advanceCur_mem (s : State) (c rix ent : Nat) : (State.advanceCur s c rix ent).mem = s.mem := rfl

@[simp] theorem State.askRecord_mem (s : State) (c rix off : Nat) : (State.askRecord s c rix off).mem = s.mem := rfl

@[simp] theorem State.recordRead_mem (s : State) (c : Nat) (r : MxRead) : (State.recordRead s c r).mem = s.mem := by
  unfold State.recordRead
  dsimp only
  repeat' split
  all_goals simp

@[simp] theorem State.mxWrite_mem (s : State) (c : Nat) (r : MxRun) : (State.mxWrite s c r).mem = s.mem := by
  unfold State.mxWrite
  split <;> simp

@[simp] theorem State.mxLanded_mem (s : State) (c : Nat) (r : MxRun) : (State.mxLanded s c r).mem = s.mem := by
  unfold State.mxLanded
  split <;> simp

@[simp] theorem State.putBase_mem (s : State) (c w d base id : Nat) : (State.putBase s c w d base id).mem = s.mem := rfl

@[simp] theorem State.mxEnd_mem (s : State) (c : Nat) : (State.mxEnd s c).mem = s.mem := by
  unfold State.mxEnd
  split <;> simp

@[simp] theorem State.mxReset_mem (s : State) (c : Nat) : (State.mxReset s c).mem = s.mem := by
  unfold State.mxReset
  dsimp only
  repeat' split
  all_goals simp

@[simp] theorem State.localPutByte_mem (s : State) (c : Nat) (x : Local) (i : Nat) (v : Byte) :
    (State.localPutByte s c x i v).mem = s.mem := by
  unfold State.localPutByte
  repeat' split
  all_goals simp

@[simp] theorem State.localPut_mem (s : State) (c : Nat) (x : Local) (e : Elem) : (State.localPut s c x e).mem = s.mem := by
  simp [State.localPut]

@[simp] theorem State.absentLines_mem (s : State) (l : List (Nat × Nat × Nat)) (up : Bool) :
    (State.absentLines s l up).mem = s.mem := by
  exact State.foldl_mem (fun _ _ => by simp) _ _

@[simp] theorem State.count_mem (s : State) (c : Nat) (q : CReq) (n : Int) : (State.count s c q n).mem = s.mem := by
  unfold State.count
  split <;> simp

@[simp] theorem State.gapLines_mem (s : State) (c : Nat) (q : CReq) : (s.gapLines c q).1.mem = s.mem := by
  simp [State.gapLines]

@[simp] theorem State.putToken_mem (s : State) (c : Nat) (q : CReq) : (State.putToken s c q).mem = s.mem := by
  unfold State.putToken
  split <;> simp

@[simp] theorem State.accept_mem (s : State) (c : Nat) (q : CReq) : (State.accept s c q).mem = s.mem := by
  unfold State.accept
  split <;> simp

@[simp] theorem State.copyEnd_mem (s : State) (c slot : Nat) (q : CReq) (n : Nat) :
    (State.copyEnd s c slot q n).mem = s.mem := by
  unfold State.copyEnd
  split <;> simp

@[simp] theorem State.copyLanded_mem (s : State) (c slot : Nat) (q : CReq) (n : Nat) (l : List Elem) :
    (State.copyLanded s c slot q n l).mem = s.mem := by
  simp [State.copyLanded]

@[simp] theorem State.copySources_mem (s : State) (c slot : Nat) (q : CReq) :
    (State.copySources s c slot q).mem = s.mem := by
  simp [State.copySources]

@[simp] theorem State.copyStatusError_mem (s : State) (c rix tag cause va : Nat) :
    (State.copyStatusError s c rix tag cause va).mem = s.mem := rfl

@[simp] theorem State.copyError_mem (s : State) (c slot : Nat) (q : CReq) : (State.copyError s c slot q).mem = s.mem := by
  unfold State.copyError
  split <;> simp

@[simp] theorem State.putReq_mem (s : State) (c slot : Nat) (q : CReq) : (State.putReq s c slot q).mem = s.mem := rfl

@[simp] theorem State.copyMiss_mem (s : State) (c slot pasid : Nat) (write : Bool) (miss : List Nat) :
    (State.copyMiss s c slot pasid write miss).mem = s.mem := by
  simp [State.copyMiss]

@[simp] theorem State.readIndices_mem (s : State) (c slot : Nat) (q : CReq) :
    (State.readIndices s c slot q).mem = s.mem := by
  simp [State.readIndices]

@[simp] theorem State.askBytes_mem (s : State) (c t r : Nat) (l : List Nat) : (State.askBytes s c t r l).mem = s.mem := rfl

@[simp] theorem State.askLocal_mem (s : State) (c : Nat) (x : Local) (l : List Elem) :
    (State.askLocal s c x l).mem = s.mem := by
  unfold State.askLocal
  split <;> simp

@[simp] theorem State.askOwn_mem (s : State) (c rix : Nat) (l : List Elem) : (State.askOwn s c rix l).mem = s.mem := by
  simp [State.askOwn]

@[simp] theorem State.noteViolation_mem (s : State) (c pasid va : Nat) :
    (State.noteViolation s c pasid va).mem = s.mem := by
  simp [State.noteViolation]

@[simp] theorem State.fly_mem (s : State) (c : Nat) (f : Flight) : (s.fly c f).mem = s.mem := by
  unfold State.fly
  split <;> simp

@[simp] theorem State.copyFetch_mem (s : State) (c slot : Nat) (q : CReq) (pasid : Nat) :
    (State.copyFetch s c slot q pasid).mem = s.mem := by
  unfold State.copyFetch
  repeat' split
  all_goals simp

@[simp] theorem State.copyTake_mem (s : State) (c slot : Nat) (q : CReq) (pasid : Nat) :
    (State.copyTake s c slot q pasid).mem = s.mem := by
  unfold State.copyTake
  dsimp only
  repeat' split
  all_goals simp

@[simp] theorem State.copyMove_mem (s : State) (c slot : Nat) (q : CReq) (p : CPart) :
    (State.copyMove s c slot q p).mem = s.mem := by
  simp [State.copyMove]

@[simp] theorem State.kickDone_mem (s : State) (c : Nat) : (State.kickDone s c).mem = s.mem := rfl

@[simp] theorem State.kickAccept_mem (s : State) (c : Nat) : (State.kickAccept s c).mem = s.mem := by
  unfold State.kickAccept
  dsimp only
  repeat' split
  all_goals simp

@[simp] theorem State.pflBring_mem (s : State) (c pasid va : Nat) : (State.pflBring s c pasid va).mem = s.mem := by
  unfold State.pflBring
  repeat' split
  all_goals simp

@[simp] theorem State.pflLine_mem (s : State) (c slot : Nat) (q : CReq) : (State.pflLine s c slot q).mem = s.mem := by
  unfold State.pflLine
  dsimp only
  split <;> simp

@[simp] theorem State.marbleCount_mem (s : State) (c : Nat) (q : MReq) (n : Int) :
    (State.marbleCount s c q n).mem = s.mem := by
  unfold State.marbleCount
  split <;> simp

@[simp] theorem State.marbleAccept_mem (s : State) (c : Nat) (q : MReq) : (State.marbleAccept s c q).mem = s.mem := by
  unfold State.marbleAccept
  split <;> simp

@[simp] theorem State.marbleEnd_mem (s : State) (c slot : Nat) (q : MReq) : (State.marbleEnd s c slot q).mem = s.mem := by
  simp [State.marbleEnd]

@[simp] theorem State.marbleError_mem (s : State) (c slot : Nat) (q : MReq) :
    (State.marbleError s c slot q).mem = s.mem := by
  simp [State.marbleError]

@[simp] theorem State.modRun_mem (s : State) (c : Nat) (f : MRun → MRun) : (State.modRun s c f).mem = s.mem := rfl

@[simp] theorem State.marbleRead_mem (s : State) (c slot : Nat) (q : MReq) : (State.marbleRead s c slot q).mem = s.mem := by
  unfold State.marbleRead
  dsimp only
  repeat' split
  all_goals simp

@[simp] theorem State.marbleBegin_mem (s : State) (c slot : Nat) (q : MReq) : (State.marbleBegin s c slot q).mem = s.mem := by
  simp [State.marbleBegin]

@[simp] theorem State.marbleStart_mem (s : State) (c : Nat) : (State.marbleStart s c).mem = s.mem := by
  unfold State.marbleStart
  repeat' split
  all_goals simp

@[simp] theorem State.marbleWords_mem (s : State) (c : Nat) (r : MRun) (q : MReq) (served left : List Nat) :
    (State.marbleWords s c r q served left).mem = s.mem := by
  unfold State.marbleWords
  dsimp only
  have h (out : List Byte) : (served.foldl (fun s w => s.scratchPut c q.rix (4 * w) ((out.drop (4 * w - q.dst)).take 4)) s).mem
      = s.mem := State.foldl_mem (fun _ _ => State.scratchPut_mem ..) _ _
  split <;> simp [h]

@[simp] theorem State.marbleComplete_mem (s : State) (c : Nat) : (State.marbleComplete s c).mem = s.mem := by
  unfold State.marbleComplete
  split
  · rfl
  · split <;> simp

@[simp] theorem State.requestPoint_mem (s : State) (c rix n : Nat) : (State.requestPoint s c rix n).mem = s.mem := rfl

@[simp] theorem State.countSnap_mem (s : State) (c : Nat) : (State.countSnap s c).mem = s.mem := rfl

@[simp] theorem State.countHazard_mem (s : State) (c : Nat) : (State.countHazard s c).mem = s.mem := rfl

@[simp] theorem State.setDiverged_mem (s : State) (c : Nat) : (State.setDiverged s c).mem = s.mem := rfl

@[simp] theorem State.rlogSend_mem (s : State) (sl n : Nat) (l : List Chunk) : (s.rlogSend sl n l).mem = s.mem := by
  induction n generalizing s l with
  | zero => rfl
  | succ n ih => unfold State.rlogSend; split <;> simp [ih]

@[simp] theorem State.rlogFlush_mem (s : State) (sl : Nat) : (State.rlogFlush s sl).mem = s.mem := by
  simp [State.rlogFlush]

@[simp] theorem State.chunkClose_mem (s : State) (sl : Nat) : (State.chunkClose s sl).mem = s.mem := by
  unfold State.chunkClose
  split <;> simp

@[simp] theorem State.logAtomic_mem (s : State) (sl core warp : Nat) (eng : Bool) :
    (State.logAtomic s sl core warp eng).mem = s.mem := by
  unfold State.logAtomic
  split <;> simp

@[simp] theorem State.logEmit_mem (s : State) (sl : Nat) : (State.logEmit s sl).mem = s.mem := by
  simp [State.logEmit]

@[simp] theorem State.gateMark_mem (s : State) (sl : Nat) : (s.gateMark sl).mem = s.mem := by
  unfold State.gateMark
  split <;> simp

@[simp] theorem State.setRpmode_mem (s : State) (sl m : Nat) : (State.setRpmode s sl m).mem = s.mem := by
  simp [State.setRpmode]

@[simp] theorem State.gateUse_mem (s : State) (sl : Nat) : (State.gateUse s sl).mem = s.mem := by
  unfold State.gateUse
  repeat' split
  all_goals simp

@[simp] theorem State.setHash_mem (s : State) (c : Nat) (v : W64) : (State.setHash s c v).mem = s.mem := rfl

@[simp] theorem State.pend_mem (s : State) (c w : Nat) (x : Async) : (State.pend s c w x).mem = s.mem := rfl

@[simp] theorem State.shash_mem (s : State) (c w : Nat) (d : Nat) (id lanes : W32) :
    (State.shash s c w d id lanes).mem = s.mem := by
  unfold State.shash
  dsimp only
  repeat' split
  all_goals simp

@[simp] theorem State.marker_mem (s : State) (c w sub : Nat) (strand : Bool) (at_ : W64) (v : W32) :
    (State.marker s c w sub strand at_ v).mem = s.mem := by
  simp [State.marker]

@[simp] theorem State.hazard_mem (s : State) (c w : Nat) (at_ : W64) (code kind : Nat) (lanes : W32) :
    (State.hazard s c w at_ code kind lanes).mem = s.mem := by
  simp [State.hazard]

@[simp] theorem Env.laterArrive_mem (e : Env) (space : BitVec 2) (scope lane ea : Nat) (n : W32) (s : State) :
    (e.laterArrive space scope lane ea n s).mem = s.mem := rfl

@[simp] theorem Env.freeLater_mem (e : Env) (banks : List Nat) (s : State) : (e.freeLater banks s).mem = s.mem := rfl

@[simp] theorem State.loopClosed_mem (s : State) (c : Nat) : (State.loopClosed s c).mem = s.mem := by
  simp [State.loopClosed]

@[simp] theorem Env.leave_mem (e : Env) (t : W32) (s : State) : (Env.leave e t s).mem = s.mem := by
  unfold Env.leave
  repeat' split
  all_goals simp

@[simp] theorem State.sampleOne_mem (s : State) (c : Nat) (x : Option (Nat × Bool × Bool × W32 × Nat)) :
    (State.sampleOne s c x).mem = s.mem := by
  unfold State.sampleOne
  split <;> simp

@[simp] theorem State.sampleSimt_mem (s : State) (c : Nat) : (State.sampleSimt s c).mem = s.mem := by
  unfold State.sampleSimt
  dsimp only
  split <;> simp

@[simp] theorem State.sampleStrand_mem (s : State) (c : Nat) : (State.sampleStrand s c).mem = s.mem := by
  unfold State.sampleStrand
  dsimp only
  split <;> simp

@[simp] theorem State.sampleCycle_mem (s : State) (c : Nat) : (State.sampleCycle s c).mem = s.mem := by
  simp [State.sampleCycle]

@[simp] theorem State.stopNow_mem (s : State) (c cause tag : Nat) (whole : Bool) :
    (State.stopNow s c cause tag whole).mem = s.mem := rfl

@[simp] theorem State.dumpPart_mem (s : State) (c sub fuel n : Nat) (l : List W64) :
    (s.dumpPart c sub fuel n l).mem = s.mem := by
  induction fuel generalizing s n l with
  | zero => rfl
  | succ fuel ih => unfold State.dumpPart; dsimp only; split <;> simp [ih]

@[simp] theorem State.dumpAll_mem (s : State) (c : Nat) : (State.dumpAll s c).mem = s.mem := by
  simp [State.dumpAll]

@[simp] theorem State.dumpNext_mem (s : State) (c : Nat) : (State.dumpNext s c).mem = s.mem := by
  unfold State.dumpNext
  dsimp only
  repeat' split
  all_goals simp

@[simp] theorem State.resumeNow_mem (s : State) (c : Nat) : (State.resumeNow s c).mem = s.mem := rfl

@[simp] theorem State.stopEdge_mem (s : State) (c : Nat) : (State.stopEdge s c).mem = s.mem := by
  simp [State.stopEdge]

@[simp] theorem Env.setSpecial_mem (e : Env) (code : Nat) (lanes : List Nat) (val : Nat → W64) (first : W64) (s : State) :
    (Env.setSpecial e code lanes val first s).mem = s.mem := by
  unfold Env.setSpecial
  repeat' split
  all_goals simp

@[simp] theorem Env.xlateHits_mem (e : Env) (at_ : List (Nat × Nat)) (s : State) : (Env.xlateHits e at_ s).mem = s.mem := by
  refine State.foldl_mem (fun s x => ?_) _ _
  split
  · split <;> simp
  · rfl

@[simp] theorem Env.xlatePut_mem (e : Env) (d : Code) (at_ : List (Nat × Nat)) (misses : Nat) (s : State) :
    (Env.xlatePut e d at_ misses s).mem = s.mem := rfl

@[simp] theorem State.startInval_mem (s : State) (v : Cover) (c : Nat) (who : Option (Nat × Bool)) :
    (State.startInval s v c who).mem = s.mem := by
  simp [State.startInval]

@[simp] theorem Env.qsubTake_mem (e : Env) (d : Code) (lane q : Nat) (record : List Byte) (s : State) :
    (Env.qsubTake e d lane q record s).mem = s.mem := by
  simp [Env.qsubTake]

@[simp] theorem Env.trapNext_mem (e : Env) (s : State) (cause : BitVec 8) (lanes : W32) :
    (Env.trapNext e s cause lanes).mem = s.mem := by
  unfold Env.trapNext
  split <;> simp

@[simp] theorem Env.trapped_mem (e : Env) (s : State) (cause : BitVec 8) (lanes : W32) :
    (Env.trapped e s cause lanes).mem = s.mem := by
  unfold Env.trapped
  split <;> simp

@[simp] theorem Env.waiting_mem (e : Env) (s : State) (why : Park) : (Env.waiting e s why).mem = s.mem := by
  simp [Env.waiting]

@[simp] theorem State.mxBundle_mem (s : State) (before : Mx) (c tc : Nat) : (State.mxBundle s before c tc).mem = s.mem := by
  simp [State.mxBundle]

@[simp] theorem State.bundleWait_mem (s : State) (c w : Nat) (why : Park) : (State.bundleWait s c w why).mem = s.mem := rfl

@[simp] theorem State.bundleEnds_mem (s : State) (c w : Nat) (all : W32) (h : W64) :
    (State.bundleEnds s c w all h).mem = s.mem := by
  unfold State.bundleEnds
  repeat' split
  all_goals simp

@[simp] theorem State.folldEnd_mem (s : State) (c : Nat) (f : FLoad) (rix : Nat) (x : Option Folio) (cause : BitVec 8) :
    (State.folldEnd s c f rix x cause).mem = s.mem := by
  unfold State.folldEnd
  dsimp only
  repeat' split
  all_goals simp

@[simp] theorem State.folldStep_mem (s : State) (c : Nat) (f : FLoad) : (State.folldStep s c f).mem = s.mem := by
  unfold State.folldStep
  dsimp only
  repeat' split
  all_goals simp

@[simp] theorem State.setOver_mem (s : State) (q : Nat) : (State.setOver s q).mem = s.mem := rfl

@[simp] theorem State.visible_mem (s : State) (q : Nat) : (State.visible s q).mem = s.mem := by
  simp [State.visible]

@[simp] theorem State.writeQwp_mem (s : State) (q : Nat) (v : W32) : (State.writeQwp s q v).mem = s.mem := by
  simp [State.writeQwp]

@[simp] theorem State.writeQctl_mem (s : State) (q : Nat) (v : W32) : (State.writeQctl s q v).mem = s.mem := by
  simp [State.writeQctl]

@[simp] theorem State.clearQstat_mem (s : State) (q : Nat) (v : W32) : (State.clearQstat s q v).mem = s.mem := rfl

@[simp] theorem State.badRecord_mem (s : State) (q r : Nat) : (State.badRecord s q r).mem = s.mem := rfl

@[simp] theorem State.enterWait_mem (s : State) (c : Nat) (x : Waiting) : (State.enterWait s c x).mem = s.mem := rfl

@[simp] theorem State.enterGrid_mem (s : State) (i : Nat) (g : Grid) : (State.enterGrid s i g).mem = s.mem := by
  exact State.foldl_mem (fun _ _ => by simp) _ _

@[simp] theorem State.schedDone_mem (s : State) : (State.schedDone s).mem = s.mem := rfl

@[simp] theorem State.schedAsk_mem (s : State) (pasid : Nat) (write : Bool) (pages : List Nat) :
    (State.schedAsk s pasid write pages).mem = s.mem := by
  simp [State.schedAsk]

@[simp] theorem State.takeRecord_mem (s : State) (q r : Nat) : (State.takeRecord s q r).mem = s.mem := rfl

@[simp] theorem State.rejectRecord_mem (s : State) (q r : Nat) (l : LRec) : (State.rejectRecord s q r l).mem = s.mem := rfl

@[simp] theorem State.admitRecord_mem (s : State) (q r : Nat) (l : LRec) (images : List W64) :
    (State.admitRecord s q r l images).mem = s.mem := by
  simp [State.admitRecord]

@[simp] theorem State.admit_mem (s : State) : (State.admitOne s).mem = s.mem := by
  unfold State.admitOne
  dsimp only
  repeat' split
  all_goals simp

@[simp] theorem State.putMember_mem (s : State) (c i b : Nat) (v : W32) (noted : Bool) :
    (State.putMember s c i b v noted).mem = s.mem := rfl

@[simp] theorem State.setMember_mem (s : State) (c rix i b : Nat) (l : LRec) : (State.setMember s c rix i b l).mem = s.mem := by
  simp [State.setMember]

@[simp] theorem State.leaveWait_mem (s : State) (c : Nat) : (State.leaveWait s c).mem = s.mem := rfl

@[simp] theorem State.placeNew_mem (s : State) (c i : Nat) (g : Grid) (b : Nat) (x : Except (BitVec 8) (KMap Folio)) :
    (State.placeNew s c i g b x).mem = s.mem := by
  unfold State.placeNew
  split <;> simp

@[simp] theorem State.dropBlock_mem (s : State) (c rix : Nat) : (State.dropBlock s c rix).mem = s.mem := rfl

@[simp] theorem State.leaveSaved_mem (s : State) (c rix : Nat) (b : Block) (v : Saved) :
    (State.leaveSaved s c rix b v).mem = s.mem := by
  unfold State.leaveSaved
  dsimp only
  simp only [State.enterWait_mem, State.dropBlock_mem, State.modCore_mem]
  split <;> simp

@[simp] theorem State.resetsOver_mem (s : State) (c : Nat) : (State.resetsOver s c).mem = s.mem := by
  simp [State.resetsOver]

@[simp] theorem State.releaseHeld_mem (s : State) (q : Nat) (l : List (Nat × Grid)) (a b : Bool) :
    (s.releaseHeld q l a b).mem = s.mem := by
  induction l generalizing s a b with
  | nil => rfl
  | cons x l ih =>
    obtain ⟨i, g⟩ := x
    unfold State.releaseHeld
    split
    · exact ih ..
    · split
      · simp [ih]
      · exact ih ..

@[simp] theorem State.clearDomains_mem (s : State) (g : Grid) : (State.clearDomains s g).mem = s.mem := by
  simp [State.clearDomains]

@[simp] theorem State.endPrefetches_mem (s : State) (c rix : Nat) : (State.endPrefetches s c rix).mem = s.mem := by
  simp [State.endPrefetches]

@[simp] theorem State.halt_mem (s : State) (c rix why : Nat) : (State.halt s c rix why).mem = s.mem := by
  simp [State.halt]

@[simp] theorem State.reenterCopies_mem (s : State) (c old new : Nat) (num : Nat → Nat) (l : List CReq) :
    (s.reenterCopies c old new num l).mem = s.mem := by
  induction l generalizing s with
  | nil => rfl
  | cons q l ih => unfold State.reenterCopies; split <;> simp [ih]

@[simp] theorem State.reenterMarbles_mem (s : State) (c new : Nat) (num : Nat → Nat) (l : List MReq) :
    (s.reenterMarbles c new num l).mem = s.mem := by
  induction l generalizing s with
  | nil => rfl
  | cons q l ih => unfold State.reenterMarbles; split <;> simp [ih]

@[simp] theorem State.returnMember_mem (s : State) (c rix : Nat) (v : Saved) : (State.returnMember s c rix v).mem = s.mem := by
  unfold State.returnMember
  split <;> simp

@[simp] theorem State.placeSaved_mem (s : State) (c : Nat) (v : Saved) (mem : List Byte) (folios : KMap Folio) (again : Bool) :
    (State.placeSaved s c v mem folios again).mem = s.mem := by
  simp [State.placeSaved]

@[simp] theorem State.placeDead_mem (s : State) (c : Nat) (v : Saved) (cause : BitVec 8) :
    (State.placeDead s c v cause).mem = s.mem := by
  simp [State.placeDead]

@[simp] theorem State.placeAgain_mem (s : State) (c : Nat) (v : Saved) : (State.placeAgain s c v).mem = s.mem := by
  rw [State.placeAgain]
  split
  · simp
  · simp
  · dsimp only
    split <;> simp

@[simp] theorem State.placeFused_mem (s : State) (c : Nat) (x : Waiting) (g : Grid) (r : Except (BitVec 8) (KMap Folio)) :
    (State.placeFused s c x g r).mem = s.mem := by
  refine (State.schedDone_mem _).trans ((State.foldl_mem (fun s j => State.placeNew_mem s _ _ _ _ _) _ _).trans ?_)
  exact (State.ite_mem ..).trans (by simp)

@[simp] theorem State.placeGrid_mem (s : State) (c : Nat) (x : Waiting) (g : Grid) :
    (State.placeGrid s c x g).mem = s.mem := by
  unfold State.placeGrid
  split <;> simp

@[simp] theorem State.placeFirst_mem (s : State) (c : Nat) : (State.placeFirst s c).mem = s.mem := by
  rw [State.placeFirst]
  repeat' split
  all_goals simp

@[simp] theorem State.preempt_mem (s : State) (c : Nat) : (State.preempt s c).mem = s.mem := by
  simp [State.preempt]

@[simp] theorem State.dropEngines_mem (s : State) (c : Nat) : (State.dropEngines s c).mem = s.mem := by
  simp [State.dropEngines]

@[simp] theorem State.coreReset_mem (s : State) (c : Nat) : (State.coreReset s c).mem = s.mem := by
  unfold State.coreReset
  dsimp only
  rw [State.modCore_mem, State.setHash_mem,
    State.foldl_mem (f := fun s i => s.setCtl (offObs c + 4 * i) 0) (fun s i => State.setCtl_mem s _ _)]
  simp

@[simp] theorem State.hostInval_mem (s : State) (mode pasid : Nat) : (State.hostInval s mode pasid).mem = s.mem := by
  unfold State.hostInval
  repeat' split
  all_goals simp

@[simp] theorem State.writeControl_mem (s : State) (mgmt : Bool) (off : Nat) (v : W32) :
    (State.writeControl s mgmt off v).mem = s.mem := by
  unfold State.writeControl
  repeat' split
  all_goals simp

@[simp] theorem State.writeCgrant_mem (s : State) (c : Nat) (v : W64) : (State.writeCgrant s c v).mem = s.mem := rfl

@[simp] theorem State.clearWstat_mem (s : State) (c : Nat) (v : W32) : (State.clearWstat s c v).mem = s.mem := rfl

@[simp] theorem State.writeSlew_mem (s : State) (g : Nat) (hi isCtl : Bool) (v : W32) :
    (State.writeSlew s g hi isCtl v).mem = s.mem := by
  simp [State.writeSlew]

@[simp] theorem State.writeObsctl_mem (s : State) (c : Nat) (v : W32) : (State.writeObsctl s c v).mem = s.mem := by
  simp [State.writeObsctl]

@[simp] theorem State.writeStopctl_mem (s : State) (c : Nat) (v : W32) (mode : Nat) :
    (State.writeStopctl s c v mode).mem = s.mem := rfl

@[simp] theorem State.writeResume_mem (s : State) (c : Nat) : (State.writeResume s c).mem = s.mem := by
  simp [State.writeResume]

@[simp] theorem State.dropCounts_mem (s : State) : (State.dropCounts s).mem = s.mem := by
  simp [State.dropCounts]

@[simp] theorem State.flushTrace_mem (s : State) : (State.flushTrace s).mem = s.mem := by
  simp [State.flushTrace]

@[simp] theorem State.enableTrace_mem (s : State) (en : Bool) : (State.enableTrace s en).mem = s.mem := rfl

@[simp] theorem State.placeWaiting_mem (s : State) : (State.placeWaiting s).mem = s.mem := by
  unfold State.placeWaiting
  split <;> simp

@[simp] theorem State.atsInval_mem (s : State) (pasid : Option Nat) (va : W64) (pages : Nat) :
    (State.atsInval s pasid va pages).mem = s.mem := rfl

@[simp] theorem State.noteReset_mem (s : State) (c cmd : Nat) : (State.noteReset s c cmd).mem = s.mem := rfl

@[simp] theorem State.writeConfig_mem (s : State) (pasidEn atsEn priEn : Bool) :
    (State.writeConfig s pasidEn atsEn priEn).mem = s.mem := rfl

@[simp] theorem State.outerAtomic_mem (s : State) (peer : Bool) (pa n : Nat) (kind : AccKind) (data cmp : Nat) :
    (State.outerAtomic s peer pa n kind data cmp).mem = s.mem := rfl

@[simp] theorem State.partBack_mem (s : State) (c slot : Nat) (q : CReq) (p : CPart) (lost : Nat × Nat → Bool) :
    (s.partBack c slot q p lost).mem = s.mem := by
  simp [State.partBack]

@[simp] theorem State.outerError_mem (s : State) (c : Nat) (peer : Bool) : (State.outerError s c peer).mem = s.mem := by
  unfold State.outerError
  dsimp only
  repeat' split
  all_goals simp

@[simp] theorem State.pinAssert_mem (s : State) : (State.pinAssert s).mem = s.mem := rfl

@[simp] theorem State.pinDeassert_mem (s : State) : (State.pinDeassert s).mem = s.mem := rfl

@[simp] theorem State.pressAsk_mem (s : State) : (State.pressAsk s).mem = s.mem := by
  simp [State.pressAsk]

@[simp] theorem State.pressRelease_mem (s : State) : (State.pressRelease s).mem = s.mem := by
  simp [State.pressRelease]

@[simp] theorem State.endpaperAll_mem (s : State) (code src a1 a2 a3 : Nat) :
    (State.endpaperAll s code src a1 a2 a3).mem = s.mem := rfl

@[simp] theorem State.pressBegin_mem (s : State) : (State.pressBegin s).mem = s.mem := by
  simp [State.pressBegin]

@[simp] theorem State.pressEnd_mem (s : State) : (State.pressEnd s).mem = s.mem := by
  simp [State.pressEnd]

@[simp] theorem State.bootSet_mem (s : State) (stage err : Nat) (kept : Bool) : (s.bootSet stage err kept).mem = s.mem := rfl

@[simp] theorem State.bootEnd_mem (s : State) (stage err : Nat) (kept : Bool) : (s.bootEnd stage err kept).mem = s.mem := rfl

@[simp] theorem State.bootNext_mem (s : State) (b : Booting) : (s.bootNext b).mem = s.mem := by
  unfold State.bootNext
  split <;> simp

/-- No step of the boot sequence changes memory. -/
@[simp] theorem State.bootStep_mem (s : State) : s.bootStep.mem = s.mem := by
  unfold State.bootStep
  dsimp only
  repeat' split
  all_goals simp

@[simp] theorem State.bootBegin_mem (s : State) (first err : Nat) (kept : Bool) : (s.bootBegin first err kept).mem = s.mem := rfl

@[simp] theorem State.attestBegin_mem (s : State) : (State.attestBegin s).mem = s.mem := by
  simp [State.attestBegin]

@[simp] theorem State.attestEnd_mem (s : State) : (State.attestEnd s).mem = s.mem := by
  simp [State.attestEnd]

@[simp] theorem State.endStrand_mem (s : State) (c : Nat) : (s.endStrand c).mem = s.mem := by
  unfold State.endStrand
  repeat' split
  all_goals simp

@[simp] theorem State.arriveLater_mem (s : State) (c w : Nat) (d : Deferred) : (s.arriveLater c w d).mem = s.mem := by
  unfold State.arriveLater
  repeat' split
  all_goals simp

@[simp] theorem State.endCycle_mem (s : State) (c : Nat) : (State.endCycle s c).mem = s.mem := by
  simp [State.endCycle]

@[simp] theorem State.setStage_mem (s : State) (c : Nat) (x : Stage) : (State.setStage s c x).mem = s.mem := rfl

@[simp] theorem State.hazAfter_mem (s b : State) (i : Instr) : (s.hazAfter b i).mem = s.mem := by
  unfold State.hazAfter
  dsimp only
  repeat' split
  all_goals simp

@[simp] theorem State.landOne_mem (s : State) (c : Nat) (x : Nat × Result) : (State.landOne s c x).mem = s.mem := by
  simp [State.landOne]

@[simp] theorem State.resultLands_mem (s : State) (c : Nat) : (State.resultLands s c).mem = s.mem := by
  unfold State.resultLands
  split <;> simp

@[simp] theorem State.wakeFound_mem (s : State) (c : Nat) (x : Option (Nat × Bool × Warp × Path)) :
    (State.wakeFound s c x).mem = s.mem := by
  unfold State.wakeFound
  split <;> simp

@[simp] theorem State.warpReady_mem (s : State) (c : Nat) : (State.warpReady s c).mem = s.mem := by
  unfold State.warpReady
  repeat' split
  all_goals simp

@[simp] theorem State.warpEdge_mem (s : State) (c w : Nat) (x : Warp) (alt : Bool) :
    (State.warpEdge s c w x alt).mem = s.mem := by
  unfold State.warpEdge
  dsimp only
  repeat' split
  all_goals simp

@[simp] theorem State.strandEdge_mem (s : State) (c w : Nat) (t : Strand) : (State.strandEdge s c w t).mem = s.mem := by
  unfold State.strandEdge
  split <;> simp

@[simp] theorem State.backEdge_mem (s : State) (c : Nat) : (State.backEdge s c).mem = s.mem := by
  unfold State.backEdge
  repeat' split
  all_goals simp

@[simp] theorem State.mergeOne_mem (s : State) (c : Nat) : (State.mergeOne s c).mem = s.mem := by
  unfold State.mergeOne
  split <;> simp

@[simp] theorem State.folldDone_mem (s : State) (c : Nat) : (State.folldDone s c).mem = s.mem := by
  unfold State.folldDone
  split <;> simp

@[simp] theorem State.collapse_mem (s : State) (c : Nat) : (State.collapse s c).mem = s.mem := by
  unfold State.collapse
  repeat' split
  all_goals simp

@[simp] theorem State.expand_mem (s : State) (c : Nat) : (State.expand s c).mem = s.mem := by
  unfold State.expand
  split <;> simp

@[simp] theorem State.deferredLprs_mem (s : State) (c : Nat) (d : Deferred) : (State.deferredLprs s c d).mem = s.mem := by
  refine State.foldl_mem (fun s x => ?_) _ _
  split <;> simp

@[simp] theorem State.strandFault_mem (s : State) (c : Nat) : (State.strandFault s c).mem = s.mem := by
  unfold State.strandFault
  repeat' split
  all_goals simp

@[simp] theorem State.snapResume_mem (s : State) (c : Nat) : (State.snapResume s c).mem = s.mem := rfl

@[simp] theorem State.trapEntry_mem (s : State) (c : Nat) : (State.trapEntry s c).mem = s.mem := by
  unfold State.trapEntry
  repeat' split
  all_goals simp

@[simp] theorem State.asyncTrap_mem (s : State) (c : Nat) : (State.asyncTrap s c).mem = s.mem := by
  unfold State.asyncTrap
  split <;> simp

@[simp] theorem State.lineRise_mem (s : State) (l : Nat) : (State.lineRise s l).mem = s.mem := by
  unfold State.lineRise
  exact State.foldl_mem (fun _ _ => by simp) _ _

@[simp] theorem State.releaseCore_mem (s : State) (c level : Nat) : (State.releaseCore s c level).mem = s.mem := by
  simp [State.releaseCore]

@[simp] theorem State.lineRelease_mem (s : State) (l : Nat) : (State.lineRelease s l).mem = s.mem := by
  simp [State.lineRelease]

@[simp] theorem State.promote_mem (s : State) (c : Nat) : (State.promote s c).mem = s.mem := by
  unfold State.promote
  split <;> simp

@[simp] theorem State.addDone_mem (s : State) (c slot id : Nat) : (State.addDone s c slot id).mem = s.mem := rfl

@[simp] theorem State.remoteStep_mem (s : State) (c : Nat) : (State.remoteStep s c).mem = s.mem := by
  unfold State.remoteStep
  split <;> simp

@[simp] theorem State.gateGive_mem (s : State) (sl : Nat) : (State.gateGive s sl).mem = s.mem := by
  unfold State.gateGive
  exact (State.foldl_mem (fun _ _ => by simp) _ _).trans (by simp)

@[simp] theorem State.shashStep_mem (s : State) (c : Nat) : (State.shashStep s c).mem = s.mem := by
  unfold State.shashStep
  split <;> simp

@[simp] theorem State.walkGone_mem (s : State) (c : Nat) (w : Walk) : (State.walkGone s c w).mem = s.mem := rfl

@[simp] theorem State.xlateFill_mem (s : State) (c id : Nat) (w : Walk) (st : W32) (t : Option Tlb) :
    (State.xlateFill s c id w st t).mem = s.mem := by
  unfold State.xlateFill
  split
  · rfl
  · refine (State.foldl_mem (fun s x => ?_) _ _).trans (by simp)
    dsimp only
    split <;> simp

@[simp] theorem State.walkServe_mem (s : State) (c : Nat) (w : Walk) (t : Tlb) (quire : Bool) :
    (State.walkServe s c w t quire).mem = s.mem := by
  unfold State.walkServe
  refine (State.foldl_mem (fun s x => ?_) _ _).trans ?_
  · split <;> simp
  · split
    · simp
    · split <;> simp

@[simp] theorem State.walkFail_mem (s : State) (c : Nat) (w : Walk) (r : Nat) : (State.walkFail s c w r).mem = s.mem := by
  unfold State.walkFail
  refine (State.foldl_mem (fun s x => ?_) _ _).trans (by simp)
  dsimp only
  split
  · simp
  · simp
  · simp
  · split <;> simp
  · simp
  · simp

@[simp] theorem State.walkSet_mem (s : State) (c : Nat) (w w' : Walk) : (State.walkSet s c w w').mem = s.mem := rfl

@[simp] theorem State.walkMet_mem (s : State) (c : Nat) (w : Walk) (t : Tlb) : (s.walkMet c w t).mem = s.mem := by
  simp [State.walkMet]

@[simp] theorem State.walkTake_mem (s : State) (c : Nat) (w : Walk) : (State.walkTake s c w).mem = s.mem := by
  unfold State.walkTake
  repeat' split
  all_goals simp

@[simp] theorem State.requestPage_mem (s : State) (c : Nat) (w : Walk) : (State.requestPage s c w).mem = s.mem := by
  simp [State.requestPage]

@[simp] theorem State.walkStep_mem (s : State) (c : Nat) : (State.walkStep s c).mem = s.mem := by
  unfold State.walkStep
  split <;> simp

@[simp] theorem State.atsTake_mem (s : State) (c : Nat) (w : Walk) (r : AtsAnswer) :
    (State.atsTake s c w r).mem = s.mem := by
  unfold State.atsTake
  split <;> simp

@[simp] theorem State.atsStep_mem (s : State) (c : Nat) (r : AtsAnswer) : (State.atsStep s c r).mem = s.mem := by
  unfold State.atsStep
  split <;> simp

@[simp] theorem State.prgTake_mem (s : State) (c : Nat) (w : Walk) (r : PrgAnswer) :
    (State.prgTake s c w r).mem = s.mem := by
  unfold State.prgTake
  split <;> simp

@[simp] theorem State.prgStep_mem (s : State) (c : Nat) (r : PrgAnswer) : (State.prgStep s c r).mem = s.mem := by
  unfold State.prgStep
  split <;> simp

@[simp] theorem State.answerLate_mem (s : State) (c stage : Nat) : (State.answerLate s c stage).mem = s.mem := by
  unfold State.answerLate
  split <;> simp

@[simp] theorem State.invalStep_mem (s : State) : (State.invalStep s).mem = s.mem := by
  unfold State.invalStep
  dsimp only
  repeat' split
  all_goals simp

@[simp] theorem State.acceptStep_mem (s : State) (c : Nat) : (State.acceptStep s c).mem = s.mem := by
  unfold State.acceptStep
  split <;> simp

theorem State.within_mem {s t : State} (c : Nat) (h : t.mem = s.mem) : (s.within t c).mem = s.mem := by
  unfold State.within
  split
  · exact h
  · rfl

@[simp] theorem State.lineOn_mem (s : State) (c : Nat) (two : Bool) : (State.lineOn s c two).mem = s.mem := rfl

@[simp] theorem State.makeMove_mem (s : State) (c : Nat) (m : Move) : (State.makeMove s c m).mem = s.mem := by
  unfold State.makeMove
  split
  · simp
  · simp
  · rename_i slot q
    dsimp only
    have h := State.within_mem c (State.copyTake_mem s c slot q (s.rixPasid c q.rix))
    split
    · split
      · exact (State.lineOn_mem ..).trans h
      · exact h
    · exact h

@[simp] theorem State.moveStep_mem (s : State) (c : Nat) : (State.moveStep s c).mem = s.mem := by
  unfold State.moveStep
  dsimp only
  rw [State.modClock_mem]
  split
  · refine (State.within_mem c (State.copyFetch_mem ..)).trans ?_
    split <;> simp
  · split <;> simp

@[simp] theorem State.returnStep_mem (s : State) (c : Nat) : (State.returnStep s c).mem = s.mem := by
  unfold State.returnStep
  split <;> simp

@[simp] theorem State.partLanded_mem (s : State) (c slot : Nat) (q : CReq) (p : CPart) :
    (State.partLanded s c slot q p).mem = s.mem := by
  simp [State.partLanded]

@[simp] theorem State.errorStep_mem (s : State) (c : Nat) : (State.errorStep s c).mem = s.mem := by
  unfold State.errorStep
  split <;> simp

@[simp] theorem State.pflStep_mem (s : State) (c : Nat) : (State.pflStep s c).mem = s.mem := by
  unfold State.pflStep
  split <;> simp

@[simp] theorem State.pageStep_mem (s : State) (c : Nat) : (State.pageStep s c).mem = s.mem := by
  unfold State.pageStep
  split <;> simp

@[simp] theorem State.transferStart_mem (s : State) (c : Nat) : (State.transferStart s c).mem = s.mem := by
  unfold State.transferStart
  split <;> simp

@[simp] theorem State.recordAsk_mem (s : State) (c : Nat) (r : MxRead) : (State.recordAsk s c r).mem = s.mem := rfl

@[simp] theorem State.recordStep_mem (s : State) (c : Nat) : (State.recordStep s c).mem = s.mem := by
  unfold State.recordStep
  repeat' split
  all_goals simp

@[simp] theorem State.allocGrant_mem (s : State) (c : Nat) : (State.allocGrant s c).mem = s.mem := by
  unfold State.allocGrant
  split <;> simp

@[simp] theorem State.freeRelease_mem (s : State) (c : Nat) : (State.freeRelease s c).mem = s.mem := by
  unfold State.freeRelease
  split <;> simp

@[simp] theorem State.deadlock_mem (s : State) (c : Nat) : (State.deadlock s c).mem = s.mem := by
  unfold State.deadlock
  split <;> simp

@[simp] theorem State.resetEnd_mem (s : State) (c : Nat) : (State.resetEnd s c).mem = s.mem := rfl

@[simp] theorem State.light_mem (s : State) (c : Nat) : (State.light s c).mem = s.mem := rfl

@[simp] theorem State.unlight_mem (s : State) (c : Nat) : (State.unlight s c).mem = s.mem := rfl

@[simp] theorem State.slewOne_mem (s : State) (g : Nat) : (State.slewOne s g).mem = s.mem := by
  unfold State.slewOne
  dsimp only
  split
  · rfl
  · refine State.foldl_mem (fun s i => ?_) _ _
    split <;> simp

@[simp] theorem State.slewStep_mem (s : State) : (State.slewStep s).mem = s.mem := by
  exact State.foldl_mem (fun _ _ => by simp) _ _

@[simp] theorem State.marbleAcceptStep_mem (s : State) (c : Nat) : (State.marbleAcceptStep s c).mem = s.mem := by
  unfold State.marbleAcceptStep
  split <;> simp

@[simp] theorem State.candidateStep_mem (s : State) (c : Nat) : (State.candidateStep s c).mem = s.mem := by
  unfold State.candidateStep
  repeat' split
  all_goals simp

@[simp] theorem State.deadlineStep_mem (s : State) (c : Nat) : (State.deadlineStep s c).mem = s.mem := rfl

@[simp] theorem State.mxResetCmd_mem (s : State) (c : Nat) : (State.mxResetCmd s c).mem = s.mem := by
  simp [State.mxResetCmd]

@[simp] theorem State.coreResetCmd_mem (s : State) (c : Nat) : (State.coreResetCmd s c).mem = s.mem := by
  simp [State.coreResetCmd]

@[simp] theorem State.controlWrite_mem (s : State) (mgmt : Bool) (off : Nat) (v : W32) :
    (State.controlWrite s mgmt off v).mem = s.mem := by
  unfold State.controlWrite
  dsimp only
  split <;> simp

@[simp] theorem State.grantStep_mem (s : State) (c : Nat) : (State.grantStep s c).mem = s.mem := rfl

@[simp] theorem State.settleStep_mem (s : State) (c : Nat) : (State.settleStep s c).mem = s.mem := rfl

@[simp] theorem State.hangStep_mem (s : State) (c : Nat) : (State.hangStep s c).mem = s.mem := by
  simp [State.hangStep]

@[simp] theorem State.mxhangStep_mem (s : State) (c : Nat) : (State.mxhangStep s c).mem = s.mem := by
  simp [State.mxhangStep]

@[simp] theorem State.stallStep_mem (s : State) (c : Nat) : (State.stallStep s c).mem = s.mem := rfl

@[simp] theorem State.stopStep_mem (s : State) (c : Nat) : (State.stopStep s c).mem = s.mem := by
  unfold State.stopStep
  split <;> simp

@[simp] theorem State.clearBcm_mem (s : State) (c : Nat) : (State.clearBcm s c).mem = s.mem := rfl

@[simp] theorem State.clearDiverged_mem (s : State) (c : Nat) : (State.clearDiverged s c).mem = s.mem := rfl

@[simp] theorem State.syncStep_mem (s : State) : (State.syncStep s).mem = s.mem := by
  simp [State.syncStep]

@[simp] theorem State.without_mem (s : State) (i : Instr) : (State.without s i).mem = s.mem := rfl

@[simp] theorem State.drainPort_mem (s : State) (n : Nat) : (State.drainPort s n).mem = s.mem := by
  simp [State.drainPort]

@[simp] theorem State.advance_mem (s : State) : (State.advance s).mem = s.mem := by
  simp [State.advance]

@[simp] theorem State.withFetchWord_mem (s : State) (nbits w : Nat) : (State.withFetchWord s nbits w).mem = s.mem := rfl

end Sys2Proof.Machine
end

