-- ==== Sys2Proof/Laws/Keeps.lean ====
section
/-! SUPPORT. Instructions that store nothing: the checks of the meanings, and each meaning but those of stores, atomics and
transfers that may spill, end with every byte of memory as it was (`Body.Keeps`). -/

set_option Elab.async false

namespace Sys2Proof.Machine

set_option linter.unusedSimpArgs false
set_option linter.unusedTactic false
set_option linter.unreachableTactic false

/-! ## Ends and checks -/

theorem Ends.ok {m : SMap Byte} {t : State} (h : t.mem = m) : Ends m (.ok t) := h
theorem Ends.trap {m : SMap Byte} {c : BitVec 8} {l : W32} : Ends m (.error (.trap c l)) := trivial
theorem Ends.trapWith {m : SMap Byte} {c : BitVec 8} {l : W32} {f : State → State} (h : ∀ s, (f s).mem = s.mem) :
    Ends m (.error (.trapWith c l f)) := h
theorem Ends.wait {m : SMap Byte} {w : Park} {f : State → State} (h : ∀ s, (f s).mem = s.mem) :
    Ends m (.error (.wait w f)) := h
theorem Checks.ok {α : Type} {a : α} : Checks (Except.ok a : Except Stop α) := trivial
theorem Checks.trap {α : Type} {c : BitVec 8} {l : W32} : Checks (.error (.trap c l) : Except Stop α) := trivial
theorem Checks.trapWith {α : Type} {c : BitVec 8} {l : W32} {f : State → State} (h : ∀ s, (f s).mem = s.mem) :
    Checks (.error (.trapWith c l f) : Except Stop α) := h
theorem Checks.wait {α : Type} {w : Park} {f : State → State} (h : ∀ s, (f s).mem = s.mem) :
    Checks (.error (.wait w f) : Except Stop α) := h

/-- A check, then the rest. -/
theorem Ends.bind {α : Type} {m : SMap Byte} {x : Except Stop α} {f : α → Except Stop State} (h : Checks x)
    (hf : ∀ a, Ends m (f a)) : Ends m (x >>= f) := by
  cases x with
  | ok a => exact hf a
  | error r => exact h

/-- A step of the meaning, then the rest. -/
theorem Ends.step {m : SMap Byte} {x : Except Stop State} {f : State → Except Stop State} (h : Ends m x)
    (hf : ∀ t, t.mem = m → Ends m (f t)) : Ends m (x >>= f) := by
  cases x with
  | ok a => exact hf a h
  | error r => exact h

/-- A check, then another. -/
theorem Checks.bind {α β : Type} {x : Except Stop α} {f : α → Except Stop β} (h : Checks x) (hf : ∀ a, Checks (f a)) :
    Checks (x >>= f) := by
  cases x with
  | ok a => exact hf a
  | error r => exact h

/-! The same as equivalences, which rewriting follows through a meaning. -/

@[simp] theorem Ends.bind_iff {α : Type} {m : SMap Byte} {x : Except Stop α} {f : α → Except Stop State} :
    Ends m (x >>= f) ↔ Checks x ∧ ∀ a, x = .ok a → Ends m (f a) := by
  cases x with
  | ok a => exact ⟨fun h => ⟨trivial, fun b hb => by cases hb; exact h⟩, fun h => h.2 a rfl⟩
  | error r => exact ⟨fun h => ⟨h, nofun⟩, fun h => h.1⟩
@[simp] theorem Ends.ok_iff {m : SMap Byte} {t : State} : Ends m (.ok t) ↔ t.mem = m := Iff.rfl
@[simp] theorem Ends.trap_iff {m : SMap Byte} {c : BitVec 8} {l : W32} : Ends m (.error (.trap c l)) ↔ True := Iff.rfl
@[simp] theorem Ends.trapWith_iff {m : SMap Byte} {c : BitVec 8} {l : W32} {f : State → State} :
    Ends m (.error (.trapWith c l f)) ↔ ∀ s, (f s).mem = s.mem := Iff.rfl
@[simp] theorem Ends.wait_iff {m : SMap Byte} {w : Park} {f : State → State} :
    Ends m (.error (.wait w f)) ↔ ∀ s, (f s).mem = s.mem := Iff.rfl
@[simp] theorem Checks.ok_iff {α : Type} {a : α} : Checks (Except.ok a : Except Stop α) ↔ True := Iff.rfl
@[simp] theorem Checks.trap_iff {α : Type} {c : BitVec 8} {l : W32} :
    Checks (.error (.trap c l) : Except Stop α) ↔ True := Iff.rfl
@[simp] theorem Checks.trapWith_iff {α : Type} {c : BitVec 8} {l : W32} {f : State → State} :
    Checks (.error (.trapWith c l f) : Except Stop α) ↔ ∀ s, (f s).mem = s.mem := Iff.rfl
@[simp] theorem Checks.wait_iff {α : Type} {w : Park} {f : State → State} :
    Checks (.error (.wait w f) : Except Stop α) ↔ ∀ s, (f s).mem = s.mem := Iff.rfl
@[simp] theorem Checks.await_iff {e : Env} {w : Park} {f : State → State} :
    Checks (e.await w f) ↔ (e.path.granted.contains w = false → ∀ s, (f s).mem = s.mem) := by
  unfold Env.await
  cases e.path.granted.contains w <;> simp
@[simp] theorem Ends.once_iff {m : SMap Byte} {e : Env} {a : Opnd} {f : Nat → W32 → Except Stop State} {s : State} :
    Ends m (e.once a f s) ↔ (e.elected = none → s.mem = m) ∧ ∀ l, e.elected = some l → Ends m (f l (a.val32 e l)) := by
  unfold Env.once
  cases e.elected <;> simp

@[simp] theorem Checks.need {b : Bool} {c : BitVec 8} {l : W32} : Checks (need b c l) := by
  unfold Machine.need; split <;> trivial
@[simp] theorem Checks.field {e : Env} {b : Bool} : Checks (e.field b) := Checks.need
@[simp] theorem Checks.enc {e : Env} {b : Bool} : Checks (e.enc b) := Checks.need
theorem Checks.await {e : Env} {w : Park} {f : State → State} (h : ∀ s, (f s).mem = s.mem) : Checks (e.await w f) := by
  unfold Env.await; split
  · trivial
  · exact h
@[simp] theorem Checks.sources {e : Env} {l : List Opnd} : Checks (e.sources l) := Checks.bind Checks.enc fun _ => Checks.field
@[simp] theorem Checks.landed {e : Env} {l : List Opnd} : Checks (e.landed l) := by
  unfold Env.landed; split
  · trivial
  · exact fun _ => rfl
@[simp] theorem Checks.wLanded {e : Env} {l : List Nat} : Checks (e.wLanded l) := by
  unfold Env.wLanded; split
  · exact fun _ => rfl
  · trivial
@[simp] theorem Checks.dstV {e : Env} {d : Code} {w : Bool} : Checks (e.dstV d w) := Checks.field
@[simp] theorem Checks.dstW {e : Env} {d : Code} {w : Bool} : Checks (e.dstW d w) := Checks.field
@[simp] theorem Checks.dstVW {e : Env} {d : Code} {w : Bool} : Checks (e.dstVW d w) := Checks.field
@[simp] theorem Checks.dstQ {e : Env} {d : Code} : Checks (e.dstQ d) := Checks.field
@[simp] theorem Checks.plainSrc {e : Env} {u : Nat} {c : Code} : Checks (e.plainSrc u c) := Checks.bind Checks.field fun _ => trivial
@[simp] theorem Checks.pairSrc {e : Env} {u : Nat} {c : Code} : Checks (e.pairSrc u c) := Checks.bind Checks.field fun _ => trivial
@[simp] theorem Checks.notLane {e : Env} : Checks e.notLane := Checks.enc
@[simp] theorem Checks.notVector {e : Env} : Checks e.notVector := Checks.enc
@[simp] theorem Checks.dstGroup {e : Env} {d : Code} {n : Nat} : Checks (e.dstGroup d n) := Checks.field
@[simp] theorem Checks.flagsQuiet {e : Env} : Checks e.flagsQuiet := by
  unfold Env.flagsQuiet; split
  · trivial
  · exact fun _ => rfl
@[simp] theorem Checks.settled {e : Env} {s : State} {d : Bool} : Checks (e.settled s d) := by
  unfold Env.settled; split
  · trivial
  · exact fun _ => rfl
@[simp] theorem Checks.dataLanded {e : Env} {c : Code} {k : Nat} : Checks (e.dataLanded c k) := by
  unfold Env.dataLanded; split
  · trivial
  · exact fun _ => rfl
@[simp] theorem Checks.barPlace {e : Env} {s : State} {sp : BitVec 2} {ad : Opnd} {l : Nat} {w i : Bool} :
    Checks (e.barPlace s sp ad l w i) := by
  unfold Env.barPlace
  refine Checks.bind Checks.need fun _ => ?_
  split <;> first | trivial | exact fun _ => rfl | exact Checks.bind Checks.need fun _ => trivial
@[simp] theorem Checks.notLast {e : Env} : Checks e.notLast := Checks.need
@[simp] theorem Checks.conv {e : Env} : Checks e.conv := Checks.need
@[simp] theorem Checks.jumpReg {e : Env} {a : Code} {w : Bool} : Checks (e.jumpReg a w) := Checks.field
@[simp] theorem Checks.resident {e : Env} {i l : W32} : Checks (e.resident i l) :=
  Checks.bind Checks.need fun _ => trivial
@[simp] theorem Checks.straight {e : Env} {i l : W32} : Checks (e.straight i l) := Checks.need
@[simp] theorem Checks.barOrder {e : Env} {w : Bool} {s : State} : Checks (e.barOrder w s) := by
  have h : Checks (if w && e.relBehind s true then e.settled s true else .ok ()) := by
    split
    · exact Checks.settled
    · trivial
  unfold Env.barOrder
  dsimp only
  split
  · exact Checks.bind Checks.settled fun _ => h
  · exact h
@[simp] theorem Checks.mxOpen {e : Env} {s : State} : Checks (e.mxOpen s) := by
  unfold Env.mxOpen; split
  · trivial
  · exact fun _ => rfl
@[simp] theorem Checks.folldCanonical {e : Env} {n : Nat} {va : W64} : Checks (e.folldCanonical n va) := by
  unfold Env.folldCanonical; split
  · trivial
  · exact fun _ => rfl
@[simp] theorem Checks.indirect {e : Env} {a : Code} {b : Bool} : Checks (e.indirect a b) := by
  unfold Env.indirect
  refine Checks.bind Checks.need fun _ => Checks.bind Checks.need fun _ => Checks.bind Checks.need fun _ => ?_
  exact Checks.need
@[simp] theorem Checks.mxNeed {e : Env} {b : Bool} {c : BitVec 8} {l : W32} : Checks (e.mxNeed b c l) := by
  unfold Env.mxNeed; split
  · trivial
  · exact fun s => Env.unqueue_mem e s
@[simp] theorem Checks.bank {e : Env} {c : Code} : Checks (e.bank c) := by
  unfold Env.bank
  repeat' split
  all_goals first | trivial | exact fun s => Env.unqueue_mem e s
@[simp] theorem Checks.whole {e : Env} : Checks e.whole := Checks.mxNeed
@[simp] theorem Checks.fragLanded {e : Env} {c : Code} {n : Nat} : Checks (e.fragLanded c n) := by
  unfold Env.fragLanded; split
  · exact fun _ => rfl
  · trivial
@[simp] theorem Checks.entryIndex {e : Env} {b : Block} {m : BitVec 3} {l : W32} : Checks (e.entryIndex b m l) := by
  unfold Env.entryIndex
  dsimp only
  repeat' first | exact Checks.mxNeed | (refine Checks.bind Checks.mxNeed fun _ => ?_) | split
  all_goals first | trivial | exact fun s => Env.unqueue_mem e s

theorem Ends.mxTurn {e : Env} {x : MxEntry} {s : State} : Ends s.mem (e.mxTurn x s) := by
  unfold Env.mxTurn; split
  · exact Env.mxTake_mem ..
  · exact fun t => Env.mxJoin_mem ..
@[simp] theorem Ends.mxTurn_checks {e : Env} {x : MxEntry} {s : State} : Checks (e.mxTurn x s) := by
  unfold Env.mxTurn; split
  · trivial
  · exact fun t => Env.mxJoin_mem ..
theorem Env.mxTurn_mem {e : Env} {x : MxEntry} {s t : State} (h : e.mxTurn x s = .ok t) : t.mem = s.mem := by
  have := @Ends.mxTurn e x s
  rwa [h] at this
theorem Ends.once {e : Env} {a : Opnd} {f : Nat → W32 → Except Stop State} {s : State} (h : ∀ l x, Ends s.mem (f l x)) :
    Ends s.mem (e.once a f s) := by
  unfold Env.once; split
  · rfl
  · exact h ..
@[simp] theorem Ends.breakpoint {e : Env} {n : Nat} {s : State} : Ends s.mem (e.breakpoint n s) := by
  unfold Env.breakpoint; split
  · rfl
  · trivial
@[simp] theorem Ends.invalidate {e : Env} {v : Cover} {s : State} : Ends s.mem (e.invalidate v s) :=
  Ends.bind (by split <;> first | trivial | exact Checks.settled) fun _ =>
    Ends.bind (Checks.await fun _ => State.startInval_mem ..) fun _ => rfl

/-! ## The meanings -/

theorem laneOp_keeps (unit lat : Nat) (src : List Opnd) (d : Code) (wideD : Bool) (f : Env → Nat → W64) : (laneOp
    unit lat src d wideD f).Keeps := by
  intro e s
  unfold laneOp
  repeat' first | intro _ | apply And.intro | split | simp only [Ends.bind_iff, Ends.ok_iff, Checks.sources,
      Checks.landed, Checks.dstV, true_and, forall_const]
  all_goals simp

theorem predOp_keeps (unit lat : Nat) (src : List Opnd) (d : Code) (f : Env → Nat → Bool) : (predOp unit lat src d
    f).Keeps := by
  intro e s
  unfold predOp
  repeat' first | intro _ | apply And.intro | split | simp only [Ends.bind_iff, Ends.ok_iff, Checks.sources,
      Checks.landed, Checks.dstQ, true_and, forall_const]
  all_goals simp

theorem uniformOp_keeps (unit lat : Nat) (src : List Opnd) (d : Code) (wideD : Bool) (f : Env → W64) : (uniformOp
    unit lat src d wideD f).Keeps := by
  intro e s
  unfold uniformOp
  repeat' first | intro _ | apply And.intro | split | simp only [Ends.bind_iff, Ends.ok_iff, Checks.sources,
      Checks.landed, Checks.dstW, true_and, forall_const]
  all_goals simp

theorem iuBin_keeps (lat : Nat) (f : F2) (G : BitVec 3 → W64 → W64 → W64) : (iuBin lat f G).Keeps := by
  unfold iuBin
  apply laneOp_keeps

theorem iuBinI_keeps (lat : Nat) (f : FI) (G : BitVec 3 → W64 → W64 → W64) : (iuBinI lat f G).Keeps := by
  unfold iuBinI
  apply laneOp_keeps

theorem iuUn_keeps (lat : Nat) (f : F2) (G : BitVec 3 → W64 → W64) : (iuUn lat f G).Keeps := by
  unfold iuUn
  apply laneOp_keeps

theorem iuTri_keeps (lat : Nat) (f : F3) (G : BitVec 3 → W64 → W64 → W64 → W64) : (iuTri lat f G).Keeps := by
  unfold iuTri
  apply laneOp_keeps

theorem bodyIadd_keeps (f : F2) : (bodyIadd f).Keeps := by
  unfold bodyIadd
  apply iuBin_keeps

theorem bodyIaddI_keeps (f : FI) : (bodyIaddI f).Keeps := by
  unfold bodyIaddI
  apply iuBinI_keeps

theorem bodyIsub_keeps (f : F2) : (bodyIsub f).Keeps := by
  unfold bodyIsub
  apply iuBin_keeps

theorem bodyIsubI_keeps (f : FI) : (bodyIsubI f).Keeps := by
  unfold bodyIsubI
  apply iuBinI_keeps

theorem bodyImul_keeps (f : F2) : (bodyImul f).Keeps := by
  unfold bodyImul
  apply iuBin_keeps

theorem bodyImulI_keeps (f : FI) : (bodyImulI f).Keeps := by
  unfold bodyImulI
  apply iuBinI_keeps

theorem bodyImulh_keeps (f : F2) : (bodyImulh f).Keeps := by
  unfold bodyImulh
  apply iuBin_keeps

theorem bodyImulhI_keeps (f : FI) : (bodyImulhI f).Keeps := by
  unfold bodyImulhI
  apply iuBinI_keeps

theorem bodyImad_keeps (f : F3) : (bodyImad f).Keeps := by
  unfold bodyImad
  apply iuTri_keeps

theorem bodyIdiv_keeps (f : F2) : (bodyIdiv f).Keeps := by
  unfold bodyIdiv
  apply iuBin_keeps

theorem bodyIdivI_keeps (f : FI) : (bodyIdivI f).Keeps := by
  unfold bodyIdivI
  apply iuBinI_keeps

theorem bodyIrem_keeps (f : F2) : (bodyIrem f).Keeps := by
  unfold bodyIrem
  apply iuBin_keeps

theorem bodyIremI_keeps (f : FI) : (bodyIremI f).Keeps := by
  unfold bodyIremI
  apply iuBinI_keeps

theorem bodyImin_keeps (f : F2) : (bodyImin f).Keeps := by
  unfold bodyImin
  apply iuBin_keeps

theorem bodyIminI_keeps (f : FI) : (bodyIminI f).Keeps := by
  unfold bodyIminI
  apply iuBinI_keeps

theorem bodyImax_keeps (f : F2) : (bodyImax f).Keeps := by
  unfold bodyImax
  apply iuBin_keeps

theorem bodyImaxI_keeps (f : FI) : (bodyImaxI f).Keeps := by
  unfold bodyImaxI
  apply iuBinI_keeps

theorem bodyIabs_keeps (f : F2) : (bodyIabs f).Keeps := by
  unfold bodyIabs
  apply iuUn_keeps

theorem bodyIneg_keeps (f : F2) : (bodyIneg f).Keeps := by
  unfold bodyIneg
  apply iuUn_keeps

theorem bodyIadds_keeps (f : F2) : (bodyIadds f).Keeps := by
  unfold bodyIadds
  apply iuBin_keeps

theorem bodyIaddsI_keeps (f : FI) : (bodyIaddsI f).Keeps := by
  unfold bodyIaddsI
  apply iuBinI_keeps

theorem bodyClamp_keeps (f : F3) : (bodyClamp f).Keeps := by
  unfold bodyClamp
  apply iuTri_keeps

theorem bodyIsad_keeps (f : F3) : (bodyIsad f).Keeps := by
  unfold bodyIsad
  apply laneOp_keeps

theorem bodyIdot4_keeps (f : F3) : (bodyIdot4 f).Keeps := by
  unfold bodyIdot4
  apply laneOp_keeps

theorem bodyAnd_keeps (f : F2) : (bodyAnd f).Keeps := by
  unfold bodyAnd
  apply iuBin_keeps

theorem bodyAndI_keeps (f : FI) : (bodyAndI f).Keeps := by
  unfold bodyAndI
  apply iuBinI_keeps

theorem bodyOr_keeps (f : F2) : (bodyOr f).Keeps := by
  unfold bodyOr
  apply iuBin_keeps

theorem bodyOrI_keeps (f : FI) : (bodyOrI f).Keeps := by
  unfold bodyOrI
  apply iuBinI_keeps

theorem bodyXor_keeps (f : F2) : (bodyXor f).Keeps := by
  unfold bodyXor
  apply iuBin_keeps

theorem bodyXorI_keeps (f : FI) : (bodyXorI f).Keeps := by
  unfold bodyXorI
  apply iuBinI_keeps

theorem bodyAndn_keeps (f : F2) : (bodyAndn f).Keeps := by
  unfold bodyAndn
  apply iuBin_keeps

theorem bodyAndnI_keeps (f : FI) : (bodyAndnI f).Keeps := by
  unfold bodyAndnI
  apply iuBinI_keeps

theorem bodyNot_keeps (f : F2) : (bodyNot f).Keeps := by
  unfold bodyNot
  apply iuUn_keeps

theorem bodyShl_keeps (f : F2) : (bodyShl f).Keeps := by
  unfold bodyShl
  apply iuBin_keeps

theorem bodyShlI_keeps (f : FI) : (bodyShlI f).Keeps := by
  unfold bodyShlI
  apply iuBinI_keeps

theorem bodyShr_keeps (f : F2) : (bodyShr f).Keeps := by
  unfold bodyShr
  apply iuBin_keeps

theorem bodyShrI_keeps (f : FI) : (bodyShrI f).Keeps := by
  unfold bodyShrI
  apply iuBinI_keeps

theorem bodySar_keeps (f : F2) : (bodySar f).Keeps := by
  unfold bodySar
  apply iuBin_keeps

theorem bodySarI_keeps (f : FI) : (bodySarI f).Keeps := by
  unfold bodySarI
  apply iuBinI_keeps

theorem bodyRotl_keeps (f : F2) : (bodyRotl f).Keeps := by
  unfold bodyRotl
  apply iuBin_keeps

theorem bodyRotlI_keeps (f : FI) : (bodyRotlI f).Keeps := by
  unfold bodyRotlI
  apply iuBinI_keeps

theorem bodyFunnel_keeps (f : F3) : (bodyFunnel f).Keeps := by
  unfold bodyFunnel
  apply laneOp_keeps

theorem bodyBfx_keeps (f : F3) : (bodyBfx f).Keeps := by
  unfold bodyBfx
  apply iuTri_keeps

theorem bodyBfi_keeps (f : F3) : (bodyBfi f).Keeps := by
  unfold bodyBfi
  apply iuTri_keeps

theorem bodyPopc_keeps (f : F2) : (bodyPopc f).Keeps := by
  unfold bodyPopc
  apply iuUn_keeps

theorem bodyClz_keeps (f : F2) : (bodyClz f).Keeps := by
  unfold bodyClz
  apply iuUn_keeps

theorem bodyCtz_keeps (f : F2) : (bodyCtz f).Keeps := by
  unfold bodyCtz
  apply iuUn_keeps

theorem bodyBrev_keeps (f : F2) : (bodyBrev f).Keeps := by
  unfold bodyBrev
  apply iuUn_keeps

theorem bodyBshuf_keeps (f : F3) : (bodyBshuf f).Keeps := by
  unfold bodyBshuf
  apply laneOp_keeps

theorem bodyLea_keeps (f : F2) : (bodyLea f).Keeps := by
  unfold bodyLea
  apply laneOp_keeps

theorem bodyLeaI_keeps (f : FI) : (bodyLeaI f).Keeps := by
  unfold bodyLeaI
  apply laneOp_keeps

theorem bodyIcmp_keeps (f : F2) : (bodyIcmp f).Keeps := by
  unfold bodyIcmp
  apply predOp_keeps

theorem bodyIcmpI_keeps (f : FI) : (bodyIcmpI f).Keeps := by
  unfold bodyIcmpI
  apply predOp_keeps

theorem bodyIsel_keeps (f : F3) : (bodyIsel f).Keeps := by
  unfold bodyIsel
  apply laneOp_keeps

theorem bodyPlop_keeps (f : F2) : (bodyPlop f).Keeps := by
  unfold bodyPlop
  apply predOp_keeps

theorem bodyMovh_keeps (f : F2) : (bodyMovh f).Keeps := by
  unfold bodyMovh
  apply iuBin_keeps

theorem bodyMovhI_keeps (f : FI) : (bodyMovhI f).Keeps := by
  unfold bodyMovhI
  apply iuBinI_keeps

theorem bodyMovi_keeps (f : FI) : (bodyMovi f).Keeps := by
  unfold bodyMovi
  apply laneOp_keeps

theorem bodyCvti_keeps (f : F2) : (bodyCvti f).Keeps := by
  unfold bodyCvti
  apply laneOp_keeps

theorem bodyVote_keeps (f : F2) : (bodyVote f).Keeps := by
  intro e s
  unfold bodyVote
  repeat' first | exact uniformOp_keeps _ _ _ _ _ _ _ _ | intro _ | apply And.intro | split | simp only
      [Ends.bind_iff, Checks.notLane, true_and, forall_const]

theorem bodyRdlane_keeps (f : F2) : (bodyRdlane f).Keeps := by
  intro e s
  unfold bodyRdlane
  repeat' first | exact uniformOp_keeps _ _ _ _ _ _ _ _ | intro _ | apply And.intro | split | simp only
      [Ends.bind_iff, Checks.field, Checks.notLane, true_and, forall_const]

theorem bodyRdlaneI_keeps (f : FI) : (bodyRdlaneI f).Keeps := by
  intro e s
  unfold bodyRdlaneI
  repeat' first | exact uniformOp_keeps _ _ _ _ _ _ _ _ | intro _ | apply And.intro | split | simp only
      [Ends.bind_iff, Checks.field, Checks.notLane, true_and, forall_const]

theorem bodyFind1_keeps (f : F2) : (bodyFind1 f).Keeps := by
  intro e s
  unfold bodyFind1
  repeat' first | exact laneOp_keeps _ _ _ _ _ _ _ _ | intro _ | apply And.intro | split | simp only [Ends.bind_iff,
      Checks.field, Checks.notLane, true_and, forall_const]

theorem bodyIredw_keeps (f : F2) : (bodyIredw f).Keeps := by
  intro e s
  unfold bodyIredw
  repeat' first | exact uniformOp_keeps _ _ _ _ _ _ _ _ | intro _ | apply And.intro | split | simp only
      [Ends.bind_iff, Checks.notLane, true_and, forall_const]

theorem bodyMov_keeps (f : MV) : (bodyMov f).Keeps := by
  intro e s
  unfold bodyMov
  repeat' first | exact laneOp_keeps _ _ _ _ _ _ _ _ | intro _ | apply And.intro | split | simp only [Ends.bind_iff,
      Ends.ok_iff, Ends.wait_iff, Checks.wait_iff, Checks.enc, Checks.sources, Checks.landed, true_and, forall_const]
  all_goals simp

theorem floatOp_keeps (unit lat : Nat) (src : List Opnd) (chk : Env → Except Stop Unit) (regs : Env → List Nat) (nf :
    Bool) (g : Env → Nat → W32 → List W32 × Nat × W32) (h : ∀ e, Checks (chk e)) : (floatOp unit lat src chk regs nf
        g).Keeps := by
  intro e s
  unfold floatOp
  simp only [Ends.bind_iff, Ends.ok_iff, Checks.sources, Checks.landed, true_and, forall_const]
  simp [h]

theorem elemsOp_keeps (unit lat : Nat) (f : Fmt) (src : List Opnd) (d : Code) (rnd : BitVec 3) (nf : Bool) (g : Env →
    Nat → Nat → Nat → Res) : (elemsOp unit lat f src d rnd nf g).Keeps := by
  unfold elemsOp
  exact floatOp_keeps _ _ _ _ _ _ _ fun _ => Checks.dstV

theorem fuBin_keeps (f : F2) (G : Fmt → Nat → Nat → Nat → Res) : (fuBin f G).Keeps := by
  unfold fuBin
  apply elemsOp_keeps

theorem fuBinI_keeps (f : FI) (G : Fmt → Nat → Nat → Nat → Res) : (fuBinI f G).Keeps := by
  unfold fuBinI
  apply elemsOp_keeps

theorem fuTri_keeps (f : F3) (G : Fmt → Nat → Nat → Nat → Nat → Res) : (fuTri f G).Keeps := by
  unfold fuTri
  apply elemsOp_keeps

theorem bodyFadd_keeps (f : F2) : (bodyFadd f).Keeps := by
  unfold bodyFadd
  apply fuBin_keeps

theorem bodyFaddI_keeps (f : FI) : (bodyFaddI f).Keeps := by
  unfold bodyFaddI
  apply fuBinI_keeps

theorem bodyFsub_keeps (f : F2) : (bodyFsub f).Keeps := by
  unfold bodyFsub
  apply fuBin_keeps

theorem bodyFsubI_keeps (f : FI) : (bodyFsubI f).Keeps := by
  unfold bodyFsubI
  apply fuBinI_keeps

theorem bodyFmul_keeps (f : F2) : (bodyFmul f).Keeps := by
  unfold bodyFmul
  apply fuBin_keeps

theorem bodyFmulI_keeps (f : FI) : (bodyFmulI f).Keeps := by
  unfold bodyFmulI
  apply fuBinI_keeps

theorem fmaBody_keeps (f : F3) (G : Fmt → Nat → Nat → Nat → Nat → Res) : (fmaBody f G).Keeps := by
  intro e s
  have h := fuTri_keeps f G e s
  unfold fmaBody
  cases h1 : fuTri f G e s with
  | error x => rw [h1] at h; exact h
  | ok t =>
    rw [h1] at h
    simp only [Ends.ok_iff] at h
    show Ends s.mem (if _ then _ else _)
    repeat' split
    · exact h
    · exact fun _ => rfl
    · exact h

theorem bodyFfma_keeps (f : F3) : (bodyFfma f).Keeps := fmaBody_keeps f _

theorem bodyFnma_keeps (f : F3) : (bodyFnma f).Keeps := fmaBody_keeps f _

theorem bodyFmin_keeps (f : F2) : (bodyFmin f).Keeps := by
  unfold bodyFmin
  apply fuBin_keeps

theorem bodyFminI_keeps (f : FI) : (bodyFminI f).Keeps := by
  unfold bodyFminI
  apply fuBinI_keeps

theorem bodyFmax_keeps (f : F2) : (bodyFmax f).Keeps := by
  unfold bodyFmax
  apply fuBin_keeps

theorem bodyFmaxI_keeps (f : FI) : (bodyFmaxI f).Keeps := by
  unfold bodyFmaxI
  apply fuBinI_keeps

theorem bodyFscale_keeps (f : F2) : (bodyFscale f).Keeps := by
  unfold bodyFscale
  apply fuBin_keeps

theorem bodyFscaleI_keeps (f : FI) : (bodyFscaleI f).Keeps := by
  unfold bodyFscaleI
  apply fuBinI_keeps

theorem signOp_keeps (f : F2) (g : Fmt → Nat → Nat) : (signOp f g).Keeps := by
  unfold signOp
  apply laneOp_keeps

theorem bodyFabs_keeps (f : F2) : (bodyFabs f).Keeps := by
  unfold bodyFabs
  apply signOp_keeps

theorem bodyFneg_keeps (f : F2) : (bodyFneg f).Keeps := by
  unfold bodyFneg
  apply signOp_keeps

theorem bodyFdot2_keeps (f : F3) : (bodyFdot2 f).Keeps := by
  unfold bodyFdot2
  apply elemsOp_keeps

theorem floatPred_keeps (lat : Nat) (src : List Opnd) (d : Code) (nf : Bool) (g : Env → Nat → Bool × Nat) :
    (floatPred lat src d nf g).Keeps := by
  intro e s
  unfold floatPred
  repeat' first | intro _ | apply And.intro | split | simp only [Ends.bind_iff, Ends.ok_iff, Checks.sources,
      Checks.landed, Checks.dstQ, true_and, forall_const]
  all_goals simp

theorem bodyFcmp_keeps (f : F2) : (bodyFcmp f).Keeps := by
  unfold bodyFcmp
  apply floatPred_keeps

theorem bodyFcmpI_keeps (f : FI) : (bodyFcmpI f).Keeps := by
  unfold bodyFcmpI
  apply floatPred_keeps

theorem bodyFclass_keeps (f : F2) : (bodyFclass f).Keeps := by
  unfold bodyFclass
  apply laneOp_keeps

theorem bodyFrint_keeps (f : F2) : (bodyFrint f).Keeps := by
  unfold bodyFrint
  apply floatOp_keeps
  exact fun _ => Checks.dstV

theorem convOp_keeps (f : F2) (n ws wd : Nat) (fpSrc : Bool) (g : Env → Nat → W32 → Nat × Nat × W32) : (convOp f n ws
    wd fpSrc g).Keeps := by
  intro e s
  unfold convOp
  repeat' first | intro _ | apply And.intro | split | simp only [Ends.bind_iff, Ends.ok_iff, Ends.wait_iff,
      Checks.wait_iff, Checks.field, Checks.enc, Checks.dstGroup, true_and, forall_const]
  all_goals simp

theorem bodyFcvt_keeps (f : F2) : (bodyFcvt f).Keeps := by
  unfold bodyFcvt
  apply convOp_keeps

theorem bodyF2i_keeps (f : F2) : (bodyF2i f).Keeps := by
  unfold bodyF2i
  apply convOp_keeps

theorem bodyI2f_keeps (f : F2) : (bodyI2f f).Keeps := by
  unfold bodyI2f
  apply convOp_keeps

theorem bodyFredw_keeps (f : F2) : (bodyFredw f).Keeps := by
  intro e s
  unfold bodyFredw
  repeat' first | intro _ | apply And.intro | split | simp only [Ends.bind_iff, Ends.ok_iff, Checks.enc,
      Checks.sources, Checks.landed, Checks.dstW, true_and, forall_const]
  all_goals simp

theorem bodyFsetmode_keeps (f : F2) : (bodyFsetmode f).Keeps := by
  intro e s
  unfold bodyFsetmode
  repeat' first | intro _ | apply And.intro | split | simp only [Ends.bind_iff, Ends.ok_iff, Checks.sources,
      Checks.landed, true_and, forall_const]
  all_goals simp

theorem bodyFgetmode_keeps (f : F2) : (bodyFgetmode f).Keeps := by
  intro e s
  unfold bodyFgetmode
  repeat' first | intro _ | apply And.intro | split | simp only [Ends.bind_iff, Ends.ok_iff, Checks.dstVW, true_and,
      forall_const]
  all_goals simp

theorem bodyFflags_keeps (f : F2) : (bodyFflags f).Keeps := by
  intro e s
  unfold bodyFflags
  repeat' first | intro _ | apply And.intro | split | simp only [Ends.bind_iff, Ends.ok_iff, Checks.dstV,
      Checks.flagsQuiet, true_and, forall_const]
  all_goals simp

theorem bodyFflagsClr_keeps (f : F2) : (bodyFflagsClr f).Keeps := by
  intro e s
  unfold bodyFflagsClr
  repeat' first | intro _ | apply And.intro | split | simp only [Ends.bind_iff, Ends.ok_iff, Checks.dstV,
      Checks.flagsQuiet, true_and, forall_const]
  all_goals simp

theorem sfOp_keeps (lat : Nat) (f : F2) (rnd : BitVec 3) (g : Fmt → FV → Res) : (sfOp lat f rnd g).Keeps := by
  unfold sfOp
  apply elemsOp_keeps

theorem bodyRcp_keeps (f : F2) : (bodyRcp f).Keeps := by
  unfold bodyRcp
  apply sfOp_keeps

theorem bodyRsq_keeps (f : F2) : (bodyRsq f).Keeps := by
  unfold bodyRsq
  apply sfOp_keeps

theorem bodySqrt_keeps (f : F2) : (bodySqrt f).Keeps := by
  unfold bodySqrt
  apply sfOp_keeps

theorem bodyEx2_keeps (f : F2) : (bodyEx2 f).Keeps := by
  unfold bodyEx2
  apply sfOp_keeps

theorem bodyLg2_keeps (f : F2) : (bodyLg2 f).Keeps := by
  unfold bodyLg2
  apply sfOp_keeps

theorem bodySinpi_keeps (f : F2) : (bodySinpi f).Keeps := by
  unfold bodySinpi
  apply sfOp_keeps

theorem bodyCospi_keeps (f : F2) : (bodyCospi f).Keeps := by
  unfold bodyCospi
  apply sfOp_keeps

theorem bodyTanh_keeps (f : F2) : (bodyTanh f).Keeps := by
  unfold bodyTanh
  apply sfOp_keeps

theorem bodySigm_keeps (f : F2) : (bodySigm f).Keeps := by
  unfold bodySigm
  apply sfOp_keeps

theorem bodyFdiv_keeps (f : F2) : (bodyFdiv f).Keeps := by
  unfold bodyFdiv
  apply elemsOp_keeps

theorem bodyFenceFull_keeps (f : L2) : (bodyFenceFull f).Keeps := by
  intro e s
  unfold bodyFenceFull
  repeat' first | intro _ | apply And.intro | split | simp only [Ends.bind_iff, Ends.ok_iff, Checks.notVector,
      Checks.settled, true_and, forall_const]
  all_goals simp

theorem bodyFenceAcq_keeps (f : L2) : (bodyFenceAcq f).Keeps := by
  intro e s
  unfold bodyFenceAcq
  repeat' first | intro _ | apply And.intro | split | simp only [Ends.bind_iff, Ends.ok_iff, Checks.notVector,
      Checks.settled, true_and, forall_const]
  all_goals simp

theorem bodyFenceRel_keeps (f : L2) : (bodyFenceRel f).Keeps := by
  intro e s
  unfold bodyFenceRel
  repeat' first | intro _ | apply And.intro | split | simp only [Ends.bind_iff, Ends.ok_iff, Checks.notVector,
      true_and, forall_const]
  all_goals simp

theorem bodyFenceEng_keeps (f : L2) : (bodyFenceEng f).Keeps := by
  intro e s
  unfold bodyFenceEng
  repeat' first | intro _ | apply And.intro | split | simp only [Ends.bind_iff, Ends.ok_iff, Checks.ok_iff,
      Checks.await_iff, Checks.notVector, Checks.settled, true_and, forall_const]
  all_goals simp

theorem bodyArrive_keeps (f : L2) : (bodyArrive f).Keeps := by
  intro e s
  unfold bodyArrive
  repeat' first | intro _ | apply And.intro | split | simp only [Ends.bind_iff, Ends.ok_iff, Checks.need,
      Checks.sources, Checks.landed, Checks.dstW, Checks.notVector, Checks.barPlace, Checks.barOrder, true_and, forall_const]
  all_goals simp

theorem bodyWaitph_keeps (f : L2) : (bodyWaitph f).Keeps := by
  intro e s
  unfold bodyWaitph
  repeat' first | intro _ | apply And.intro | split | simp only [Ends.bind_iff, Ends.ok_iff, Checks.await_iff,
      Checks.sources, Checks.landed, Checks.notVector, Checks.barPlace, Checks.barOrder, true_and, forall_const]
  all_goals simp

theorem bodyTryph_keeps (f : L2) : (bodyTryph f).Keeps := by
  intro e s
  unfold bodyTryph
  repeat' first | intro _ | apply And.intro | split | simp only [Ends.bind_iff, Ends.ok_iff, Checks.sources,
      Checks.landed, Checks.dstQ, Checks.notVector, Checks.barPlace, Checks.barOrder, true_and, forall_const]
  all_goals simp

theorem bodyBarinit_keeps (f : L2) : (bodyBarinit f).Keeps := by
  intro e s
  unfold bodyBarinit
  repeat' first | intro _ | apply And.intro | split | simp only [Ends.bind_iff, Ends.ok_iff, Checks.need,
      Checks.sources, Checks.landed, Checks.notVector, Checks.barPlace, Checks.barOrder, true_and, forall_const]
  all_goals simp

theorem bodyPres_keeps (f : L2) : (bodyPres f).Keeps := by
  intro e s
  unfold bodyPres
  repeat' first | intro _ | apply And.intro | split | simp only [Ends.bind_iff, Ends.ok_iff, Checks.need,
      Checks.sources, Checks.landed, Checks.dstQ, true_and, forall_const]
  all_goals simp

theorem cctlBody_keeps (f : L2) (g : Env → Nat → State → State) (h : ∀ e n s, (g e n s).mem = s.mem) : (cctlBody f
    g).Keeps := by
  intro e s
  unfold cctlBody
  simp only [Ends.bind_iff, Ends.ok_iff, Checks.field, Checks.sources, Checks.landed, true_and]
  intros
  refine State.foldl_mem (fun s l => ?_) _ _
  split
  · exact h ..
  · rfl

theorem bodyCctlInvl_keeps (f : L2) : (bodyCctlInvl f).Keeps := cctlBody_keeps _ _ fun _ _ _ => State.l1Drop_mem ..

theorem bodyCctlInvall_keeps (_f : L2) : (bodyCctlInvall _f).Keeps := by
  intro e s
  unfold bodyCctlInvall
  repeat' first | intro _ | apply And.intro | split | simp only [Ends.ok_iff, true_and, forall_const]
  all_goals simp

theorem bodyCctlPref_keeps (f : L2) : (bodyCctlPref f).Keeps := cctlBody_keeps _ _ fun _ _ _ => State.l1Read_mem ..

theorem bodyCctlEvf_keeps (f : L2) : (bodyCctlEvf f).Keeps := cctlBody_keeps _ _ fun _ _ _ => rfl

theorem bodyBraU_keeps (f : FC) : (bodyBraU f).Keeps := by
  intro e s
  unfold bodyBraU
  repeat' first | intro _ | apply And.intro | split | simp only [Ends.bind_iff, Ends.ok_iff, Checks.notLast,
      Checks.resident, Checks.straight, true_and, forall_const]
  all_goals simp

theorem loopBody_keeps (pipe : Bool) (f : FC) : (loopBody pipe f).Keeps := by
  intro e s
  unfold loopBody
  repeat' first | intro _ | apply And.intro | split | simp only [Ends.bind_iff, Ends.ok_iff, Checks.ok_iff,
      Checks.need, Checks.field, Checks.wLanded, Checks.notLast, Checks.conv, true_and, forall_const]
  all_goals simp

theorem bodyLoop_keeps (f : FC) : (bodyLoop f).Keeps := by
  unfold bodyLoop
  apply loopBody_keeps

theorem bodyLoopPipe_keeps (f : FC) : (bodyLoopPipe f).Keeps := by
  unfold bodyLoopPipe
  apply loopBody_keeps

theorem bodyRotset_keeps (f : FC) : (bodyRotset f).Keeps := by
  intro e s
  unfold bodyRotset
  repeat' first | intro _ | apply And.intro | split | simp only [Ends.bind_iff, Ends.ok_iff, Checks.field,
      Checks.notLast, Checks.conv, true_and, forall_const]
  all_goals simp

theorem bodyModeCollapse_keeps (f : FC) : (bodyModeCollapse f).Keeps := by
  intro e s
  unfold bodyModeCollapse
  repeat' first | intro _ | apply And.intro | split | simp only [Ends.bind_iff, Ends.ok_iff, Checks.need, Checks.enc,
      Checks.notLast, Checks.conv, true_and, forall_const]
  all_goals simp

theorem bodyModeExpand_keeps (f : FC) : (bodyModeExpand f).Keeps := by
  intro e s
  unfold bodyModeExpand
  repeat' first | intro _ | apply And.intro | split | simp only [Ends.bind_iff, Ends.ok_iff, Checks.need, Checks.enc,
      true_and, forall_const]
  all_goals simp

theorem bodySync_keeps (f : FC) : (bodySync f).Keeps := by
  intro e s
  unfold bodySync
  repeat' first | intro _ | apply And.intro | split | simp only [Ends.bind_iff, Ends.ok_iff, Checks.ok_iff,
      Ends.wait_iff, Checks.wait_iff, Checks.need, Checks.enc, Checks.settled, Checks.notLast, Checks.conv, true_and,
          forall_const]
  all_goals simp

theorem bodyTrap_keeps (f : FC) : (bodyTrap f).Keeps := by
  intro e s
  unfold bodyTrap
  repeat' first | intro _ | apply And.intro | split | simp only [Ends.bind_iff, Ends.ok_iff, Checks.need,
      Checks.field, Checks.notLast, true_and, forall_const]
  all_goals simp

theorem bodyEret_keeps (_f : FC) : (bodyEret _f).Keeps := by
  intro e s
  unfold bodyEret
  repeat' first | intro _ | apply And.intro | split | simp only [Ends.bind_iff, Ends.ok_iff, Checks.ok_iff,
      Ends.trap_iff, Checks.trap_iff, Ends.wait_iff, Checks.wait_iff, Checks.need, Checks.field, Checks.notLast,
          Checks.conv, true_and, forall_const]
  all_goals simp

theorem bodyNop_keeps (f : FC) : (bodyNop f).Keeps := by
  intro e s
  unfold bodyNop
  repeat' first | intro _ | apply And.intro | split | simp only [Ends.bind_iff, Ends.ok_iff, Checks.notLast,
      true_and, forall_const]
  all_goals simp

theorem bodyYield_keeps (_f : FC) : (bodyYield _f).Keeps := by
  intro e s
  unfold bodyYield
  repeat' first | intro _ | apply And.intro | split | simp only [Ends.bind_iff, Ends.ok_iff, Checks.notLast,
      true_and, forall_const]
  all_goals simp

theorem bodyElect_keeps (f : F2) : (bodyElect f).Keeps := by
  intro e s
  unfold bodyElect
  repeat' first | intro _ | apply And.intro | split | simp only [Ends.bind_iff, Ends.ok_iff, Checks.enc, Checks.dstQ,
      Checks.notLast, true_and, forall_const]
  all_goals simp

theorem bodyFolld_keeps (f : FC) : (bodyFolld f).Keeps := by
  intro e s
  unfold bodyFolld
  repeat' first | intro _ | apply And.intro | split | simp only [Ends.bind_iff, Ends.ok_iff, Checks.need,
      Checks.field, Checks.wLanded, Checks.dstW, Checks.notLast, Checks.folldCanonical, true_and, forall_const]
  all_goals simp

theorem bodyFolfree_keeps (f : FC) : (bodyFolfree f).Keeps := by
  intro e s
  unfold bodyFolfree
  repeat' first | intro _ | apply And.intro | split | simp only [Ends.bind_iff, Ends.ok_iff, Checks.field,
      Checks.notLast, true_and, forall_const]
  all_goals simp

theorem bodyDomset_keeps (f : FC) : (bodyDomset f).Keeps := by
  intro e s
  unfold bodyDomset
  repeat' first | intro _ | apply And.intro | split | simp only [Ends.bind_iff, Ends.ok_iff, Checks.ok_iff,
      Ends.wait_iff, Checks.wait_iff, Checks.need, Checks.wLanded, Checks.dstW, Checks.notLast, Checks.conv,
          true_and, forall_const]
  all_goals simp

theorem stepBody_keeps (i : Instr) (f : F2) (zero : Bool) : (stepBody i f zero).Keeps := by
  intro e s
  unfold stepBody
  repeat' first | intro _ | apply And.intro | split | simp only [Ends.bind_iff, Ends.ok_iff, Ends.trapWith_iff,
      Checks.trapWith_iff, Checks.mxNeed, Checks.bank, Checks.whole, Checks.fragLanded, Checks.entryIndex, true_and,
          forall_const, Ends.mxTurn_checks]
  all_goals first | rfl | (simp; done) | simp [Env.mxTurn_mem ‹Env.mxTurn _ _ _ = Except.ok _›]

theorem bodyMms_keeps (f : F2) : (bodyMms f).Keeps := by
  unfold bodyMms
  apply stepBody_keeps

theorem bodyMmsz_keeps (f : F2) : (bodyMmsz f).Keeps := by
  unfold bodyMmsz
  apply stepBody_keeps

theorem bodyMmsg_keeps (f : F2) : (bodyMmsg f).Keeps := by
  intro e s
  unfold bodyMmsg
  repeat' first | intro _ | apply And.intro | split | simp only [Ends.bind_iff, Ends.ok_iff, Checks.ok_iff,
      Ends.wait_iff, Checks.wait_iff, Checks.mxNeed, Checks.bank, Checks.whole, Checks.fragLanded, Checks.entryIndex,
          true_and, forall_const, Ends.mxTurn_checks]
  all_goals first | rfl | (simp; done) | simp [Env.mxTurn_mem ‹Env.mxTurn _ _ _ = Except.ok _›]

theorem bodyAccrd_keeps (f : F2) : (bodyAccrd f).Keeps := by
  intro e s
  unfold bodyAccrd
  repeat' first | intro _ | apply And.intro | split | simp only [Ends.bind_iff, Ends.ok_iff, Checks.landed,
      Checks.plainSrc, Checks.mxNeed, Checks.bank, Checks.whole, true_and, forall_const, Ends.mxTurn_checks]
  all_goals first | rfl | (simp; done) | simp [Env.mxTurn_mem ‹Env.mxTurn _ _ _ = Except.ok _›]

theorem bodyAccwr_keeps (f : F2) : (bodyAccwr f).Keeps := by
  intro e s
  unfold bodyAccwr
  repeat' first | intro _ | apply And.intro | split | simp only [Ends.bind_iff, Ends.ok_iff, Checks.landed,
      Checks.plainSrc, Checks.mxNeed, Checks.bank, Checks.whole, Checks.fragLanded, true_and, forall_const,
          Ends.mxTurn_checks]
  all_goals first | rfl | (simp; done) | simp [Env.mxTurn_mem ‹Env.mxTurn _ _ _ = Except.ok _›]

theorem bodyAccclr_keeps (f : F2) : (bodyAccclr f).Keeps := by
  intro e s
  unfold bodyAccclr
  repeat' first | intro _ | apply And.intro | split | simp only [Ends.bind_iff, Ends.ok_iff, Checks.bank, true_and,
      forall_const, Ends.mxTurn_checks]
  all_goals first | rfl | (simp; done) | simp [Env.mxTurn_mem ‹Env.mxTurn _ _ _ = Except.ok _›]

theorem bodyAccadd_keeps (f : F2) : (bodyAccadd f).Keeps := by
  intro e s
  unfold bodyAccadd
  repeat' first | intro _ | apply And.intro | split | simp only [Ends.bind_iff, Ends.ok_iff, Checks.bank, true_and,
      forall_const, Ends.mxTurn_checks]
  all_goals first | rfl | (simp; done) | simp [Env.mxTurn_mem ‹Env.mxTurn _ _ _ = Except.ok _›]

theorem fmtsetWith_keeps (i : Instr) (g : Guard) (mod : BitVec 3) (v : W64) (lanes : W32) : (fmtsetWith i g mod v
    lanes).Keeps := by
  intro e s
  unfold fmtsetWith
  repeat' first | intro _ | apply And.intro | split | simp only [Ends.bind_iff, Ends.ok_iff, Checks.mxNeed, true_and,
      forall_const, Ends.mxTurn_checks]
  all_goals first | rfl | (simp; done) | simp [Env.mxTurn_mem ‹Env.mxTurn _ _ _ = Except.ok _›]

theorem bodyFmtset_keeps (f : F2) : (bodyFmtset f).Keeps := by
  intro e s
  unfold bodyFmtset
  repeat' first | exact fmtsetWith_keeps _ _ _ _ _ _ _ | intro _ | apply And.intro | split | simp only
      [Ends.bind_iff, Ends.ok_iff, Checks.field, Checks.landed, true_and, forall_const]
  all_goals simp

theorem bodyFmtsetI_keeps (f : FI) : (bodyFmtsetI f).Keeps := by
  intro e s
  unfold bodyFmtsetI
  repeat' first | exact fmtsetWith_keeps _ _ _ _ _ _ _ | intro _ | apply And.intro | split | simp only [true_and,
      forall_const]

theorem allocBody_keeps (d : Code) (n : Nat) (lanes : W32) : (allocBody d n lanes).Keeps := by
  intro e s
  unfold allocBody
  repeat' first | intro _ | apply And.intro | split | simp only [Ends.bind_iff, Ends.ok_iff, Ends.trap_iff,
      Checks.trap_iff, Ends.wait_iff, Checks.wait_iff, Checks.need, Checks.mxOpen, true_and, forall_const]
  all_goals simp

theorem bodyAccalloc_keeps (f : F2) : (bodyAccalloc f).Keeps := by
  intro e s
  unfold bodyAccalloc
  repeat' first | exact allocBody_keeps _ _ _ _ _ | intro _ | apply And.intro | split | simp only [Ends.bind_iff,
      Ends.ok_iff, Checks.landed, Checks.dstW, Checks.plainSrc, true_and, forall_const]
  all_goals simp

theorem bodyAccallocI_keeps (f : FI) : (bodyAccallocI f).Keeps := by
  intro e s
  unfold bodyAccallocI
  repeat' first | exact allocBody_keeps _ _ _ _ _ | intro _ | apply And.intro | split | simp only [Ends.bind_iff,
      Ends.ok_iff, Checks.field, Checks.dstW, true_and, forall_const]
  all_goals simp

theorem freeBody_keeps (a : Code) (n : Nat) (lanes : W32) : (freeBody a n lanes).Keeps := by
  intro e s
  unfold freeBody
  repeat' first | intro _ | apply And.intro | split | simp only [Ends.bind_iff, Ends.ok_iff, Ends.wait_iff,
      Checks.wait_iff, Checks.need, Checks.mxOpen, true_and, forall_const]
  all_goals simp

theorem bodyAccfree_keeps (f : F2) : (bodyAccfree f).Keeps := by
  intro e s
  unfold bodyAccfree
  repeat' first | exact freeBody_keeps _ _ _ _ _ | intro _ | apply And.intro | split | simp only [Ends.bind_iff,
      Ends.ok_iff, Checks.field, Checks.landed, Checks.plainSrc, true_and, forall_const]
  all_goals simp

theorem bodyAccfreeI_keeps (f : FI) : (bodyAccfreeI f).Keeps := by
  intro e s
  unfold bodyAccfreeI
  repeat' first | exact freeBody_keeps _ _ _ _ _ | intro _ | apply And.intro | split | simp only [Ends.bind_iff,
      Ends.ok_iff, Checks.field, true_and, forall_const]
  all_goals simp

theorem handOver_keeps (q : CReq) (lane : Nat) : (handOver q lane).Keeps := by
  intro e s
  unfold handOver
  repeat' first | intro _ | apply And.intro | split | simp only [Ends.ok_iff, Ends.trapWith_iff, Checks.trapWith_iff,
      Ends.wait_iff, Checks.wait_iff, true_and, forall_const]
  all_goals simp

theorem bodyCopy_keeps (f : F3) : (bodyCopy f).Keeps := by
  intro e s
  unfold bodyCopy
  repeat' first | exact handOver_keeps _ _ _ _ | intro _ | apply And.intro | split | simp only [Ends.bind_iff,
      Ends.ok_iff, Checks.ok_iff, Ends.wait_iff, Checks.wait_iff, Checks.field, Checks.landed, Checks.plainSrc,
          Checks.pairSrc, true_and, forall_const]
  all_goals simp

theorem unitBody_keeps (op : CopyOp) (f : F3) : (unitBody op f).Keeps := by
  intro e s
  unfold unitBody
  repeat' first | exact handOver_keeps _ _ _ _ | intro _ | apply And.intro | split | simp only [Ends.bind_iff,
      Ends.ok_iff, Checks.field, Checks.landed, Checks.wLanded, Checks.plainSrc, Checks.pairSrc, true_and,
          forall_const]
  all_goals simp

theorem bodyGather_keeps (f : F3) : (bodyGather f).Keeps := by
  unfold bodyGather
  apply unitBody_keeps

theorem bodyScatter_keeps (f : F3) : (bodyScatter f).Keeps := by
  unfold bodyScatter
  apply unitBody_keeps

theorem bodyScatterAdd_keeps (f : F3) : (bodyScatterAdd f).Keeps := by
  unfold bodyScatterAdd
  apply unitBody_keeps

theorem bodyKick_keeps (f : F2) : (bodyKick f).Keeps := by
  intro e s
  unfold bodyKick
  repeat' first | intro _ | apply And.intro | split | simp only [Ends.bind_iff, Ends.ok_iff, Checks.ok_iff,
      Ends.wait_iff, Checks.wait_iff, Checks.need, Checks.landed, Checks.plainSrc, true_and, forall_const]
  all_goals simp

theorem pflOver_keeps (q : CReq) : (pflOver q).Keeps := by
  intro e s
  unfold pflOver
  repeat' first | intro _ | apply And.intro | split | simp only [Ends.ok_iff, Ends.wait_iff, Checks.wait_iff,
      true_and, forall_const]
  all_goals simp

theorem bodyPfl2_keeps (f : F2) : (bodyPfl2 f).Keeps := by
  intro e s
  unfold bodyPfl2
  repeat' first | exact pflOver_keeps _ _ _ | intro _ | apply And.intro | split | simp only [Ends.bind_iff,
      Ends.ok_iff, Checks.need, Checks.landed, Checks.plainSrc, Checks.pairSrc, true_and, forall_const]
  all_goals simp

theorem bodyPfl2Tok_keeps (f : F2) : (bodyPfl2Tok f).Keeps := by
  intro e s
  unfold bodyPfl2Tok
  simp only [Ends.bind_iff, Checks.dstW, Checks.pairSrc, Checks.plainSrc, Checks.landed, true_and]
  intros
  split
  · rfl
  · split
    · rfl
    · simp only [Ends.bind_iff, Checks.need, true_and]
      intros
      split
      · exact fun _ => rfl
      · have hk (q : CReq) := pflOver_keeps q e s
        split
        · rename_i t h
          have := (congrArg (Ends s.mem) h).mp (hk _)
          exact (Env.put_mem ..).trans ((State.modBlock_mem ..).trans this)
        · rename_i w f h
          have := (congrArg (Ends s.mem) h).mp (hk _)
          exact fun u => (State.modBlock_mem ..).trans (this u)
        · rename_i x _ h
          have := (congrArg (Ends s.mem) h).mp (hk _)
          exact this

theorem statusBody_keeps (f : F2) (val : Env → State → Nat → Option W32) (clear : Dest) : (statusBody f val clear).Keeps := by
  intro e s
  unfold statusBody
  repeat' first | intro _ | apply And.intro | split | simp only [Ends.bind_iff, Ends.ok_iff, Ends.trap_iff,
    Checks.landed, Checks.dstW, Checks.dstVW, Checks.plainSrc, true_and]
  all_goals first | rfl | simp

theorem bodyCstat_keeps (f : F2) : (bodyCstat f).Keeps := statusBody_keeps _ _ _

theorem marbleOver_keeps (q : MReq) (lane : Nat) : (marbleOver q lane).Keeps := by
  intro e s
  unfold marbleOver
  repeat' first | intro _ | apply And.intro | split | simp only [Ends.bind_iff, Ends.ok_iff, Ends.wait_iff,
      Checks.wait_iff, Checks.need, true_and, forall_const]
  all_goals simp

theorem trialBody_keeps (f : F3) (scan : Bool) : (trialBody f scan).Keeps := by
  intro e s
  unfold trialBody
  repeat' first | exact marbleOver_keeps _ _ _ _ | intro _ | apply And.intro | split | simp only [Ends.bind_iff,
      Ends.ok_iff, Checks.need, Checks.landed, Checks.plainSrc, true_and, forall_const]
  all_goals simp

theorem bodySeedtry_keeps (f : F3) : (bodySeedtry f).Keeps := by
  unfold bodySeedtry
  apply trialBody_keeps

theorem bodySeedscan_keeps (f : F3) : (bodySeedscan f).Keeps := by
  unfold bodySeedscan
  apply trialBody_keeps

theorem outputBody_keeps (f : F2) (proj : Bool) : (outputBody f proj).Keeps := by
  intro e s
  unfold outputBody
  repeat' first | exact marbleOver_keeps _ _ _ _ | intro _ | apply And.intro | split | simp only [Ends.bind_iff,
      Ends.ok_iff, Checks.need, Checks.landed, Checks.plainSrc, true_and, forall_const]
  all_goals simp

theorem bodyFit_keeps (f : F2) : (bodyFit f).Keeps := by
  unfold bodyFit
  apply outputBody_keeps

theorem bodyProj_keeps (f : F2) : (bodyProj f).Keeps := by
  unfold bodyProj
  apply outputBody_keeps

theorem bodyMgen_keeps (f : F2) : (bodyMgen f).Keeps := by
  intro e s
  unfold bodyMgen
  repeat' first | intro _ | apply And.intro | split | simp only [Ends.bind_iff, Ends.ok_iff, Checks.need,
      Checks.landed, Checks.dstW, Checks.plainSrc, true_and, forall_const]
  all_goals simp

theorem bodyMstat_keeps (f : F2) : (bodyMstat f).Keeps := statusBody_keeps _ _ _

theorem bodyPclass_keeps (f : F2) : (bodyPclass f).Keeps := by
  intro e s
  unfold bodyPclass
  repeat' first | intro _ | apply And.intro | split | simp only [Ends.bind_iff, Ends.ok_iff, Ends.once_iff,
      Checks.need, Checks.landed, Checks.plainSrc, true_and, forall_const]
  all_goals simp

theorem bodyPclassI_keeps (f : FI) : (bodyPclassI f).Keeps := by
  intro e s
  unfold bodyPclassI
  repeat' first | intro _ | apply And.intro | split | simp only [Ends.bind_iff, Ends.ok_iff, Checks.field, true_and,
      forall_const]
  all_goals simp

theorem bodyOpsel_keeps (f : F2) : (bodyOpsel f).Keeps := by
  intro e s
  unfold bodyOpsel
  repeat' first | intro _ | apply And.intro | split | simp only [Ends.bind_iff, Ends.ok_iff, Ends.once_iff,
      Checks.need, Checks.landed, Checks.plainSrc, true_and, forall_const]
  all_goals simp

theorem bodyOpselI_keeps (f : FI) : (bodyOpselI f).Keeps := by
  intro e s
  unfold bodyOpselI
  repeat' first | intro _ | apply And.intro | split | simp only [Ends.bind_iff, Ends.ok_iff, Checks.need,
      Checks.field, true_and, forall_const]
  all_goals simp

theorem bodyGrant_keeps (f : F2) : (bodyGrant f).Keeps := by
  intro e s
  unfold bodyGrant
  repeat' first | intro _ | apply And.intro | split | simp only [Ends.bind_iff, Ends.ok_iff, Ends.once_iff,
      Checks.need, Checks.landed, Checks.dstVW, Checks.plainSrc, true_and, forall_const]
  all_goals simp

theorem bodyTmark_keeps (f : F2) : (bodyTmark f).Keeps := by
  intro e s
  unfold bodyTmark
  repeat' first | intro _ | apply And.intro | split | simp only [Ends.bind_iff, Ends.ok_iff, Ends.once_iff,
      Checks.landed, Checks.plainSrc, true_and, forall_const]
  all_goals simp

theorem bodyTmarkI_keeps (f : FI) : (bodyTmarkI f).Keeps := by
  intro e s
  unfold bodyTmarkI
  repeat' first | intro _ | apply And.intro | split | simp only [Ends.ok_iff, true_and, forall_const]
  all_goals simp

theorem bodyBkpt_keeps (f : F2) : (bodyBkpt f).Keeps := by
  intro e s
  unfold bodyBkpt
  repeat' first | intro _ | apply And.intro | split | simp only [Ends.bind_iff, Ends.once_iff, Checks.landed,
      Checks.plainSrc, Ends.breakpoint, true_and, forall_const]
  all_goals simp

theorem bodyBkptI_keeps (f : FI) : (bodyBkptI f).Keeps := by
  intro e s
  unfold bodyBkptI
  repeat' first | intro _ | apply And.intro | split | simp only [Ends.ok_iff, Ends.breakpoint, true_and, forall_const]
  all_goals simp

theorem bodyShash_keeps (f : F2) : (bodyShash f).Keeps := by
  intro e s
  unfold bodyShash
  repeat' first | intro _ | apply And.intro | split | simp only [Ends.bind_iff, Ends.ok_iff, Ends.wait_iff, Checks.wait_iff,
      Ends.once_iff, Checks.landed, Checks.dstVW, Checks.plainSrc, true_and, forall_const]
  all_goals simp

theorem bodyConfrd_keeps (f : F2) : (bodyConfrd f).Keeps := by
  intro e s
  unfold bodyConfrd
  repeat' first | intro _ | apply And.intro | split | simp only [Ends.bind_iff, Ends.ok_iff, Ends.trap_iff,
      Checks.trap_iff, Ends.once_iff, Checks.landed, Checks.dstW, Checks.dstVW, Checks.plainSrc, true_and,
          forall_const]
  all_goals simp

theorem rpctlBody_keeps (f : F2) (m : Option Nat) : (rpctlBody f m).Keeps := by
  intro e s
  unfold rpctlBody
  repeat' first | intro _ | apply And.intro | split | simp only [Ends.bind_iff, Ends.ok_iff, Ends.once_iff,
      Checks.need, Checks.landed, Checks.dstVW, Checks.plainSrc, true_and, forall_const]
  all_goals simp

theorem bodyRpctlOff_keeps (f : F2) : (bodyRpctlOff f).Keeps := by
  unfold bodyRpctlOff
  apply rpctlBody_keeps

theorem bodyRpctlRec_keeps (f : F2) : (bodyRpctlRec f).Keeps := by
  unfold bodyRpctlRec
  apply rpctlBody_keeps

theorem bodyRpctlReplay_keeps (f : F2) : (bodyRpctlReplay f).Keeps := by
  unfold bodyRpctlReplay
  apply rpctlBody_keeps

theorem bodyRpctlQuery_keeps (f : F2) : (bodyRpctlQuery f).Keeps := by
  unfold bodyRpctlQuery
  apply rpctlBody_keeps

theorem bodyGetsp_keeps (f : F2) : (bodyGetsp f).Keeps := by
  intro e s
  unfold bodyGetsp
  repeat' first | intro _ | apply And.intro | split | simp only [Ends.bind_iff, Ends.ok_iff, Checks.field,
      Checks.dstVW, true_and, forall_const]
  all_goals simp

theorem bodySetsp_keeps (f : F2) : (bodySetsp f).Keeps := by
  intro e s
  unfold bodySetsp
  repeat' first | intro _ | apply And.intro | split | simp only [Ends.bind_iff, Ends.ok_iff, Checks.ok_iff,
      Checks.need, Checks.field, Checks.sources, Checks.landed, Checks.flagsQuiet, true_and, forall_const]
  all_goals simp

theorem bodyXlate_keeps (f : F2) : (bodyXlate f).Keeps := by
  intro e s
  unfold bodyXlate
  repeat' first | intro _ | apply And.intro | split | simp only [Ends.bind_iff, Ends.ok_iff, Checks.landed,
      Checks.dstV, Checks.pairSrc, true_and, forall_const]
  all_goals simp

theorem bodyXprobe_keeps (f : F2) : (bodyXprobe f).Keeps := by
  intro e s
  unfold bodyXprobe
  repeat' first | intro _ | apply And.intro | split | simp only [Ends.bind_iff, Ends.ok_iff, Checks.landed,
      Checks.dstV, Checks.pairSrc, true_and, forall_const]
  all_goals simp

theorem bodyXinvPage_keeps (f : F2) : (bodyXinvPage f).Keeps := by
  intro e s
  unfold bodyXinvPage
  repeat' first | intro _ | apply And.intro | split | simp only [Ends.bind_iff, Ends.ok_iff, Checks.need,
      Checks.landed, Checks.pairSrc, Ends.invalidate, true_and, forall_const]
  all_goals simp

theorem bodyXinvRange_keeps (f : F2) : (bodyXinvRange f).Keeps := by
  intro e s
  unfold bodyXinvRange
  repeat' first | intro _ | apply And.intro | split | simp only [Ends.bind_iff, Ends.ok_iff, Checks.need,
      Checks.landed, Checks.plainSrc, Checks.pairSrc, Ends.invalidate, true_and, forall_const]
  all_goals simp

theorem bodyXinvPasid_keeps (f : F2) : (bodyXinvPasid f).Keeps := by
  intro e s
  unfold bodyXinvPasid
  repeat' first | intro _ | apply And.intro | split | simp only [Ends.bind_iff, Ends.ok_iff, Checks.need,
      Checks.landed, Checks.plainSrc, Ends.invalidate, true_and, forall_const]
  all_goals simp

theorem bodyXinvAll_keeps (_f : F2) : (bodyXinvAll _f).Keeps := by
  intro e s
  unfold bodyXinvAll
  repeat' first | intro _ | apply And.intro | split | simp only [Ends.bind_iff, Ends.ok_iff, Checks.need,
      Ends.invalidate, true_and, forall_const]
  all_goals simp

theorem bodyXflush_keeps (_f : F2) : (bodyXflush _f).Keeps := by
  intro e s
  unfold bodyXflush
  repeat' first | intro _ | apply And.intro | split | simp only [Ends.bind_iff, Ends.ok_iff, Checks.need,
      Ends.invalidate, true_and, forall_const]
  all_goals simp

theorem bodyQsub_keeps (f : F2) : (bodyQsub f).Keeps := by
  intro e s
  unfold bodyQsub
  repeat' first | intro _ | apply And.intro | split | simp only [Ends.bind_iff, Ends.ok_iff, Ends.wait_iff,
      Checks.wait_iff, Checks.need, Checks.landed, Checks.dstW, Checks.plainSrc, true_and, forall_const]
  all_goals simp

end Sys2Proof.Machine
end

