-- ==== Sys2Proof/Laws/Canonical.lean ====
section
/-! SUPPORT. Memory keeps its canonical form: every operation that stores keeps `State.Canonical`, from the one store
operation up to issuing an instruction. (What stores nothing is in Laws/Memory and Laws/Keeps.) -/

set_option Elab.async false

namespace Sys2Proof.Machine

/-! ## The primitive -/

/-- Equal memories have one form. -/
theorem State.Canonical.of_mem {s t : State} (hs : s.Canonical) (h : t.mem = s.mem) : t.Canonical := by
  unfold State.Canonical at *
  rw [h]; exact hs

theorem canonical_congr {s t : State} (h : t.mem = s.mem) : t.Canonical ↔ s.Canonical := by
  unfold State.Canonical
  rw [h]

theorem State.write_canon {s : State} (hs : s.Canonical) (a : Nat) (b : List Byte) : (s.write a b).Canonical :=
  SMap.wf_setMany 0 b a hs

theorem reset_canonical : State.reset.Canonical := by
  unfold State.Canonical; decide

/-- A fold whose steps keep the form keeps it. -/
theorem foldl_canon {α : Type} {f : State → α → State} (h : ∀ s x, s.Canonical → (f s x).Canonical) (l : List α) :
    ∀ s : State, s.Canonical → (l.foldl f s).Canonical := by
  induction l with
  | nil => exact fun s hs => hs
  | cons x l ih => exact fun s hs => ih _ (h s x hs)

theorem ite_canon {p : Prop} [Decidable p] {s t : State} (hs : s.Canonical) (ht : t.Canonical) :
    (if p then s else t).Canonical := by
  split <;> assumption

/-! ## Stores through translation -/

theorem State.writePieces_canon (l : List (Nat × Nat × Tlb)) :
    ∀ (s : State) (b : List Byte), s.Canonical → (s.writePieces l b).Canonical := by
  induction l with
  | nil => exact fun s b hs => hs
  | cons p l ih => exact fun s b hs => ih _ _ (State.write_canon hs _ _)

theorem State.schedPut_canon {s t : State} {g : Grid} {quire va : Nat} {l : List Byte} (hs : s.Canonical)
    (h : s.schedPut g quire va l = .ok t) : t.Canonical := by
  unfold State.schedPut at h
  split at h
  · cases h; exact (State.writePieces_canon _ s l hs).of_mem rfl
  · cases h; exact hs.of_mem (by simp)
  · cases h

/-! ## Accesses -/

theorem State.atomMem_canon {s : State} (hs : s.Canonical) (c w : Nat) (kind : AccKind) (n lane id pa ea : Nat)
    (data cmp : List W32) : (s.atomMem c w kind n lane id pa ea data cmp).Canonical := by
  unfold State.atomMem
  dsimp only
  refine State.Canonical.of_mem (s := match (atomBytes kind n (s.read pa n) data cmp).2 with
    | some b => s.write pa b | none => s) ?_ ?_
  · split
    · exact State.write_canon hs _ _
    · exact hs
  · simp only [State.modWarp_mem, State.fill_mem]; split <;> rfl

theorem State.storeGlobal_canon {s : State} (hs : s.Canonical) (c w : Nat) (a : Access) (l : LaneAcc) (pa : Nat) (t : Tlb)
    (relWarp : Bool) : (s.storeGlobal c w a l pa t relWarp).Canonical := by
  unfold State.storeGlobal
  dsimp only
  split
  · exact (State.write_canon (hs.of_mem (by simp)) _ _).of_mem (State.l1Drop_mem _ _ _)
  · exact hs.of_mem (by simp)

theorem State.performLane_canon {s : State} (hs : s.Canonical) (c w : Nat) (a : Access) (l : LaneAcc) (p : Place)
    (relWarp : Bool) : (s.performLane c w a l p relWarp).Canonical := by
  unfold State.performLane
  split
  · split
    · exact hs.of_mem (by simp)
    · exact State.storeGlobal_canon hs _ _ _ _ _ _ _
    · exact hs.of_mem (by simp)
  · exact hs.of_mem (by dsimp only; repeat' split
                        all_goals simp)

theorem State.perform_canon {s : State} (hs : s.Canonical) (c w : Nat) (a : Access) (l : List (LaneAcc × Place))
    (relWarp : Bool) : (s.perform c w a l relWarp).Canonical := by
  have h := foldl_canon (f := fun (s : State) (p : LaneAcc × Place) => s.performLane c w a p.1 p.2 relWarp)
    (fun s p hs => State.performLane_canon hs c w a p.1 p.2 relWarp) l s hs
  unfold State.perform
  exact h.of_mem (by dsimp only; repeat' split
                     all_goals simp)

theorem Env.lsDone_canon {s : State} (hs : s.Canonical) (e : Env) (a : Access) (d : Option LsDest)
    (l : List (LaneAcc × Place)) : (e.lsDone a d l s).Canonical := by
  have h : ∀ t : State, t.mem = s.mem → (t.perform e.c e.w a l (e.warp.relSeq != 0)).Canonical :=
    fun t ht => State.perform_canon (hs.of_mem ht) _ _ _ _ _
  unfold Env.lsDone
  dsimp only
  have h' := h (if a.space = 0 then e.lsLprs a (e.lsPut a d (lsLines l) s)
    else e.askBanks a l (e.lsPut a d (lsLines l) s)) (by split <;> simp)
  split
  · exact h'.of_mem (by simp)
  · exact h'

/-! ## Bodies -/

/-- A meaning ends in the form, whether it has its effect or not. -/
def EndsCanonical : Except Stop State → Prop
  | .ok t => t.Canonical
  | .error r => r.Keeps

/-- A meaning that keeps the form. -/
def Body.KeepsForm (b : Body) : Prop := ∀ (e : Env) (s : State), s.Canonical → EndsCanonical (b e s)

theorem Ends.canonical {s : State} {x : Except Stop State} (hs : s.Canonical) (h : Ends s.mem x) : EndsCanonical x := by
  cases x with
  | ok t => exact hs.of_mem h
  | error r => exact h

/-- A meaning that stores nothing keeps the form. -/
theorem Body.Keeps.form {b : Body} (h : b.Keeps) : b.KeepsForm := fun e s hs => Ends.canonical hs (h e s)

@[simp] theorem EndsCanonical.ok_iff {t : State} : EndsCanonical (.ok t) ↔ t.Canonical := Iff.rfl
@[simp] theorem EndsCanonical.error_iff {r : Stop} : EndsCanonical (.error r) ↔ r.Keeps := Iff.rfl

@[simp] theorem EndsCanonical.bind_iff {α : Type} {x : Except Stop α} {f : α → Except Stop State} :
    EndsCanonical (x >>= f) ↔ Checks x ∧ ∀ a, x = .ok a → EndsCanonical (f a) := by
  cases x with
  | ok a => exact ⟨fun h => ⟨trivial, fun b hb => by cases hb; exact h⟩, fun h => h.2 a rfl⟩
  | error r => exact ⟨fun h => ⟨h, nofun⟩, fun h => h.1⟩

theorem EndsCanonical.bind {x : Except Stop State} {f : State → Except Stop State} (h : EndsCanonical x)
    (hf : ∀ t, t.Canonical → EndsCanonical (f t)) : EndsCanonical (x >>= f) := by
  cases x with
  | ok a => exact hf a h
  | error r => exact h

theorem lsExec_canon {s : State} (hs : s.Canonical) (e : Env) (a : Access) (d : Option LsDest) :
    EndsCanonical (lsExec e a d s) := by
  unfold lsExec
  dsimp only
  refine EndsCanonical.bind_iff.2 ⟨Checks.need, fun _ _ => ?_⟩
  repeat' split
  all_goals first
    | exact Env.lsDone_canon hs _ _ _ _
    | exact hs.of_mem (by simp)
    | exact fun s => rfl
    | (intro s; simp)

theorem loadBody_form (mod : BitVec 3) (space : BitVec 2) (scope hint : Nat) (acq : Bool) (d a : Code) (idx : List Opnd)
    (off : Env → Nat → W64) : (loadBody mod space scope hint acq d a idx off).KeepsForm := by
  intro e s hs
  unfold loadBody
  dsimp only
  simp only [EndsCanonical.bind_iff, Checks.field, Checks.sources, Checks.landed, true_and]
  intros
  split
  · exact hs
  · exact lsExec_canon hs _ _ _

theorem storeBody_form (mod : BitVec 3) (space : BitVec 2) (scope hint : Nat) (d a : Code) (idx : List Opnd)
    (off : Env → Nat → W64) : (storeBody mod space scope hint d a idx off).KeepsForm := by
  intro e s hs
  unfold storeBody
  dsimp only
  simp only [EndsCanonical.bind_iff, Checks.field, Checks.sources, Checks.landed, Checks.dataLanded, true_and]
  intros
  split
  · exact hs
  · exact lsExec_canon hs _ _ _

theorem storeRelBody_form (mod : BitVec 3) (space : BitVec 2) (scope hint : Nat) (d a : Code) (idx : List Opnd)
    (off : Env → Nat → W64) : (storeRelBody mod space scope hint d a idx off).KeepsForm := by
  intro e s hs
  unfold storeRelBody
  dsimp only
  simp only [EndsCanonical.bind_iff, Checks.field, Checks.sources, Checks.landed, true_and]
  intros
  split
  · exact hs
  · exact lsExec_canon hs _ _ _

theorem ldwBody_form (mod : BitVec 3) (space : BitVec 2) (scope hint : Nat) (d a : Code) (idx : List Opnd)
    (off : Env → Nat → W64) : (ldwBody mod space scope hint d a idx off).KeepsForm := by
  intro e s hs
  unfold ldwBody
  dsimp only
  simp only [EndsCanonical.bind_iff, Checks.field, Checks.sources, Checks.landed, Checks.dstW, Checks.notVector, true_and]
  intros
  split
  · exact hs
  · exact lsExec_canon hs _ _ _

theorem atomBody_form (kind : AccKind) (n : Nat) (space : BitVec 2) (scope hint : Nat) (d a : Code) (data cmp : List Opnd) :
    (atomBody kind n space scope hint d a data cmp).KeepsForm := by
  intro e s hs
  unfold atomBody
  dsimp only
  simp only [EndsCanonical.bind_iff, Checks.field, Checks.sources, Checks.landed, true_and]
  intros
  split
  · exact hs
  · exact lsExec_canon hs _ _ _

theorem bodyRed_form (f : L2) : (bodyRed f).KeepsForm := by
  intro e s hs
  unfold bodyRed
  dsimp only
  simp only [EndsCanonical.bind_iff, Checks.field, Checks.sources, Checks.landed, true_and]
  intros
  split
  · exact hs
  · exact lsExec_canon hs _ _ _

theorem bodyLdRacq_form (f : L2) : (bodyLdRacq f).KeepsForm := by
  intro e s hs
  unfold bodyLdRacq
  dsimp only
  simp only [EndsCanonical.bind_iff, Checks.field, Checks.sources, Checks.landed, Checks.notVector, true_and]
  intros
  split
  · exact hs
  · refine EndsCanonical.bind_iff.2 ⟨Checks.need, fun _ _ => EndsCanonical.bind (lsExec_canon hs _ _ _) fun t ht => ?_⟩
    split
    · exact ht
    · exact EndsCanonical.bind_iff.2 ⟨Checks.await fun _ => rfl, fun _ _ => ht⟩

/-! ## Transfers, which may spill the divergence stack (R112) -/

theorem Env.spill_form (e : Env) {t : State} (ht : t.Canonical) : EndsCanonical (e.spill t) := by
  unfold Env.spill
  split
  · exact ht
  · dsimp only
    split
    · exact ht
    · split
      · exact State.writePieces_canon _ _ _ ht
      · exact ht.of_mem (by simp)
      · exact fun s => by simp

theorem Env.split_form {s : State} (hs : s.Canonical) (e : Env) (taken t r fpc : W32) (leave : Bool) :
    EndsCanonical (e.split taken t r fpc leave s) := by
  unfold Env.split
  dsimp only
  split
  · exact hs
  · split
    · exact hs.of_mem (by rw [Env.goto_mem]; split <;> simp)
    · refine EndsCanonical.bind_iff.2 ⟨?_, fun _ _ => EndsCanonical.bind_iff.2 ⟨Checks.need, fun _ _ => ?_⟩⟩
      · split
        · exact Checks.need
        · trivial
      · exact Env.spill_form e (hs.of_mem (by simp))

theorem bodyBra_form (f : FC) : (bodyBra f).KeepsForm := by
  intro e s hs
  unfold bodyBra
  simp only [EndsCanonical.bind_iff, Checks.resident, Checks.straight, Checks.notLast, true_and]
  intros
  exact Env.split_form hs _ _ _ _ _ _

theorem bodyCall_form (f : FC) : (bodyCall f).KeepsForm := by
  intro e s hs
  unfold bodyCall
  dsimp only
  refine EndsCanonical.bind_iff.2 ⟨Checks.resident, fun _ _ => EndsCanonical.bind_iff.2 ⟨Checks.jumpReg, fun _ _ =>
    EndsCanonical.bind_iff.2 ⟨Checks.notLast, fun _ _ => EndsCanonical.bind_iff.2 ⟨Checks.straight, fun _ _ =>
      EndsCanonical.bind (Env.split_form hs _ _ _ _ _ _) fun t ht => ?_⟩⟩⟩⟩
  exact ht.of_mem (by simp)

theorem indirectBody_form (f : FC) (wide landing leave : Bool) {fin : Env → W32 → State → State} (dflt : Env → W32)
    (h : ∀ e m s, (fin e m s).mem = s.mem) : (indirectBody f wide landing leave fin dflt).KeepsForm := by
  intro e s hs
  unfold indirectBody
  dsimp only
  refine EndsCanonical.bind_iff.2 ⟨Checks.jumpReg, fun _ _ => EndsCanonical.bind_iff.2 ⟨?_, fun _ _ =>
    EndsCanonical.bind_iff.2 ⟨Checks.indirect, fun _ _ =>
      EndsCanonical.bind (Env.split_form hs _ _ _ _ _ _) fun t ht => ht.of_mem (h _ _ _)⟩⟩⟩
  split
  · trivial
  · exact fun _ => rfl

theorem bodyBrx_form (f : FC) : (bodyBrx f).KeepsForm := indirectBody_form f _ _ _ _ fun _ _ _ => rfl
theorem bodyRet_form (f : FC) : (bodyRet f).KeepsForm := indirectBody_form f _ _ _ _ fun _ _ _ => rfl
theorem bodyCallx_form (f : FC) : (bodyCallx f).KeepsForm := indirectBody_form f _ _ _ _ fun _ _ _ => by simp

theorem bodyBrk_form (f : FC) : (bodyBrk f).KeepsForm := by
  intro e s hs
  unfold bodyBrk
  simp only [EndsCanonical.bind_iff, Checks.enc, Checks.notLast, true_and]
  intros
  split
  · exact hs
  · exact EndsCanonical.bind_iff.2 ⟨Checks.need, fun _ _ => Env.spill_form e (hs.of_mem (State.modWarp_mem _ _ _ _))⟩

theorem bodyExit_form (f : FC) : (bodyExit f).KeepsForm := by
  intro e s hs
  unfold bodyExit
  refine EndsCanonical.bind_iff.2 ⟨Checks.notLast, fun _ _ => ?_⟩
  split
  · exact hs
  · split
    · exact hs.of_mem rfl
    · exact Env.spill_form e (hs.of_mem (State.modWarp_mem _ _ _ _))

/-- Every meaning that issues alone or in a slot keeps the form. -/
theorem slotBody_form (i : Instr) : (slotBody i).KeepsForm := by
  cases i with
  | mov f => exact (bodyMov_keeps f).form
  | iadd f => exact (bodyIadd_keeps f).form
  | iaddI f => exact (bodyIaddI_keeps f).form
  | isub f => exact (bodyIsub_keeps f).form
  | isubI f => exact (bodyIsubI_keeps f).form
  | imul f => exact (bodyImul_keeps f).form
  | imulI f => exact (bodyImulI_keeps f).form
  | imulh f => exact (bodyImulh_keeps f).form
  | imulhI f => exact (bodyImulhI_keeps f).form
  | imad f => exact (bodyImad_keeps f).form
  | idiv f => exact (bodyIdiv_keeps f).form
  | idivI f => exact (bodyIdivI_keeps f).form
  | irem f => exact (bodyIrem_keeps f).form
  | iremI f => exact (bodyIremI_keeps f).form
  | imin f => exact (bodyImin_keeps f).form
  | iminI f => exact (bodyIminI_keeps f).form
  | imax f => exact (bodyImax_keeps f).form
  | imaxI f => exact (bodyImaxI_keeps f).form
  | iabs f => exact (bodyIabs_keeps f).form
  | ineg f => exact (bodyIneg_keeps f).form
  | iadds f => exact (bodyIadds_keeps f).form
  | iaddsI f => exact (bodyIaddsI_keeps f).form
  | isad f => exact (bodyIsad_keeps f).form
  | idot4 f => exact (bodyIdot4_keeps f).form
  | and f => exact (bodyAnd_keeps f).form
  | andI f => exact (bodyAndI_keeps f).form
  | or f => exact (bodyOr_keeps f).form
  | orI f => exact (bodyOrI_keeps f).form
  | xor f => exact (bodyXor_keeps f).form
  | xorI f => exact (bodyXorI_keeps f).form
  | andn f => exact (bodyAndn_keeps f).form
  | andnI f => exact (bodyAndnI_keeps f).form
  | not f => exact (bodyNot_keeps f).form
  | shl f => exact (bodyShl_keeps f).form
  | shlI f => exact (bodyShlI_keeps f).form
  | shr f => exact (bodyShr_keeps f).form
  | shrI f => exact (bodyShrI_keeps f).form
  | sar f => exact (bodySar_keeps f).form
  | sarI f => exact (bodySarI_keeps f).form
  | rotl f => exact (bodyRotl_keeps f).form
  | rotlI f => exact (bodyRotlI_keeps f).form
  | funnel f => exact (bodyFunnel_keeps f).form
  | bfx f => exact (bodyBfx_keeps f).form
  | bfi f => exact (bodyBfi_keeps f).form
  | popc f => exact (bodyPopc_keeps f).form
  | clz f => exact (bodyClz_keeps f).form
  | ctz f => exact (bodyCtz_keeps f).form
  | brev f => exact (bodyBrev_keeps f).form
  | bshuf f => exact (bodyBshuf_keeps f).form
  | lea f => exact (bodyLea_keeps f).form
  | leaI f => exact (bodyLeaI_keeps f).form
  | icmp f => exact (bodyIcmp_keeps f).form
  | icmpI f => exact (bodyIcmpI_keeps f).form
  | isel f => exact (bodyIsel_keeps f).form
  | plop f => exact (bodyPlop_keeps f).form
  | movh f => exact (bodyMovh_keeps f).form
  | movhI f => exact (bodyMovhI_keeps f).form
  | movi f => exact (bodyMovi_keeps f).form
  | vote f => exact (bodyVote_keeps f).form
  | rdlane f => exact (bodyRdlane_keeps f).form
  | rdlaneI f => exact (bodyRdlaneI_keeps f).form
  | find1 f => exact (bodyFind1_keeps f).form
  | cvti f => exact (bodyCvti_keeps f).form
  | iredw f => exact (bodyIredw_keeps f).form
  | clamp f => exact (bodyClamp_keeps f).form
  | fadd f => exact (bodyFadd_keeps f).form
  | faddI f => exact (bodyFaddI_keeps f).form
  | fsub f => exact (bodyFsub_keeps f).form
  | fsubI f => exact (bodyFsubI_keeps f).form
  | fmul f => exact (bodyFmul_keeps f).form
  | fmulI f => exact (bodyFmulI_keeps f).form
  | ffma f => exact (bodyFfma_keeps f).form
  | fnma f => exact (bodyFnma_keeps f).form
  | fmin f => exact (bodyFmin_keeps f).form
  | fminI f => exact (bodyFminI_keeps f).form
  | fmax f => exact (bodyFmax_keeps f).form
  | fmaxI f => exact (bodyFmaxI_keeps f).form
  | fabs f => exact (bodyFabs_keeps f).form
  | fneg f => exact (bodyFneg_keeps f).form
  | fcmp f => exact (bodyFcmp_keeps f).form
  | fcmpI f => exact (bodyFcmpI_keeps f).form
  | fclass f => exact (bodyFclass_keeps f).form
  | frint f => exact (bodyFrint_keeps f).form
  | fcvt f => exact (bodyFcvt_keeps f).form
  | f2i f => exact (bodyF2i_keeps f).form
  | i2f f => exact (bodyI2f_keeps f).form
  | fdot2 f => exact (bodyFdot2_keeps f).form
  | fredw f => exact (bodyFredw_keeps f).form
  | fsetmode f => exact (bodyFsetmode_keeps f).form
  | fgetmode f => exact (bodyFgetmode_keeps f).form
  | fflags f => exact (bodyFflags_keeps f).form
  | fflagsClr f => exact (bodyFflagsClr_keeps f).form
  | fscale f => exact (bodyFscale_keeps f).form
  | fscaleI f => exact (bodyFscaleI_keeps f).form
  | rcp f => exact (bodyRcp_keeps f).form
  | rsq f => exact (bodyRsq_keeps f).form
  | sqrt f => exact (bodySqrt_keeps f).form
  | ex2 f => exact (bodyEx2_keeps f).form
  | lg2 f => exact (bodyLg2_keeps f).form
  | sinpi f => exact (bodySinpi_keeps f).form
  | cospi f => exact (bodyCospi_keeps f).form
  | tanh f => exact (bodyTanh_keeps f).form
  | sigm f => exact (bodySigm_keeps f).form
  | fdiv f => exact (bodyFdiv_keeps f).form
  | ld f => exact loadBody_form _ _ _ _ _ _ _ _ _
  | ldI f => exact loadBody_form _ _ _ _ _ _ _ _ _
  | st f => exact storeBody_form _ _ _ _ _ _ _ _
  | stI f => exact storeBody_form _ _ _ _ _ _ _ _
  | ldw f => exact ldwBody_form _ _ _ _ _ _ _ _
  | ldwI f => exact ldwBody_form _ _ _ _ _ _ _ _
  | ldAcq f => exact loadBody_form _ _ _ _ _ _ _ _ _
  | ldAcqI f => exact loadBody_form _ _ _ _ _ _ _ _ _
  | stRel f => exact storeRelBody_form _ _ _ _ _ _ _ _
  | stRelI f => exact storeRelBody_form _ _ _ _ _ _ _ _
  | atom f => exact atomBody_form _ _ _ _ _ _ _ _ _
  | cas f => exact atomBody_form _ _ _ _ _ _ _ _ _
  | red f => exact bodyRed_form f
  | atomX f => exact atomBody_form _ _ _ _ _ _ _ _ _
  | casX f => exact atomBody_form _ _ _ _ _ _ _ _ _
  | fenceFull f => exact (bodyFenceFull_keeps f).form
  | fenceAcq f => exact (bodyFenceAcq_keeps f).form
  | fenceRel f => exact (bodyFenceRel_keeps f).form
  | fenceEng f => exact (bodyFenceEng_keeps f).form
  | ldRacq f => exact bodyLdRacq_form f
  | arrive f => exact (bodyArrive_keeps f).form
  | waitph f => exact (bodyWaitph_keeps f).form
  | tryph f => exact (bodyTryph_keeps f).form
  | barinit f => exact (bodyBarinit_keeps f).form
  | pres f => exact (bodyPres_keeps f).form
  | cctlInvl f => exact (bodyCctlInvl_keeps f).form
  | cctlInvall f => exact (bodyCctlInvall_keeps f).form
  | cctlPref f => exact (bodyCctlPref_keeps f).form
  | cctlEvf f => exact (bodyCctlEvf_keeps f).form
  | bra f => exact bodyBra_form f
  | braU f => exact (bodyBraU_keeps f).form
  | brx f => exact bodyBrx_form f
  | call f => exact bodyCall_form f
  | callx f => exact bodyCallx_form f
  | ret f => exact bodyRet_form f
  | brk f => exact bodyBrk_form f
  | loop f => exact (bodyLoop_keeps f).form
  | loopPipe f => exact (bodyLoopPipe_keeps f).form
  | rotset f => exact (bodyRotset_keeps f).form
  | modeCollapse f => exact (bodyModeCollapse_keeps f).form
  | modeExpand f => exact (bodyModeExpand_keeps f).form
  | sync f => exact (bodySync_keeps f).form
  | exit f => exact bodyExit_form f
  | trap f => exact (bodyTrap_keeps f).form
  | eret f => exact (bodyEret_keeps f).form
  | nop f => exact (bodyNop_keeps f).form
  | yield f => exact (bodyYield_keeps f).form
  | elect f => exact (bodyElect_keeps f).form
  | folld f => exact (bodyFolld_keeps f).form
  | folfree f => exact (bodyFolfree_keeps f).form
  | domset f => exact (bodyDomset_keeps f).form
  | mms f => exact (bodyMms_keeps f).form
  | mmsz f => exact (bodyMmsz_keeps f).form
  | mmsg f => exact (bodyMmsg_keeps f).form
  | accalloc f => exact (bodyAccalloc_keeps f).form
  | accallocI f => exact (bodyAccallocI_keeps f).form
  | accfree f => exact (bodyAccfree_keeps f).form
  | accfreeI f => exact (bodyAccfreeI_keeps f).form
  | accrd f => exact (bodyAccrd_keeps f).form
  | accwr f => exact (bodyAccwr_keeps f).form
  | accclr f => exact (bodyAccclr_keeps f).form
  | fmtset f => exact (bodyFmtset_keeps f).form
  | fmtsetI f => exact (bodyFmtsetI_keeps f).form
  | accadd f => exact (bodyAccadd_keeps f).form
  | copy f => exact (bodyCopy_keeps f).form
  | kick f => exact (bodyKick_keeps f).form
  | gather f => exact (bodyGather_keeps f).form
  | scatter f => exact (bodyScatter_keeps f).form
  | scatterAdd f => exact (bodyScatterAdd_keeps f).form
  | pfl2 f => exact (bodyPfl2_keeps f).form
  | pfl2Tok f => exact (bodyPfl2Tok_keeps f).form
  | cstat f => exact (bodyCstat_keeps f).form
  | seedtry f => exact (bodySeedtry_keeps f).form
  | seedscan f => exact (bodySeedscan_keeps f).form
  | fit f => exact (bodyFit_keeps f).form
  | proj f => exact (bodyProj_keeps f).form
  | mgen f => exact (bodyMgen_keeps f).form
  | mstat f => exact (bodyMstat_keeps f).form
  | xlate f => exact (bodyXlate_keeps f).form
  | xprobe f => exact (bodyXprobe_keeps f).form
  | xinvPage f => exact (bodyXinvPage_keeps f).form
  | xinvRange f => exact (bodyXinvRange_keeps f).form
  | xinvPasid f => exact (bodyXinvPasid_keeps f).form
  | xinvAll f => exact (bodyXinvAll_keeps f).form
  | xflush f => exact (bodyXflush_keeps f).form
  | pclass f => exact (bodyPclass_keeps f).form
  | pclassI f => exact (bodyPclassI_keeps f).form
  | opsel f => exact (bodyOpsel_keeps f).form
  | opselI f => exact (bodyOpselI_keeps f).form
  | grant f => exact (bodyGrant_keeps f).form
  | tmark f => exact (bodyTmark_keeps f).form
  | tmarkI f => exact (bodyTmarkI_keeps f).form
  | bkpt f => exact (bodyBkpt_keeps f).form
  | bkptI f => exact (bodyBkptI_keeps f).form
  | shash f => exact (bodyShash_keeps f).form
  | confrd f => exact (bodyConfrd_keeps f).form
  | rpctlOff f => exact (bodyRpctlOff_keeps f).form
  | rpctlRec f => exact (bodyRpctlRec_keeps f).form
  | rpctlReplay f => exact (bodyRpctlReplay_keeps f).form
  | rpctlQuery f => exact (bodyRpctlQuery_keeps f).form
  | qsub f => exact (bodyQsub_keeps f).form
  | getsp f => exact (bodyGetsp_keeps f).form
  | setsp f => exact (bodySetsp_keeps f).form
  | _ => intros e s hs; trivial

/-! ## Issue -/

theorem Stop.keeps_stopped {e : Env} {s : State} {r : Stop} (h : r.Keeps) : (e.stopped s r).mem = s.mem := by
  cases r with
  | trap c l => simp [Env.stopped]
  | trapWith c l f => simpa [Env.stopped] using h s
  | wait w f => simpa [Env.stopped] using h s

/-- An instruction that ends in a next state keeps the form. -/
theorem issue_canon {x : Cost} {g : Guard} {body : Body} {s t : State} (hb : body.KeepsForm) (hs : s.Canonical)
    (h : issue x g body s = .next t) : t.Canonical := by
  unfold issue at h
  split at h
  · cases h
  · rename_i e he
    have hb' : EndsCanonical (if e.edgeMissed then .error (.trap cFolioMiss e.path.mask) else body e (e.enter s)) := by
      split
      · trivial
      · exact hb e _ (hs.of_mem (by simp))
    revert h
    generalize (if e.edgeMissed then .error (.trap cFolioMiss e.path.mask) else body e (e.enter s) : Except Stop State) = r at hb'
    intro h
    cases r with
    | ok u => cases h; exact State.Canonical.of_mem (s := u) hb' (by simp)
    | error r => cases h; exact hs.of_mem (Stop.keeps_stopped hb')

/-- An instruction that stores nothing, ending in a next state, leaves every byte of memory as it was. -/
theorem issue_keeps {x : Cost} {g : Guard} {body : Body} {s t : State} (hb : body.Keeps) (h : issue x g body s = .next t) :
    t.mem = s.mem := by
  unfold issue at h
  split at h
  · cases h
  · rename_i e he
    have hb' : Ends s.mem (if e.edgeMissed then .error (.trap cFolioMiss e.path.mask) else body e (e.enter s)) := by
      split
      · trivial
      · have := hb e (e.enter s); rwa [Env.enter_mem] at this
    revert h
    generalize (if e.edgeMissed then .error (.trap cFolioMiss e.path.mask) else body e (e.enter s) : Except Stop State) = r at hb'
    intro h
    cases r with
    | ok u => cases h; exact (Env.complete_mem _ _ _ _).trans hb'
    | error r => cases h; exact Stop.keeps_stopped hb'

/-! ## Bundles -/

/-- The slots of a bundle keep the form, and what stops one of them keeps memory. -/
theorem runSlots_canon (s0 : State) (next : W32) (l : List (Who × Slot)) :
    ∀ (ls : Bool) (s : State), s.Canonical →
      (runSlots s0 next ls l s).1.Canonical ∧ ∀ n x, (runSlots s0 next ls l s).2 = some (n, x) → x.Keeps := by
  induction l with
  | nil => exact fun _ s hs => ⟨hs, nofun⟩
  | cons p l ih =>
    intro ls s hs
    unfold runSlots
    split
    · exact ih ls s hs
    · rename_i e _
      have hb := slotBody_form p.2.instr (e.after ls s) s hs
      split
      · rename_i t ht
        rw [ht] at hb
        exact ih _ t hb
      · rename_i x hx
        rw [hx] at hb
        split
        · exact ih ls s hs
        · exact ⟨hs, fun n y hy => by cases hy; exact hb⟩

theorem State.bundleHead_mem (s : State) (c : Nat) (t : Strand) (x : Warp) (b : Block) (h : W64) (next : W32) :
    (s.bundleHead c t x b h next).mem = s.mem := by
  unfold State.bundleHead
  dsimp only
  repeat' split
  all_goals simp

@[simp] theorem State.bundleHalts_mem (s : State) (c w rix : Nat) : (s.bundleHalts c w rix).mem = s.mem := by
  unfold State.bundleHalts
  repeat' split
  all_goals simp

theorem State.bundleHold_mem (b s : State) (c : Nat) (t : Strand) (x : Warp) (n : Nat) (more : Bool) (why : Park) :
    (b.bundleHold s c t x n more why).mem = s.mem := rfl

/-- The end of a bundle's issue keeps the form of what its slots have left. -/
theorem State.bundleOver_canon {s : State} (hs : s.Canonical) (c : Nat) (t : Strand) (x : Warp) (h : W64) (next : W32)
    (l : List (Who × Slot)) (first : Nat) (late : Option SlotTrap) {r : State × Option (Nat × Stop)}
    (hr : r.1.Canonical ∧ ∀ n x, r.2 = some (n, x) → x.Keeps) : (s.bundleOver c t x h next l first late r).Canonical := by
  unfold State.bundleOver
  dsimp only
  split
  · rename_i hn
    exact hr.1.of_mem (hr.2 _ _ hn _)
  · exact hs.of_mem (by simp)
  · rename_i hn
    exact hs.of_mem (by simpa using hr.2 _ _ hn s)
  · have he (u : State) (hu : u.mem = r.1.mem) : u.Canonical := hr.1.of_mem hu
    have hw : (s.bundleWait c t.warp .capacity).Canonical := hs.of_mem (State.bundleWait_mem _ _ _ _)
    repeat' split
    all_goals first | exact hw | exact he _ (by simp)

/-- What the slots' stops note or ask for leaves memory as it was. -/
theorem State.slotStops_keeps {s : State} (hs : s.Canonical) (next : W32) (l : List (Who × Slot)) :
    (∀ x ∈ (s.slotStops next l).1, ∀ t, (x.note t).mem = t.mem) ∧
      ∀ y ∈ (s.slotStops next l).2, ∀ t, (y.2 t).mem = t.mem := by
  induction l with
  | nil => exact ⟨nofun, nofun⟩
  | cons p l ih =>
    simp only [State.slotStops, List.foldr_cons]
    simp only [State.slotStops] at ih
    split
    · exact ih
    · rename_i e _
      have hb : ∀ r, slotBody p.2.instr e s = .error r → r.Keeps := fun r hr => by
        have := slotBody_form p.2.instr e s hs
        rwa [hr] at this
      split
      · exact ih
      · exact ⟨fun x hx t => by
          rcases List.mem_cons.1 hx with rfl | hx
          · rfl
          · exact ih.1 x hx t, ih.2⟩
      · rename_i c m f hr
        exact ⟨fun x hx t => by
          rcases List.mem_cons.1 hx with rfl | hx
          · exact hb _ hr t
          · exact ih.1 x hx t, ih.2⟩
      · rename_i w f hr
        exact ⟨ih.1, fun y hy t => by
          rcases List.mem_cons.1 hy with rfl | hy
          · exact hb _ hr t
          · exact ih.2 y hy t⟩

theorem firstTrap_keeps (l : List SlotTrap) (h : ∀ x ∈ l, ∀ t, (x.note t).mem = t.mem) :
    ∀ x, firstTrap l = some x → ∀ t, (x.note t).mem = t.mem := by
  induction l with
  | nil => intro x hx; cases hx
  | cons y l ih =>
    have ih' := ih fun x hx => h x (List.mem_cons_of_mem _ hx)
    have hy := h y List.mem_cons_self
    intro x hx
    cases hz : firstTrap l with
    | none => simp only [firstTrap, hz] at hx; cases hx; exact hy
    | some z =>
      simp only [firstTrap, hz] at hx
      split at hx
      · cases hx; exact hy
      · split at hx
        · cases hx; exact ih' _ hz
        · split at hx <;> (cases hx; exact hy)

theorem State.bundleStops_keeps {s : State} (hs : s.Canonical) (t : Strand) (b : Block) (h : W64) (next : W32)
    (l : List (Who × Slot)) : (∀ x ∈ (s.bundleStops t b h next l).1, ∀ t, (x.note t).mem = t.mem) ∧
      ∀ y ∈ (s.bundleStops t b h next l).2, ∀ t, (y.2 t).mem = t.mem := by
  have hk := State.slotStops_keeps hs next l
  unfold State.bundleStops
  split
  · exact ⟨fun x hx t => by
      rcases List.mem_cons.1 hx with rfl | hx
      · rfl
      · exact hk.1 x hx t, hk.2⟩
  · exact hk

/-- The first trap that a test picks out is the first trap. -/
theorem Option.bind_test {α : Type} {o : Option α} {p : α → Prop} [DecidablePred p] {y : α}
    (h : (o.bind fun x => if p x then some x else none) = some y) : o = some y := by
  cases o with
  | none => cases h
  | some z =>
    simp only [Option.bind_some] at h
    split at h
    · exact h
    · cases h

theorem issueBundle_canon {h : W64} {l : List W64} {s u : State} (hs : s.Canonical) (hu : issueBundle h l s = .next u) :
    u.Canonical := by
  unfold issueBundle at hu
  dsimp only at hu
  split at hu
  · cases hu
  · rename_i t _
    split at hu
    · cases hu
    · rename_i x _
      split at hu
      · cases hu
      · rename_i b _
        have hs' : ({ s with sel := ⟨s.sel.core, t.warp, .core⟩ } : State).Canonical := hs
        split at hu
        · cases hu; exact hs'.of_mem (by simp)
        · rename_i l' _
          have hk := State.bundleStops_keeps hs' t b h (x.pri.pc + BitVec.ofNat 32 (8 * (1 + l.length))) l'
          generalize State.bundleStops { s with sel := ⟨s.sel.core, t.warp, .core⟩ } t b h (x.pri.pc + BitVec.ofNat 32 (8 * (1 + l.length))) l' = st at hu hk
          have hf := firstTrap_keeps st.1 hk.1
          have hd := firstTrap_keeps (st.1.filter (fun x => decide (x.rank < 2))) fun x hx => hk.1 x (List.mem_of_mem_filter hx)
          generalize firstTrap st.1 = first at hu hf
          split at hu
          · cases hu
            exact State.bundleOver_canon hs' _ _ _ _ _ _ _ _ (runSlots_canon _ _ _ _ _ (hs'.of_mem (State.modPath_mem _ _ _ _ _)))
          split at hu
          · rename_i y hy
            cases hu
            exact hs'.of_mem (by simp [hd y hy])
          split at hu
          · cases hu; exact hs'.of_mem (by simp)
          split at hu
          · cases hu; exact hs'.of_mem (by simp)
          split at hu
          · cases hu; exact hs'.of_mem (by simp)
          split at hu
          · rename_i y hy
            cases hu
            exact hs'.of_mem (by simp [hf y (Option.bind_test hy)])
          split at hu
          · cases hu; exact hs'.of_mem (by simp)
          split at hu
          · rename_i w ask _ hst
            cases hu
            exact hs'.of_mem ((State.bundleWait_mem _ _ _ _).trans (hk.2 (w, ask) (by rw [hst]; exact List.mem_cons_self) _))
          split at hu
          · rename_i y hy
            cases hu
            refine hs'.of_mem ?_
            cases first with
            | none => cases hy
            | some z =>
              simp only [Option.bind_some] at hy
              split at hy
              · cases hy
              · cases hy; simp [hf y rfl]
          split at hu
          · split at hu
            · cases hu; exact hs'.of_mem (by simp)
            · cases hu; exact hs'.of_mem (by simp)
          cases hu
          exact State.bundleOver_canon hs' _ _ _ _ _ _ _ _ (runSlots_canon _ _ _ _ _ (hs'.of_mem (State.bundleHead_mem _ _ _ _ _ _ _)))

/-! ## Instructions inside events -/

theorem runInstr_canon {s : State} (hs : s.Canonical) (i : Instr) : (runInstr i s).Canonical := by
  unfold runInstr
  split
  · split
    · exact issueBundle_canon hs (by assumption)
    · exact hs
  · split
    · exact issue_canon (slotBody_form i) hs (by assumption)
    · exact hs

/-! ## Events that store -/

theorem State.deliver_canon {s : State} (hs : s.Canonical) (c : Nat) (e : WbEntry) : (s.deliver c e).Canonical := by
  unfold State.deliver
  split
  · exact State.write_canon hs _ _
  · split
    · exact hs.of_mem rfl
    · exact State.atomMem_canon hs _ _ _ _ _ _ _ _ _ _
  · exact hs.of_mem (by simp)

theorem State.drain_canon {s : State} (hs : s.Canonical) (c : Nat) : (s.drain c).Canonical := by
  unfold State.drain
  split
  · exact State.deliver_canon (hs.of_mem (State.modCore_mem _ _ _)) _ _
  · exact hs

theorem State.sliceEffect_canon {s : State} (hs : s.Canonical) (r : SliceReq) : (s.sliceEffect r).Canonical := by
  unfold State.sliceEffect
  dsimp only
  split
  · have h : (match (atomBytes r.kind r.n (s.read r.addr r.n) r.data r.cmp).2 with
        | some b => s.write r.addr b | none => s).Canonical := by
      split
      · exact State.write_canon hs _ _
      · exact hs
    split
    · exact (canonical_congr ((State.addDone_mem _ _ _ _).trans (State.l1Drop_mem _ _ _))).2 h
    · exact h
  · exact State.atomMem_canon hs _ _ _ _ _ _ _ _ _ _

theorem State.sliceStep_canon {s : State} (hs : s.Canonical) (sl : Nat) : (s.sliceStep sl).Canonical := by
  unfold State.sliceStep
  split
  · exact hs
  · dsimp only
    have h (r : SliceReq) (f : Slice → Slice) : ((s.modSlice sl f).sliceEffect r).Canonical :=
      State.sliceEffect_canon ((canonical_congr (s := s) (t := s.modSlice sl f) rfl).2 hs) r
    split
    · exact (canonical_congr (State.logAtomic_mem _ _ _ _ _)).2 (h _ _)
    · exact (canonical_congr (State.gateUse_mem _ _)).2 (h _ _)

theorem State.qsubWrite_canon {s : State} (hs : s.Canonical) (q : Nat) (x : QsubReq) : (s.qsubWrite q x).Canonical := by
  unfold State.qsubWrite
  dsimp only
  split
  · rename_i ps _
    exact (State.writePieces_canon ps s x.bytes hs).of_mem (by simp)
  · exact hs.of_mem (by simp)
  · exact hs.of_mem (by simp)

theorem State.qsubStep_canon {s : State} (hs : s.Canonical) (q : Nat) : (s.qsubStep q).Canonical := by
  unfold State.qsubStep
  split
  · exact State.qsubWrite_canon hs _ _
  · exact hs

theorem State.outerAccess_canon {s : State} (hs : s.Canonical) (peer : Bool) (op : OuterOp) (pa : Nat) :
    (s.outerAccess peer op pa).Canonical := by
  unfold State.outerAccess
  split
  · exact hs
  · split
    · exact hs.of_mem rfl
    · exact State.write_canon hs _ _
    all_goals exact hs.of_mem (by simp)

theorem lostMemory_wf (n : Nat) (m : Memory) : Memory.wf (lostMemory n m) = true := by
  have h : ∀ (l acc : Memory), Memory.wf acc = true → Memory.wf (l.foldl (fun (acc : Memory) p =>
      SMap.set 0 acc p.1 (if isModule p.1 then Config.lostByte n p.1 else p.2)) acc) = true := by
    intro l
    induction l with
    | nil => exact fun acc ha => ha
    | cons p l ih => exact fun acc ha => ih _ (SMap.wf_set 0 _ _ ha)
  exact h m [] rfl

theorem State.powerOn_canon {s : State} (hs : s.Canonical) (err : Nat) : (s.powerOn err).Canonical := by
  unfold State.powerOn
  split
  · exact hs
  · exact (canonical_congr (State.bootBegin_mem _ _ _ _)).2 (SMap.wf_filter 0 _ hs)

theorem State.statusNow_canon {s : State} (hs : s.Canonical) (b : Block) : (s.statusNow b).Canonical := by
  unfold State.statusNow
  repeat' split
  all_goals first | exact hs | exact State.write_canon hs _ _

theorem State.endsAll_canon {s : State} (hs : s.Canonical) (c : Nat) : (s.endsAll c).Canonical := by
  unfold State.endsAll
  split
  · exact hs
  · exact foldl_canon (fun s b hs => State.statusNow_canon hs b.2) _ _ (hs.of_mem (State.coreReset_mem s c))

theorem State.warmReset_canon {s : State} (hs : s.Canonical) (kept : Bool) (err : Nat) : (s.warmReset kept err).Canonical := by
  unfold State.warmReset
  split
  · exact hs
  · refine (canonical_congr (State.bootBegin_mem _ _ _ _)).2 ?_
    unfold State.Canonical
    dsimp only
    split
    · exact foldl_canon (fun s p hs => State.endsAll_canon hs p.1) _ s hs
    · exact lostMemory_wf _ _

theorem State.losePower_canon {s : State} (hs : s.Canonical) : s.losePower.Canonical := SMap.wf_filter 0 _ hs

theorem State.deferredRun_canon {s : State} (hs : s.Canonical) (c : Nat) (t : Strand) (d : Deferred)
    (l : List (LaneAcc × Meets)) : (s.deferredRun c t d l).Canonical := by
  unfold State.deferredRun
  dsimp only
  have h (u : State) (hu : u.mem = s.mem) (w : Nat) (p : List (LaneAcc × Place)) (r : Bool) :
      (u.perform c w d.acc p r).Canonical := State.perform_canon (hs.of_mem hu) _ _ _ _ _
  split
  · exact (canonical_congr (State.arriveLater_mem _ _ _ _)).2 (h _ (by simp) _ _ _)
  · split
    · exact (canonical_congr (State.modPath_mem _ _ _ _ _)).2 (h _ (by simp) _ _ _)
    · exact h _ (by simp) _ _ _

theorem State.deferredStep_canon {s : State} (hs : s.Canonical) (c : Nat) : (s.deferredStep c).Canonical := by
  unfold State.deferredStep
  repeat' split
  all_goals first | exact hs | exact State.deferredRun_canon hs _ _ _ _ | exact hs.of_mem (by simp)

theorem State.interlockedReturn_canon {s : State} (hs : s.Canonical) (c : Nat) : (s.interlockedReturn c).Canonical := by
  unfold State.interlockedReturn
  split
  · exact hs.of_mem (by simp)
  · exact State.deferredStep_canon hs c

theorem State.globalPut_canon {s : State} (hs : s.Canonical) (c : Nat) (pa : Nat × Nat) (e : Elem) :
    (s.globalPut c pa e).Canonical := by
  unfold State.globalPut
  dsimp only
  have h := foldl_canon (f := fun (s : State) (p : Byte × Nat) => s.write (e.byteAt pa (e.gbit / 8 + p.2)) [p.1])
    (fun s x hs => State.write_canon hs _ _)
    (bitsPut (fun i => SMap.get 0 s.mem (e.byteAt pa i)) e.gbit e.bits e.val).zipIdx s hs
  split
  · exact h.of_mem (by simp)
  · exact h

theorem State.sendAdd_canon {s : State} (hs : s.Canonical) (c slot : Nat) (q : CReq) (p : CPart) (x : Elem × Nat × Nat) :
    (s.sendAdd c slot q p x).Canonical := by
  unfold State.sendAdd
  dsimp only
  split
  · exact hs.of_mem rfl
  · split
    · exact State.write_canon hs _ _
    · exact hs

theorem State.landStep_canon {s : State} (hs : s.Canonical) (c : Nat) : (s.landStep c).Canonical := by
  unfold State.landStep
  split
  · exact hs
  · split
    · refine hs.of_mem ?_
      dsimp only
      rw [State.partLanded_mem]
      split <;> simp [State.foldl_mem]
    · split
      · exact (canonical_congr (State.putReq_mem _ _ _ _)).2 (foldl_canon (fun s x hs => State.sendAdd_canon hs _ _ _ _ x) _ s hs)
      · exact (canonical_congr (State.partLanded_mem _ _ _ _ _)).2 (foldl_canon (fun s x hs => State.globalPut_canon hs _ _ _) _ s hs)
    · exact hs.of_mem (by simp)

theorem State.endBlock_canon {s : State} (hs : s.Canonical) (c rix : Nat) : (s.endBlock c rix).Canonical := by
  unfold State.endBlock
  split
  · exact hs
  · split
    · exact hs.of_mem (by simp)
    · dsimp only
      split
      · split
        · rename_i t ht
          refine (State.schedPut_canon hs ht).of_mem ?_
          rw [State.resetsOver_mem]; split <;> simp
        · exact hs.of_mem (by simp)
      · refine hs.of_mem ?_
        rw [State.resetsOver_mem]; split <;> simp

theorem State.completeGrid_canon {s : State} (hs : s.Canonical) (i : Nat) (g : Grid) : (s.completeGrid i g).Canonical := by
  unfold State.completeGrid
  dsimp only
  split
  · refine hs.of_mem ?_
    rw [State.releaseHeld_mem]
    dsimp only
    split <;> simp
  · split
    · refine (State.schedPut_canon hs (by assumption)).of_mem ?_
      rw [State.releaseHeld_mem]
      dsimp only
      split <;> simp
    · exact hs.of_mem (by simp)

theorem State.saveBlock_canon {s : State} (hs : s.Canonical) (c rix : Nat) (b : Block) : (s.saveBlock c rix b).Canonical := by
  rw [State.saveBlock]
  split
  · exact hs.of_mem (by simp)
  · exact hs.of_mem (by simp)
  · refine State.Canonical.of_mem (s := State.writePieces _ _ _) ?_ ((State.leaveSaved_mem _ _ _ _ _).trans (State.schedDone_mem _))
    exact State.writePieces_canon _ _ _ (hs.of_mem (State.modCore_mem _ _ _))

theorem State.endStep_canon {s : State} (hs : s.Canonical) (c : Nat) : (s.endStep c).Canonical := by
  unfold State.endStep
  split
  · exact State.endBlock_canon hs _ _
  · exact hs

theorem State.gridStep_canon {s : State} (hs : s.Canonical) : s.gridStep.Canonical := by
  unfold State.gridStep
  split
  · exact State.completeGrid_canon hs _ _
  · exact hs

theorem State.haltStep_canon {s : State} (hs : s.Canonical) (c : Nat) : (s.haltStep c).Canonical := by
  unfold State.haltStep
  split
  · exact State.saveBlock_canon hs _ _ _
  · exact hs

theorem State.mxStart_canon {s : State} (hs : s.Canonical) (c : Nat) : (s.mxStart c).Canonical := by
  unfold State.mxStart
  split
  · exact hs
  · dsimp only
    split
    · exact hs.of_mem (by simp)
    · split
      · exact hs.of_mem (by simp)
      · refine (canonical_congr (State.modClock_mem _ _ _)).2 ((canonical_congr (State.hazAfter_mem _ _ _)).2 ?_)
        exact runInstr_canon (hs.of_mem (by simp)) _

/-! ## Every instruction and every event -/

theorem whenDue_canon {d : Bool} {u s t : State} (hs : s.Canonical) (hu : u.Canonical) (h : whenDue d u s = .next t) :
    t.Canonical := by
  unfold whenDue at h
  cases h
  exact ite_canon hu hs

/-- What an instruction or an event of the machine ends in has the form. -/
theorem exec_canon {i : Instr} {s t : State} (hs : s.Canonical) (h : exec i s = .next t) : t.Canonical := by
  cases i with
  | mov f => exact issue_canon (slotBody_form (.mov f)) hs h
  | bundle hdr slots => exact issueBundle_canon hs h
  | iadd f => exact issue_canon (slotBody_form (.iadd f)) hs h
  | iaddI f => exact issue_canon (slotBody_form (.iaddI f)) hs h
  | isub f => exact issue_canon (slotBody_form (.isub f)) hs h
  | isubI f => exact issue_canon (slotBody_form (.isubI f)) hs h
  | imul f => exact issue_canon (slotBody_form (.imul f)) hs h
  | imulI f => exact issue_canon (slotBody_form (.imulI f)) hs h
  | imulh f => exact issue_canon (slotBody_form (.imulh f)) hs h
  | imulhI f => exact issue_canon (slotBody_form (.imulhI f)) hs h
  | imad f => exact issue_canon (slotBody_form (.imad f)) hs h
  | idiv f => exact issue_canon (slotBody_form (.idiv f)) hs h
  | idivI f => exact issue_canon (slotBody_form (.idivI f)) hs h
  | irem f => exact issue_canon (slotBody_form (.irem f)) hs h
  | iremI f => exact issue_canon (slotBody_form (.iremI f)) hs h
  | imin f => exact issue_canon (slotBody_form (.imin f)) hs h
  | iminI f => exact issue_canon (slotBody_form (.iminI f)) hs h
  | imax f => exact issue_canon (slotBody_form (.imax f)) hs h
  | imaxI f => exact issue_canon (slotBody_form (.imaxI f)) hs h
  | iabs f => exact issue_canon (slotBody_form (.iabs f)) hs h
  | ineg f => exact issue_canon (slotBody_form (.ineg f)) hs h
  | iadds f => exact issue_canon (slotBody_form (.iadds f)) hs h
  | iaddsI f => exact issue_canon (slotBody_form (.iaddsI f)) hs h
  | isad f => exact issue_canon (slotBody_form (.isad f)) hs h
  | idot4 f => exact issue_canon (slotBody_form (.idot4 f)) hs h
  | and f => exact issue_canon (slotBody_form (.and f)) hs h
  | andI f => exact issue_canon (slotBody_form (.andI f)) hs h
  | or f => exact issue_canon (slotBody_form (.or f)) hs h
  | orI f => exact issue_canon (slotBody_form (.orI f)) hs h
  | xor f => exact issue_canon (slotBody_form (.xor f)) hs h
  | xorI f => exact issue_canon (slotBody_form (.xorI f)) hs h
  | andn f => exact issue_canon (slotBody_form (.andn f)) hs h
  | andnI f => exact issue_canon (slotBody_form (.andnI f)) hs h
  | not f => exact issue_canon (slotBody_form (.not f)) hs h
  | shl f => exact issue_canon (slotBody_form (.shl f)) hs h
  | shlI f => exact issue_canon (slotBody_form (.shlI f)) hs h
  | shr f => exact issue_canon (slotBody_form (.shr f)) hs h
  | shrI f => exact issue_canon (slotBody_form (.shrI f)) hs h
  | sar f => exact issue_canon (slotBody_form (.sar f)) hs h
  | sarI f => exact issue_canon (slotBody_form (.sarI f)) hs h
  | rotl f => exact issue_canon (slotBody_form (.rotl f)) hs h
  | rotlI f => exact issue_canon (slotBody_form (.rotlI f)) hs h
  | funnel f => exact issue_canon (slotBody_form (.funnel f)) hs h
  | bfx f => exact issue_canon (slotBody_form (.bfx f)) hs h
  | bfi f => exact issue_canon (slotBody_form (.bfi f)) hs h
  | popc f => exact issue_canon (slotBody_form (.popc f)) hs h
  | clz f => exact issue_canon (slotBody_form (.clz f)) hs h
  | ctz f => exact issue_canon (slotBody_form (.ctz f)) hs h
  | brev f => exact issue_canon (slotBody_form (.brev f)) hs h
  | bshuf f => exact issue_canon (slotBody_form (.bshuf f)) hs h
  | lea f => exact issue_canon (slotBody_form (.lea f)) hs h
  | leaI f => exact issue_canon (slotBody_form (.leaI f)) hs h
  | icmp f => exact issue_canon (slotBody_form (.icmp f)) hs h
  | icmpI f => exact issue_canon (slotBody_form (.icmpI f)) hs h
  | isel f => exact issue_canon (slotBody_form (.isel f)) hs h
  | plop f => exact issue_canon (slotBody_form (.plop f)) hs h
  | movh f => exact issue_canon (slotBody_form (.movh f)) hs h
  | movhI f => exact issue_canon (slotBody_form (.movhI f)) hs h
  | movi f => exact issue_canon (slotBody_form (.movi f)) hs h
  | vote f => exact issue_canon (slotBody_form (.vote f)) hs h
  | rdlane f => exact issue_canon (slotBody_form (.rdlane f)) hs h
  | rdlaneI f => exact issue_canon (slotBody_form (.rdlaneI f)) hs h
  | find1 f => exact issue_canon (slotBody_form (.find1 f)) hs h
  | cvti f => exact issue_canon (slotBody_form (.cvti f)) hs h
  | iredw f => exact issue_canon (slotBody_form (.iredw f)) hs h
  | clamp f => exact issue_canon (slotBody_form (.clamp f)) hs h
  | fadd f => exact issue_canon (slotBody_form (.fadd f)) hs h
  | faddI f => exact issue_canon (slotBody_form (.faddI f)) hs h
  | fsub f => exact issue_canon (slotBody_form (.fsub f)) hs h
  | fsubI f => exact issue_canon (slotBody_form (.fsubI f)) hs h
  | fmul f => exact issue_canon (slotBody_form (.fmul f)) hs h
  | fmulI f => exact issue_canon (slotBody_form (.fmulI f)) hs h
  | ffma f => exact issue_canon (slotBody_form (.ffma f)) hs h
  | fnma f => exact issue_canon (slotBody_form (.fnma f)) hs h
  | fmin f => exact issue_canon (slotBody_form (.fmin f)) hs h
  | fminI f => exact issue_canon (slotBody_form (.fminI f)) hs h
  | fmax f => exact issue_canon (slotBody_form (.fmax f)) hs h
  | fmaxI f => exact issue_canon (slotBody_form (.fmaxI f)) hs h
  | fabs f => exact issue_canon (slotBody_form (.fabs f)) hs h
  | fneg f => exact issue_canon (slotBody_form (.fneg f)) hs h
  | fcmp f => exact issue_canon (slotBody_form (.fcmp f)) hs h
  | fcmpI f => exact issue_canon (slotBody_form (.fcmpI f)) hs h
  | fclass f => exact issue_canon (slotBody_form (.fclass f)) hs h
  | frint f => exact issue_canon (slotBody_form (.frint f)) hs h
  | fcvt f => exact issue_canon (slotBody_form (.fcvt f)) hs h
  | f2i f => exact issue_canon (slotBody_form (.f2i f)) hs h
  | i2f f => exact issue_canon (slotBody_form (.i2f f)) hs h
  | fdot2 f => exact issue_canon (slotBody_form (.fdot2 f)) hs h
  | fredw f => exact issue_canon (slotBody_form (.fredw f)) hs h
  | fsetmode f => exact issue_canon (slotBody_form (.fsetmode f)) hs h
  | fgetmode f => exact issue_canon (slotBody_form (.fgetmode f)) hs h
  | fflags f => exact issue_canon (slotBody_form (.fflags f)) hs h
  | fflagsClr f => exact issue_canon (slotBody_form (.fflagsClr f)) hs h
  | fscale f => exact issue_canon (slotBody_form (.fscale f)) hs h
  | fscaleI f => exact issue_canon (slotBody_form (.fscaleI f)) hs h
  | rcp f => exact issue_canon (slotBody_form (.rcp f)) hs h
  | rsq f => exact issue_canon (slotBody_form (.rsq f)) hs h
  | sqrt f => exact issue_canon (slotBody_form (.sqrt f)) hs h
  | ex2 f => exact issue_canon (slotBody_form (.ex2 f)) hs h
  | lg2 f => exact issue_canon (slotBody_form (.lg2 f)) hs h
  | sinpi f => exact issue_canon (slotBody_form (.sinpi f)) hs h
  | cospi f => exact issue_canon (slotBody_form (.cospi f)) hs h
  | tanh f => exact issue_canon (slotBody_form (.tanh f)) hs h
  | sigm f => exact issue_canon (slotBody_form (.sigm f)) hs h
  | fdiv f => exact issue_canon (slotBody_form (.fdiv f)) hs h
  | ld f => exact issue_canon (slotBody_form (.ld f)) hs h
  | ldI f => exact issue_canon (slotBody_form (.ldI f)) hs h
  | st f => exact issue_canon (slotBody_form (.st f)) hs h
  | stI f => exact issue_canon (slotBody_form (.stI f)) hs h
  | ldw f => exact issue_canon (slotBody_form (.ldw f)) hs h
  | ldwI f => exact issue_canon (slotBody_form (.ldwI f)) hs h
  | ldAcq f => exact issue_canon (slotBody_form (.ldAcq f)) hs h
  | ldAcqI f => exact issue_canon (slotBody_form (.ldAcqI f)) hs h
  | stRel f => exact issue_canon (slotBody_form (.stRel f)) hs h
  | stRelI f => exact issue_canon (slotBody_form (.stRelI f)) hs h
  | atom f => exact issue_canon (slotBody_form (.atom f)) hs h
  | cas f => exact issue_canon (slotBody_form (.cas f)) hs h
  | red f => exact issue_canon (slotBody_form (.red f)) hs h
  | atomX f => exact issue_canon (slotBody_form (.atomX f)) hs h
  | casX f => exact issue_canon (slotBody_form (.casX f)) hs h
  | fenceFull f => exact issue_canon (slotBody_form (.fenceFull f)) hs h
  | fenceAcq f => exact issue_canon (slotBody_form (.fenceAcq f)) hs h
  | fenceRel f => exact issue_canon (slotBody_form (.fenceRel f)) hs h
  | fenceEng f => exact issue_canon (slotBody_form (.fenceEng f)) hs h
  | ldRacq f => exact issue_canon (slotBody_form (.ldRacq f)) hs h
  | arrive f => exact issue_canon (slotBody_form (.arrive f)) hs h
  | waitph f => exact issue_canon (slotBody_form (.waitph f)) hs h
  | tryph f => exact issue_canon (slotBody_form (.tryph f)) hs h
  | barinit f => exact issue_canon (slotBody_form (.barinit f)) hs h
  | pres f => exact issue_canon (slotBody_form (.pres f)) hs h
  | cctlInvl f => exact issue_canon (slotBody_form (.cctlInvl f)) hs h
  | cctlInvall f => exact issue_canon (slotBody_form (.cctlInvall f)) hs h
  | cctlPref f => exact issue_canon (slotBody_form (.cctlPref f)) hs h
  | cctlEvf f => exact issue_canon (slotBody_form (.cctlEvf f)) hs h
  | bra f => exact issue_canon (slotBody_form (.bra f)) hs h
  | braU f => exact issue_canon (slotBody_form (.braU f)) hs h
  | brx f => exact issue_canon (slotBody_form (.brx f)) hs h
  | call f => exact issue_canon (slotBody_form (.call f)) hs h
  | callx f => exact issue_canon (slotBody_form (.callx f)) hs h
  | ret f => exact issue_canon (slotBody_form (.ret f)) hs h
  | brk f => exact issue_canon (slotBody_form (.brk f)) hs h
  | loop f => exact issue_canon (slotBody_form (.loop f)) hs h
  | loopPipe f => exact issue_canon (slotBody_form (.loopPipe f)) hs h
  | rotset f => exact issue_canon (slotBody_form (.rotset f)) hs h
  | modeCollapse f => exact issue_canon (slotBody_form (.modeCollapse f)) hs h
  | modeExpand f => exact issue_canon (slotBody_form (.modeExpand f)) hs h
  | sync f => exact issue_canon (slotBody_form (.sync f)) hs h
  | exit f => exact issue_canon (slotBody_form (.exit f)) hs h
  | trap f => exact issue_canon (slotBody_form (.trap f)) hs h
  | eret f => exact issue_canon (slotBody_form (.eret f)) hs h
  | nop f => exact issue_canon (slotBody_form (.nop f)) hs h
  | yield f => exact issue_canon (slotBody_form (.yield f)) hs h
  | elect f => exact issue_canon (slotBody_form (.elect f)) hs h
  | folld f => exact issue_canon (slotBody_form (.folld f)) hs h
  | folfree f => exact issue_canon (slotBody_form (.folfree f)) hs h
  | domset f => exact issue_canon (slotBody_form (.domset f)) hs h
  | mms f => exact issue_canon (slotBody_form (.mms f)) hs h
  | mmsz f => exact issue_canon (slotBody_form (.mmsz f)) hs h
  | mmsg f => exact issue_canon (slotBody_form (.mmsg f)) hs h
  | accalloc f => exact issue_canon (slotBody_form (.accalloc f)) hs h
  | accallocI f => exact issue_canon (slotBody_form (.accallocI f)) hs h
  | accfree f => exact issue_canon (slotBody_form (.accfree f)) hs h
  | accfreeI f => exact issue_canon (slotBody_form (.accfreeI f)) hs h
  | accrd f => exact issue_canon (slotBody_form (.accrd f)) hs h
  | accwr f => exact issue_canon (slotBody_form (.accwr f)) hs h
  | accclr f => exact issue_canon (slotBody_form (.accclr f)) hs h
  | fmtset f => exact issue_canon (slotBody_form (.fmtset f)) hs h
  | fmtsetI f => exact issue_canon (slotBody_form (.fmtsetI f)) hs h
  | accadd f => exact issue_canon (slotBody_form (.accadd f)) hs h
  | copy f => exact issue_canon (slotBody_form (.copy f)) hs h
  | kick f => exact issue_canon (slotBody_form (.kick f)) hs h
  | gather f => exact issue_canon (slotBody_form (.gather f)) hs h
  | scatter f => exact issue_canon (slotBody_form (.scatter f)) hs h
  | scatterAdd f => exact issue_canon (slotBody_form (.scatterAdd f)) hs h
  | pfl2 f => exact issue_canon (slotBody_form (.pfl2 f)) hs h
  | pfl2Tok f => exact issue_canon (slotBody_form (.pfl2Tok f)) hs h
  | cstat f => exact issue_canon (slotBody_form (.cstat f)) hs h
  | seedtry f => exact issue_canon (slotBody_form (.seedtry f)) hs h
  | seedscan f => exact issue_canon (slotBody_form (.seedscan f)) hs h
  | fit f => exact issue_canon (slotBody_form (.fit f)) hs h
  | proj f => exact issue_canon (slotBody_form (.proj f)) hs h
  | mgen f => exact issue_canon (slotBody_form (.mgen f)) hs h
  | mstat f => exact issue_canon (slotBody_form (.mstat f)) hs h
  | xlate f => exact issue_canon (slotBody_form (.xlate f)) hs h
  | xprobe f => exact issue_canon (slotBody_form (.xprobe f)) hs h
  | xinvPage f => exact issue_canon (slotBody_form (.xinvPage f)) hs h
  | xinvRange f => exact issue_canon (slotBody_form (.xinvRange f)) hs h
  | xinvPasid f => exact issue_canon (slotBody_form (.xinvPasid f)) hs h
  | xinvAll f => exact issue_canon (slotBody_form (.xinvAll f)) hs h
  | xflush f => exact issue_canon (slotBody_form (.xflush f)) hs h
  | pclass f => exact issue_canon (slotBody_form (.pclass f)) hs h
  | pclassI f => exact issue_canon (slotBody_form (.pclassI f)) hs h
  | opsel f => exact issue_canon (slotBody_form (.opsel f)) hs h
  | opselI f => exact issue_canon (slotBody_form (.opselI f)) hs h
  | grant f => exact issue_canon (slotBody_form (.grant f)) hs h
  | tmark f => exact issue_canon (slotBody_form (.tmark f)) hs h
  | tmarkI f => exact issue_canon (slotBody_form (.tmarkI f)) hs h
  | bkpt f => exact issue_canon (slotBody_form (.bkpt f)) hs h
  | bkptI f => exact issue_canon (slotBody_form (.bkptI f)) hs h
  | shash f => exact issue_canon (slotBody_form (.shash f)) hs h
  | confrd f => exact issue_canon (slotBody_form (.confrd f)) hs h
  | rpctlOff f => exact issue_canon (slotBody_form (.rpctlOff f)) hs h
  | rpctlRec f => exact issue_canon (slotBody_form (.rpctlRec f)) hs h
  | rpctlReplay f => exact issue_canon (slotBody_form (.rpctlReplay f)) hs h
  | rpctlQuery f => exact issue_canon (slotBody_form (.rpctlQuery f)) hs h
  | qsub f => exact issue_canon (slotBody_form (.qsub f)) hs h
  | getsp f => exact issue_canon (slotBody_form (.getsp f)) hs h
  | setsp f => exact issue_canon (slotBody_form (.setsp f)) hs h
  | resultLands c => exact whenDue_canon hs (hs.of_mem (by simp)) h
  | interlockedResultReturn c => exact whenDue_canon hs (State.interlockedReturn_canon hs _) h
  | linePresent c => exact whenDue_canon hs (hs.of_mem (by simp)) h
  | requestEntryFree c => exact whenDue_canon hs (hs.of_mem (by simp)) h
  | writeBufferDrain c => exact whenDue_canon hs (State.drain_canon hs _) h
  | promotionRequest c => exact whenDue_canon hs (hs.of_mem (by simp)) h
  | sliceAtomic sl => exact whenDue_canon hs (State.sliceStep_canon hs _) h
  | remoteScratchAccess c => exact whenDue_canon hs (hs.of_mem (by simp)) h
  | warpReady c => exact whenDue_canon hs (hs.of_mem (by simp)) h
  | loopBackEdge c => exact whenDue_canon hs (hs.of_mem (by simp)) h
  | reconvergeMerge c => exact whenDue_canon hs (hs.of_mem (by simp)) h
  | folldComplete c => exact whenDue_canon hs (hs.of_mem (by simp)) h
  | collapseComplete c => exact whenDue_canon hs (hs.of_mem (by simp)) h
  | expandComplete c => exact whenDue_canon hs (hs.of_mem (by simp)) h
  | strandFaultFreeze c => exact whenDue_canon hs (hs.of_mem (by simp)) h
  | strandSnapshotResume c => exact whenDue_canon hs (hs.of_mem (by simp)) h
  | trapEntry c => exact whenDue_canon hs (hs.of_mem (by simp)) h
  | asyncTrapDelivery c => exact whenDue_canon hs (hs.of_mem (by simp)) h
  | kettleLineRise l => exact whenDue_canon hs (hs.of_mem (by simp)) h
  | kettleRelease l => exact whenDue_canon hs (hs.of_mem (by simp)) h
  | copyAccept c => exact whenDue_canon hs (hs.of_mem (by simp)) h
  | kickEntryAccept c => exact whenDue_canon hs (hs.of_mem (by simp)) h
  | copyLineMove c => exact whenDue_canon hs (hs.of_mem (by simp)) h
  | copyGlobalReturn c => exact whenDue_canon hs (hs.of_mem (by simp)) h
  | copyBytesLand c => exact whenDue_canon hs (State.landStep_canon hs _) h
  | requestError c => exact whenDue_canon hs (hs.of_mem (by simp)) h
  | pfl2LineDone c => exact whenDue_canon hs (hs.of_mem (by simp)) h
  | pageWaitResume c => exact whenDue_canon hs (hs.of_mem (by simp)) h
  | mxStart c => exact whenDue_canon hs (State.mxStart_canon hs _) h
  | mxOccupancyEnd c => exact whenDue_canon hs (hs.of_mem (by simp)) h
  | mmsgRecordRead c => exact whenDue_canon hs (hs.of_mem (by simp)) h
  | accallocGrant c => exact whenDue_canon hs (hs.of_mem (by simp)) h
  | accfreeRelease c => exact whenDue_canon hs (hs.of_mem (by simp)) h
  | accDeadlock c => exact whenDue_canon hs (hs.of_mem (by simp)) h
  | mxResetEnd c => exact whenDue_canon hs (hs.of_mem (by simp)) h
  | bankTransfer c => exact whenDue_canon hs (hs.of_mem (by simp)) h
  | marbleAccept c => exact whenDue_canon hs (hs.of_mem (by simp)) h
  | marbleStart c => exact whenDue_canon hs (hs.of_mem (by simp)) h
  | marbleComplete c => exact whenDue_canon hs (hs.of_mem (by simp)) h
  | candidateComplete c => exact whenDue_canon hs (hs.of_mem (by simp)) h
  | scanDeadline c => exact whenDue_canon hs (hs.of_mem (by simp)) h
  | qwpWrite q v => exact whenDue_canon hs (hs.of_mem (by simp)) h
  | qctlWrite q v => exact whenDue_canon hs (hs.of_mem (by simp)) h
  | qstatClear q v => exact whenDue_canon hs (hs.of_mem (by simp)) h
  | recordAdmit => exact whenDue_canon hs (hs.of_mem (by simp)) h
  | blockPlace c => exact whenDue_canon hs (hs.of_mem (by simp)) h
  | blockEnd c => exact whenDue_canon hs (State.endStep_canon hs _) h
  | gridComplete => exact whenDue_canon hs (State.gridStep_canon hs) h
  | preempt c => exact whenDue_canon hs (hs.of_mem (by simp)) h
  | preemptHaltDone c => exact whenDue_canon hs (State.haltStep_canon hs _) h
  | mxResetCmd c => exact whenDue_canon hs (hs.of_mem (by simp)) h
  | coreResetCmd c => exact whenDue_canon hs (hs.of_mem (by simp)) h
  | walk c => exact whenDue_canon hs (hs.of_mem (by simp)) h
  | atsCompletion c r => exact whenDue_canon hs (hs.of_mem (by simp)) h
  | atsTimeout c => exact whenDue_canon hs (hs.of_mem (by simp)) h
  | prgResponse c r => exact whenDue_canon hs (hs.of_mem (by simp)) h
  | pageRequestTimeout c => exact whenDue_canon hs (hs.of_mem (by simp)) h
  | hostAtsInvalidate pasid va pages => exact whenDue_canon hs (hs.of_mem (by simp)) h
  | invalidationComplete => exact whenDue_canon hs (hs.of_mem (by simp)) h
  | hostInvPage pasid => exact whenDue_canon hs (hs.of_mem (by simp)) h
  | hostInvRange pasid => exact whenDue_canon hs (hs.of_mem (by simp)) h
  | hostInvPasid pasid => exact whenDue_canon hs (hs.of_mem (by simp)) h
  | hostInvAll => exact whenDue_canon hs (hs.of_mem (by simp)) h
  | hostHostAccess peer op pa => exact whenDue_canon hs (State.outerAccess_canon hs _ _ _) h
  | hostCompletionError c => exact whenDue_canon hs (hs.of_mem (by simp)) h
  | peerLoss c => exact whenDue_canon hs (hs.of_mem (by simp)) h
  | cgrantWrite c v => exact whenDue_canon hs (hs.of_mem (by simp)) h
  | settleComplete c => exact whenDue_canon hs (hs.of_mem (by simp)) h
  | governedStall c => exact whenDue_canon hs (hs.of_mem (by simp)) h
  | slewStep => exact whenDue_canon hs (hs.of_mem (by simp)) h
  | slewGrant c => exact whenDue_canon hs (hs.of_mem (by simp)) h
  | fillerEnd c => exact whenDue_canon hs (hs.of_mem (by simp)) h
  | slewWrite g hi isCtl v => exact whenDue_canon hs (hs.of_mem (by simp)) h
  | hangTimeout c => exact whenDue_canon hs (hs.of_mem (by simp)) h
  | mxhangTimeout c => exact whenDue_canon hs (hs.of_mem (by simp)) h
  | wstatClear c v => exact whenDue_canon hs (hs.of_mem (by simp)) h
  | stopArmCycle c v => exact whenDue_canon hs (hs.of_mem (by simp)) h
  | stopArmCount c v => exact whenDue_canon hs (hs.of_mem (by simp)) h
  | stopDisarm c v => exact whenDue_canon hs (hs.of_mem (by simp)) h
  | stopResume c => exact whenDue_canon hs (hs.of_mem (by simp)) h
  | preciseStop c => exact whenDue_canon hs (hs.of_mem (by simp)) h
  | sample c => exact whenDue_canon hs (hs.of_mem (by simp)) h
  | bcmClear c => exact whenDue_canon hs (hs.of_mem (by simp)) h
  | divergedClear c => exact whenDue_canon hs (hs.of_mem (by simp)) h
  | obsctlWrite c v => exact whenDue_canon hs (hs.of_mem (by simp)) h
  | headbandFlush => exact whenDue_canon hs (hs.of_mem (by simp)) h
  | headbandEnable en => exact whenDue_canon hs (hs.of_mem (by simp)) h
  | dropCountEmit => exact whenDue_canon hs (hs.of_mem (by simp)) h
  | losslessRoom => exact whenDue_canon hs (hs.of_mem (by simp)) h
  | timeSync => exact whenDue_canon hs (hs.of_mem (by simp)) h
  | rpmodeOff sl => exact whenDue_canon hs (hs.of_mem (by simp)) h
  | rpmodeRecord sl => exact whenDue_canon hs (hs.of_mem (by simp)) h
  | rpmodeReplay sl => exact whenDue_canon hs (hs.of_mem (by simp)) h
  | rlogPartialFlush sl => exact whenDue_canon hs (hs.of_mem (by simp)) h
  | gateTimeout sl => exact whenDue_canon hs (hs.of_mem (by simp)) h
  | shashRetire c => exact whenDue_canon hs (hs.of_mem (by simp)) h
  | pressPinAssert => exact whenDue_canon hs (hs.of_mem (by simp)) h
  | pressPinDeassert => exact whenDue_canon hs (hs.of_mem (by simp)) h
  | pressCmd => exact whenDue_canon hs (hs.of_mem (by simp)) h
  | pressReleaseCmd => exact whenDue_canon hs (hs.of_mem (by simp)) h
  | pressEdge => exact whenDue_canon hs (hs.of_mem (by simp)) h
  | pressReleaseEdge => exact whenDue_canon hs (hs.of_mem (by simp)) h
  | dramRefresh stk => cases h; exact hs
  | eccScrubForced stk => cases h; exact hs
  | powerOn err => cases h; exact State.powerOn_canon hs _
  | warmReset memKept err => cases h; exact State.warmReset_canon hs _ _
  | attestGo => exact whenDue_canon hs (hs.of_mem (by simp)) h
  | attestDone => exact whenDue_canon hs (hs.of_mem (by simp)) h
  | controlRegisterWrite off v => exact whenDue_canon hs (hs.of_mem (by simp)) h
  | qsubRecordWritten q => exact whenDue_canon hs (State.qsubStep_canon hs _) h
  | configurationSpaceWrite pasidEn atsEn priEn => exact whenDue_canon hs (hs.of_mem (by simp)) h
  | powerLoss => cases h; exact State.losePower_canon hs


/-- An event of a core. -/
theorem orderedEvents_canon {s : State} (hs : s.Canonical) (c : Nat) : ∀ e ∈ orderedEvents, (e.eff s c).Canonical := by
  simp only [orderedEvents, coreEvents, startEvents, orderEvents, List.cons_append, List.nil_append, List.forall_mem_cons]
  repeat' apply And.intro
  all_goals first
    | exact State.drain_canon hs c
    | exact State.interlockedReturn_canon hs c
    | exact State.landStep_canon hs c
    | exact State.mxStart_canon hs c
    | exact fun _ h => nomatch h
    | exact hs.of_mem (by simp)

/-! What the decoders of a core hand on has the memory of the state they were given. -/

theorem State.strandAct_run {s : State} {c : Nat} {i : Instr} {u : State} (h : s.strandAct c = .run i u) : u.mem = s.mem := by
  unfold State.strandAct at h
  dsimp only at h
  repeat' split at h
  all_goals first | (cases h; rfl) | cases h

theorem State.strandAct_move {s : State} {c : Nat} {u : State} (h : s.strandAct c = .move u) : u.mem = s.mem := by
  unfold State.strandAct at h
  dsimp only at h
  repeat' split at h
  all_goals first | (cases h; rfl) | (cases h; simp) | cases h

theorem State.simtAct_run {s : State} {c : Nat} {i : Instr} {u : State} (h : s.simtAct c = .run i u) : u.mem = s.mem := by
  unfold State.simtAct at h
  dsimp only at h
  repeat' split at h
  all_goals first | (cases h; rfl) | cases h

theorem State.simtAct_move {s : State} {c : Nat} {u : State} (h : s.simtAct c = .move u) : u.mem = s.mem := by
  unfold State.simtAct at h
  dsimp only at h
  repeat' split at h
  all_goals first | (cases h; rfl) | (cases h; simp) | cases h


end Sys2Proof.Machine
end

