-- ==== Sys2Proof/Laws/Encode.lean ====
section
/-! SUPPORT. The fields of an encoded word are the fields it was made of, and a word is made of its fields,
for each of the eight forms of R27. -/

set_option Elab.async false

namespace Sys2Proof

/-- Appending bit vectors weighs the high part by the width of the low part. -/
theorem toNat_append_eq {m n : Nat} (x : BitVec m) (y : BitVec n) :
    (x ++ y).toNat = x.toNat * 2 ^ n + y.toNat := by
  rw [BitVec.toNat_append, ← Nat.shiftLeft_add_eq_or_of_lt y.isLt, Nat.shiftLeft_eq]

theorem toNat_ofBool_eq (b : Bool) : (BitVec.ofBool b).toNat = b.toNat := by cases b <;> rfl

/-- A field of a word, from the word's number. -/
theorem field_eq {n : Nat} (w : W64) (s : Nat) (x : BitVec n) (h : w.toNat / 2 ^ s % 2 ^ n = x.toNat) :
    w.extractLsb' s n = x :=
  BitVec.eq_of_toNat_eq (by rw [BitVec.extractLsb'_toNat, Nat.shiftRight_eq_div_pow, h])

/-- A bit of a word, from the word's number. -/
theorem bit_eq (w : W64) (s : Nat) (b : Bool) (h : w.toNat / 2 ^ s % 2 = b.toNat) : w.getLsbD s = b := by
  rw [BitVec.getLsbD, Nat.testBit_eq_decide_div_mod_eq, h]
  cases b <;> rfl

/-- Adjacent fields join. -/
theorem join_eq (w : W64) {a b m n : Nat} (h : b + n = a) :
    w.extractLsb' a m ++ w.extractLsb' b n = w.extractLsb' b (m + n) :=
  BitVec.extractLsb'_append_extractLsb'_eq_extractLsb' h.symm

/-- A bit is a field of one bit. -/
theorem ofBool_getLsbD_eq (w : W64) (k : Nat) : BitVec.ofBool (w.getLsbD k) = w.extractLsb' k 1 := by
  ext i hi
  obtain rfl : i = 0 := by omega
  simp

/-- The number of a word of this form (R27). -/
theorem F2.word_toNat (u : BitVec 3) (o : BitVec 6) (f : F2) :
    (f.word u o).toNat = 1 * 2 ^ 62 + u.toNat * 2 ^ 59 + o.toNat * 2 ^ 53 + f.mod.toNat * 2 ^ 50
      + f.d.toNat * 2 ^ 41 + f.a.toNat * 2 ^ 32 + f.b.toNat * 2 ^ 23 + f.amod.toNat * 2 ^ 11
      + f.rnd.toNat * 2 ^ 8 + f.nf.toNat * 2 ^ 7 + f.g.pred.toNat * 2 ^ 3 + f.g.pn.toNat * 2 ^ 2
      + f.g.tail.toNat := by
  simp only [F2.word, Guard.bits, toNat_append_eq, toNat_ofBool_eq]
  norm_num
  ring

/-- The fields of a word are those it was made of (R27). -/
theorem F2.word_fields (u : BitVec 3) (o : BitVec 6) (f : F2) :
    (f.word u o).extractLsb' 62 2 = 1#2 ∧
    (f.word u o).extractLsb' 59 3 = u ∧
    (f.word u o).extractLsb' 53 6 = o ∧
    f2Of (f.word u o) = f := by
  have h := F2.word_toNat u o f
  have := u.isLt
  have := o.isLt
  have := f.mod.isLt
  have := f.d.isLt
  have := f.a.isLt
  have := f.b.isLt
  have := f.amod.isLt
  have := f.rnd.isLt
  have := Bool.toNat_lt f.nf
  have := f.g.pred.isLt
  have := Bool.toNat_lt f.g.pn
  have := f.g.tail.isLt
  refine ⟨?_, ?_, ?_, ?_⟩
  · exact field_eq _ _ _ (by simp; omega)
  · exact field_eq _ _ _ (by simp; omega)
  · exact field_eq _ _ _ (by simp; omega)
  · obtain ⟨mod, d, a, b, amod, rnd, nf, pred, pn, tail⟩ := f
    simp only [f2Of, guardOf] at *
    congr 1
    · exact field_eq _ _ _ (by omega)
    · exact field_eq _ _ _ (by omega)
    · exact field_eq _ _ _ (by omega)
    · exact field_eq _ _ _ (by omega)
    · exact field_eq _ _ _ (by omega)
    · exact field_eq _ _ _ (by omega)
    · exact bit_eq _ _ _ (by omega)
    · congr 1
      · exact field_eq _ _ _ (by omega)
      · exact bit_eq _ _ _ (by omega)
      · exact field_eq _ _ _ (by omega)

/-- A word is made of its fields (R27). -/
theorem F2.word_of (w : W64) (hk : w.extractLsb' 62 2 = 1#2) :
    (f2Of w).word (w.extractLsb' 59 3) (w.extractLsb' 53 6) = w := by
  rw [F2.word, Guard.bits, ← hk]
  simp only [f2Of, guardOf, ofBool_getLsbD_eq]
  rw [join_eq w (a := 62) (b := 59) (m := 2) (n := 3) rfl,
    join_eq w (a := 59) (b := 53) (m := 5) (n := 6) rfl,
    join_eq w (a := 53) (b := 50) (m := 11) (n := 3) rfl,
    join_eq w (a := 50) (b := 41) (m := 14) (n := 9) rfl,
    join_eq w (a := 41) (b := 32) (m := 23) (n := 9) rfl,
    join_eq w (a := 32) (b := 23) (m := 32) (n := 9) rfl,
    join_eq w (a := 23) (b := 11) (m := 41) (n := 12) rfl,
    join_eq w (a := 11) (b := 8) (m := 53) (n := 3) rfl,
    join_eq w (a := 8) (b := 7) (m := 56) (n := 1) rfl,
    join_eq w (a := 3) (b := 2) (m := 4) (n := 1) rfl,
    join_eq w (a := 2) (b := 0) (m := 5) (n := 2) rfl,
    join_eq w (a := 7) (b := 0) (m := 57) (n := 7) rfl]
  exact BitVec.extractLsb'_eq_self

/-- The number of a word of this form (R27). -/
theorem F3.word_toNat (u : BitVec 3) (o : BitVec 6) (f : F3) :
    (f.word u o).toNat = 1 * 2 ^ 62 + u.toNat * 2 ^ 59 + o.toNat * 2 ^ 53 + f.mod.toNat * 2 ^ 50
      + f.d.toNat * 2 ^ 41 + f.a.toNat * 2 ^ 32 + f.b.toNat * 2 ^ 23 + f.c.toNat * 2 ^ 14
      + f.rnd.toNat * 2 ^ 8 + f.nf.toNat * 2 ^ 7 + f.g.pred.toNat * 2 ^ 3 + f.g.pn.toNat * 2 ^ 2
      + f.g.tail.toNat := by
  simp only [F3.word, Guard.bits, toNat_append_eq, toNat_ofBool_eq]
  norm_num
  ring

/-- The fields of a word are those it was made of (R27). -/
theorem F3.word_fields (u : BitVec 3) (o : BitVec 6) (f : F3) :
    (f.word u o).extractLsb' 62 2 = 1#2 ∧
    (f.word u o).extractLsb' 59 3 = u ∧
    (f.word u o).extractLsb' 53 6 = o ∧
    f3Of (f.word u o) = f ∧
    (f.word u o).extractLsb' 11 3 = 0#3 := by
  have h := F3.word_toNat u o f
  have := u.isLt
  have := o.isLt
  have := f.mod.isLt
  have := f.d.isLt
  have := f.a.isLt
  have := f.b.isLt
  have := f.c.isLt
  have := f.rnd.isLt
  have := Bool.toNat_lt f.nf
  have := f.g.pred.isLt
  have := Bool.toNat_lt f.g.pn
  have := f.g.tail.isLt
  refine ⟨?_, ?_, ?_, ?_, ?_⟩
  · exact field_eq _ _ _ (by simp; omega)
  · exact field_eq _ _ _ (by simp; omega)
  · exact field_eq _ _ _ (by simp; omega)
  · obtain ⟨mod, d, a, b, c, rnd, nf, pred, pn, tail⟩ := f
    simp only [f3Of, guardOf] at *
    congr 1
    · exact field_eq _ _ _ (by omega)
    · exact field_eq _ _ _ (by omega)
    · exact field_eq _ _ _ (by omega)
    · exact field_eq _ _ _ (by omega)
    · exact field_eq _ _ _ (by omega)
    · exact field_eq _ _ _ (by omega)
    · exact bit_eq _ _ _ (by omega)
    · congr 1
      · exact field_eq _ _ _ (by omega)
      · exact bit_eq _ _ _ (by omega)
      · exact field_eq _ _ _ (by omega)
  · exact field_eq _ _ _ (by simp; omega)

/-- A word is made of its fields (R27). -/
theorem F3.word_of (w : W64) (hk : w.extractLsb' 62 2 = 1#2)
    (h0 : w.extractLsb' 11 3 = 0#3) :
    (f3Of w).word (w.extractLsb' 59 3) (w.extractLsb' 53 6) = w := by
  rw [F3.word, Guard.bits, ← hk, ← h0]
  simp only [f3Of, guardOf, ofBool_getLsbD_eq]
  rw [join_eq w (a := 62) (b := 59) (m := 2) (n := 3) rfl,
    join_eq w (a := 59) (b := 53) (m := 5) (n := 6) rfl,
    join_eq w (a := 53) (b := 50) (m := 11) (n := 3) rfl,
    join_eq w (a := 50) (b := 41) (m := 14) (n := 9) rfl,
    join_eq w (a := 41) (b := 32) (m := 23) (n := 9) rfl,
    join_eq w (a := 32) (b := 23) (m := 32) (n := 9) rfl,
    join_eq w (a := 23) (b := 14) (m := 41) (n := 9) rfl,
    join_eq w (a := 14) (b := 11) (m := 50) (n := 3) rfl,
    join_eq w (a := 11) (b := 8) (m := 53) (n := 3) rfl,
    join_eq w (a := 8) (b := 7) (m := 56) (n := 1) rfl,
    join_eq w (a := 3) (b := 2) (m := 4) (n := 1) rfl,
    join_eq w (a := 2) (b := 0) (m := 5) (n := 2) rfl,
    join_eq w (a := 7) (b := 0) (m := 57) (n := 7) rfl]
  exact BitVec.extractLsb'_eq_self

/-- The number of a word of this form (R27). -/
theorem FI.word_toNat (u : BitVec 3) (o : BitVec 6) (f : FI) :
    (f.word u o).toNat = 2 * 2 ^ 62 + u.toNat * 2 ^ 59 + o.toNat * 2 ^ 53 + f.mod.toNat * 2 ^ 50
      + f.d.toNat * 2 ^ 41 + f.a.toNat * 2 ^ 32 + f.imm.toNat * 2 ^ 8 + f.nf.toNat * 2 ^ 7
      + f.g.pred.toNat * 2 ^ 3 + f.g.pn.toNat * 2 ^ 2 + f.g.tail.toNat := by
  simp only [FI.word, Guard.bits, toNat_append_eq, toNat_ofBool_eq]
  norm_num
  ring

/-- The fields of a word are those it was made of (R27). -/
theorem FI.word_fields (u : BitVec 3) (o : BitVec 6) (f : FI) :
    (f.word u o).extractLsb' 62 2 = 2#2 ∧
    (f.word u o).extractLsb' 59 3 = u ∧
    (f.word u o).extractLsb' 53 6 = o ∧
    fiOf (f.word u o) = f := by
  have h := FI.word_toNat u o f
  have := u.isLt
  have := o.isLt
  have := f.mod.isLt
  have := f.d.isLt
  have := f.a.isLt
  have := f.imm.isLt
  have := Bool.toNat_lt f.nf
  have := f.g.pred.isLt
  have := Bool.toNat_lt f.g.pn
  have := f.g.tail.isLt
  refine ⟨?_, ?_, ?_, ?_⟩
  · exact field_eq _ _ _ (by simp; omega)
  · exact field_eq _ _ _ (by simp; omega)
  · exact field_eq _ _ _ (by simp; omega)
  · obtain ⟨mod, d, a, imm, nf, pred, pn, tail⟩ := f
    simp only [fiOf, guardOf] at *
    congr 1
    · exact field_eq _ _ _ (by omega)
    · exact field_eq _ _ _ (by omega)
    · exact field_eq _ _ _ (by omega)
    · exact field_eq _ _ _ (by omega)
    · exact bit_eq _ _ _ (by omega)
    · congr 1
      · exact field_eq _ _ _ (by omega)
      · exact bit_eq _ _ _ (by omega)
      · exact field_eq _ _ _ (by omega)

/-- A word is made of its fields (R27). -/
theorem FI.word_of (w : W64) (hk : w.extractLsb' 62 2 = 2#2) :
    (fiOf w).word (w.extractLsb' 59 3) (w.extractLsb' 53 6) = w := by
  rw [FI.word, Guard.bits, ← hk]
  simp only [fiOf, guardOf, ofBool_getLsbD_eq]
  rw [join_eq w (a := 62) (b := 59) (m := 2) (n := 3) rfl,
    join_eq w (a := 59) (b := 53) (m := 5) (n := 6) rfl,
    join_eq w (a := 53) (b := 50) (m := 11) (n := 3) rfl,
    join_eq w (a := 50) (b := 41) (m := 14) (n := 9) rfl,
    join_eq w (a := 41) (b := 32) (m := 23) (n := 9) rfl,
    join_eq w (a := 32) (b := 8) (m := 32) (n := 24) rfl,
    join_eq w (a := 8) (b := 7) (m := 56) (n := 1) rfl,
    join_eq w (a := 3) (b := 2) (m := 4) (n := 1) rfl,
    join_eq w (a := 2) (b := 0) (m := 5) (n := 2) rfl,
    join_eq w (a := 7) (b := 0) (m := 57) (n := 7) rfl]
  exact BitVec.extractLsb'_eq_self

/-- The number of a word of this form (R27). -/
theorem L2.word_toNat (u : BitVec 3) (o : BitVec 6) (f : L2) :
    (f.word u o).toNat = 1 * 2 ^ 62 + u.toNat * 2 ^ 59 + o.toNat * 2 ^ 53 + f.mod.toNat * 2 ^ 50
      + f.d.toNat * 2 ^ 41 + f.a.toNat * 2 ^ 32 + f.b.toNat * 2 ^ 23 + f.space.toNat * 2 ^ 21
      + f.scope.toNat * 2 ^ 18 + f.hint.toNat * 2 ^ 15 + f.g.pred.toNat * 2 ^ 3 + f.g.pn.toNat * 2 ^ 2
      + f.g.tail.toNat := by
  simp only [L2.word, Guard.bits, toNat_append_eq, toNat_ofBool_eq]
  norm_num
  ring

/-- The fields of a word are those it was made of (R27). -/
theorem L2.word_fields (u : BitVec 3) (o : BitVec 6) (f : L2) :
    (f.word u o).extractLsb' 62 2 = 1#2 ∧
    (f.word u o).extractLsb' 59 3 = u ∧
    (f.word u o).extractLsb' 53 6 = o ∧
    l2Of (f.word u o) = f ∧
    (f.word u o).extractLsb' 7 8 = 0#8 := by
  have h := L2.word_toNat u o f
  have := u.isLt
  have := o.isLt
  have := f.mod.isLt
  have := f.d.isLt
  have := f.a.isLt
  have := f.b.isLt
  have := f.space.isLt
  have := f.scope.isLt
  have := f.hint.isLt
  have := f.g.pred.isLt
  have := Bool.toNat_lt f.g.pn
  have := f.g.tail.isLt
  refine ⟨?_, ?_, ?_, ?_, ?_⟩
  · exact field_eq _ _ _ (by simp; omega)
  · exact field_eq _ _ _ (by simp; omega)
  · exact field_eq _ _ _ (by simp; omega)
  · obtain ⟨mod, d, a, b, space, scope, hint, pred, pn, tail⟩ := f
    simp only [l2Of, guardOf] at *
    congr 1
    · exact field_eq _ _ _ (by omega)
    · exact field_eq _ _ _ (by omega)
    · exact field_eq _ _ _ (by omega)
    · exact field_eq _ _ _ (by omega)
    · exact field_eq _ _ _ (by omega)
    · exact field_eq _ _ _ (by omega)
    · exact field_eq _ _ _ (by omega)
    · congr 1
      · exact field_eq _ _ _ (by omega)
      · exact bit_eq _ _ _ (by omega)
      · exact field_eq _ _ _ (by omega)
  · exact field_eq _ _ _ (by simp; omega)

/-- A word is made of its fields (R27). -/
theorem L2.word_of (w : W64) (hk : w.extractLsb' 62 2 = 1#2)
    (h0 : w.extractLsb' 7 8 = 0#8) :
    (l2Of w).word (w.extractLsb' 59 3) (w.extractLsb' 53 6) = w := by
  rw [L2.word, Guard.bits, ← hk, ← h0]
  simp only [l2Of, guardOf, ofBool_getLsbD_eq]
  rw [join_eq w (a := 62) (b := 59) (m := 2) (n := 3) rfl,
    join_eq w (a := 59) (b := 53) (m := 5) (n := 6) rfl,
    join_eq w (a := 53) (b := 50) (m := 11) (n := 3) rfl,
    join_eq w (a := 50) (b := 41) (m := 14) (n := 9) rfl,
    join_eq w (a := 41) (b := 32) (m := 23) (n := 9) rfl,
    join_eq w (a := 32) (b := 23) (m := 32) (n := 9) rfl,
    join_eq w (a := 23) (b := 21) (m := 41) (n := 2) rfl,
    join_eq w (a := 21) (b := 18) (m := 43) (n := 3) rfl,
    join_eq w (a := 18) (b := 15) (m := 46) (n := 3) rfl,
    join_eq w (a := 15) (b := 7) (m := 49) (n := 8) rfl,
    join_eq w (a := 3) (b := 2) (m := 4) (n := 1) rfl,
    join_eq w (a := 2) (b := 0) (m := 5) (n := 2) rfl,
    join_eq w (a := 7) (b := 0) (m := 57) (n := 7) rfl]
  exact BitVec.extractLsb'_eq_self

/-- The number of a word of this form (R27). -/
theorem L3.word_toNat (u : BitVec 3) (o : BitVec 6) (f : L3) :
    (f.word u o).toNat = 1 * 2 ^ 62 + u.toNat * 2 ^ 59 + o.toNat * 2 ^ 53 + f.mod.toNat * 2 ^ 50
      + f.d.toNat * 2 ^ 41 + f.a.toNat * 2 ^ 32 + f.b.toNat * 2 ^ 23 + f.space.toNat * 2 ^ 21
      + f.scope.toNat * 2 ^ 18 + f.c.toNat * 2 ^ 9 + f.g.pred.toNat * 2 ^ 3 + f.g.pn.toNat * 2 ^ 2
      + f.g.tail.toNat := by
  simp only [L3.word, Guard.bits, toNat_append_eq, toNat_ofBool_eq]
  norm_num
  ring

/-- The fields of a word are those it was made of (R27). -/
theorem L3.word_fields (u : BitVec 3) (o : BitVec 6) (f : L3) :
    (f.word u o).extractLsb' 62 2 = 1#2 ∧
    (f.word u o).extractLsb' 59 3 = u ∧
    (f.word u o).extractLsb' 53 6 = o ∧
    l3Of (f.word u o) = f ∧
    (f.word u o).extractLsb' 7 2 = 0#2 := by
  have h := L3.word_toNat u o f
  have := u.isLt
  have := o.isLt
  have := f.mod.isLt
  have := f.d.isLt
  have := f.a.isLt
  have := f.b.isLt
  have := f.space.isLt
  have := f.scope.isLt
  have := f.c.isLt
  have := f.g.pred.isLt
  have := Bool.toNat_lt f.g.pn
  have := f.g.tail.isLt
  refine ⟨?_, ?_, ?_, ?_, ?_⟩
  · exact field_eq _ _ _ (by simp; omega)
  · exact field_eq _ _ _ (by simp; omega)
  · exact field_eq _ _ _ (by simp; omega)
  · obtain ⟨mod, d, a, b, space, scope, c, pred, pn, tail⟩ := f
    simp only [l3Of, guardOf] at *
    congr 1
    · exact field_eq _ _ _ (by omega)
    · exact field_eq _ _ _ (by omega)
    · exact field_eq _ _ _ (by omega)
    · exact field_eq _ _ _ (by omega)
    · exact field_eq _ _ _ (by omega)
    · exact field_eq _ _ _ (by omega)
    · exact field_eq _ _ _ (by omega)
    · congr 1
      · exact field_eq _ _ _ (by omega)
      · exact bit_eq _ _ _ (by omega)
      · exact field_eq _ _ _ (by omega)
  · exact field_eq _ _ _ (by simp; omega)

/-- A word is made of its fields (R27). -/
theorem L3.word_of (w : W64) (hk : w.extractLsb' 62 2 = 1#2)
    (h0 : w.extractLsb' 7 2 = 0#2) :
    (l3Of w).word (w.extractLsb' 59 3) (w.extractLsb' 53 6) = w := by
  rw [L3.word, Guard.bits, ← hk, ← h0]
  simp only [l3Of, guardOf, ofBool_getLsbD_eq]
  rw [join_eq w (a := 62) (b := 59) (m := 2) (n := 3) rfl,
    join_eq w (a := 59) (b := 53) (m := 5) (n := 6) rfl,
    join_eq w (a := 53) (b := 50) (m := 11) (n := 3) rfl,
    join_eq w (a := 50) (b := 41) (m := 14) (n := 9) rfl,
    join_eq w (a := 41) (b := 32) (m := 23) (n := 9) rfl,
    join_eq w (a := 32) (b := 23) (m := 32) (n := 9) rfl,
    join_eq w (a := 23) (b := 21) (m := 41) (n := 2) rfl,
    join_eq w (a := 21) (b := 18) (m := 43) (n := 3) rfl,
    join_eq w (a := 18) (b := 9) (m := 46) (n := 9) rfl,
    join_eq w (a := 9) (b := 7) (m := 55) (n := 2) rfl,
    join_eq w (a := 3) (b := 2) (m := 4) (n := 1) rfl,
    join_eq w (a := 2) (b := 0) (m := 5) (n := 2) rfl,
    join_eq w (a := 7) (b := 0) (m := 57) (n := 7) rfl]
  exact BitVec.extractLsb'_eq_self

/-- The number of a word of this form (R27). -/
theorem LI.word_toNat (u : BitVec 3) (o : BitVec 6) (f : LI) :
    (f.word u o).toNat = 2 * 2 ^ 62 + u.toNat * 2 ^ 59 + o.toNat * 2 ^ 53 + f.mod.toNat * 2 ^ 50
      + f.d.toNat * 2 ^ 41 + f.a.toNat * 2 ^ 32 + f.imm.toNat * 2 ^ 12 + f.space.toNat * 2 ^ 10
      + f.scope.toNat * 2 ^ 7 + f.g.pred.toNat * 2 ^ 3 + f.g.pn.toNat * 2 ^ 2 + f.g.tail.toNat := by
  simp only [LI.word, Guard.bits, toNat_append_eq, toNat_ofBool_eq]
  norm_num
  ring

/-- The fields of a word are those it was made of (R27). -/
theorem LI.word_fields (u : BitVec 3) (o : BitVec 6) (f : LI) :
    (f.word u o).extractLsb' 62 2 = 2#2 ∧
    (f.word u o).extractLsb' 59 3 = u ∧
    (f.word u o).extractLsb' 53 6 = o ∧
    liOf (f.word u o) = f := by
  have h := LI.word_toNat u o f
  have := u.isLt
  have := o.isLt
  have := f.mod.isLt
  have := f.d.isLt
  have := f.a.isLt
  have := f.imm.isLt
  have := f.space.isLt
  have := f.scope.isLt
  have := f.g.pred.isLt
  have := Bool.toNat_lt f.g.pn
  have := f.g.tail.isLt
  refine ⟨?_, ?_, ?_, ?_⟩
  · exact field_eq _ _ _ (by simp; omega)
  · exact field_eq _ _ _ (by simp; omega)
  · exact field_eq _ _ _ (by simp; omega)
  · obtain ⟨mod, d, a, imm, space, scope, pred, pn, tail⟩ := f
    simp only [liOf, guardOf] at *
    congr 1
    · exact field_eq _ _ _ (by omega)
    · exact field_eq _ _ _ (by omega)
    · exact field_eq _ _ _ (by omega)
    · exact field_eq _ _ _ (by omega)
    · exact field_eq _ _ _ (by omega)
    · exact field_eq _ _ _ (by omega)
    · congr 1
      · exact field_eq _ _ _ (by omega)
      · exact bit_eq _ _ _ (by omega)
      · exact field_eq _ _ _ (by omega)

/-- A word is made of its fields (R27). -/
theorem LI.word_of (w : W64) (hk : w.extractLsb' 62 2 = 2#2) :
    (liOf w).word (w.extractLsb' 59 3) (w.extractLsb' 53 6) = w := by
  rw [LI.word, Guard.bits, ← hk]
  simp only [liOf, guardOf, ofBool_getLsbD_eq]
  rw [join_eq w (a := 62) (b := 59) (m := 2) (n := 3) rfl,
    join_eq w (a := 59) (b := 53) (m := 5) (n := 6) rfl,
    join_eq w (a := 53) (b := 50) (m := 11) (n := 3) rfl,
    join_eq w (a := 50) (b := 41) (m := 14) (n := 9) rfl,
    join_eq w (a := 41) (b := 32) (m := 23) (n := 9) rfl,
    join_eq w (a := 32) (b := 12) (m := 32) (n := 20) rfl,
    join_eq w (a := 12) (b := 10) (m := 52) (n := 2) rfl,
    join_eq w (a := 10) (b := 7) (m := 54) (n := 3) rfl,
    join_eq w (a := 3) (b := 2) (m := 4) (n := 1) rfl,
    join_eq w (a := 2) (b := 0) (m := 5) (n := 2) rfl,
    join_eq w (a := 7) (b := 0) (m := 57) (n := 7) rfl]
  exact BitVec.extractLsb'_eq_self

/-- The number of a word of this form (R27). -/
theorem FC.word_toNat (u : BitVec 3) (o : BitVec 6) (f : FC) :
    (f.word u o).toNat = 3 * 2 ^ 62 + u.toNat * 2 ^ 59 + o.toNat * 2 ^ 53 + f.mod.toNat * 2 ^ 50
      + f.a.toNat * 2 ^ 41 + f.imm.toNat * 2 ^ 9 + f.g.pred.toNat * 2 ^ 3 + f.g.pn.toNat * 2 ^ 2
      + f.g.tail.toNat := by
  simp only [FC.word, Guard.bits, toNat_append_eq, toNat_ofBool_eq]
  norm_num
  ring

/-- The fields of a word are those it was made of (R27). -/
theorem FC.word_fields (u : BitVec 3) (o : BitVec 6) (f : FC) :
    (f.word u o).extractLsb' 62 2 = 3#2 ∧
    (f.word u o).extractLsb' 59 3 = u ∧
    (f.word u o).extractLsb' 53 6 = o ∧
    fcOf (f.word u o) = f ∧
    (f.word u o).extractLsb' 7 2 = 0#2 := by
  have h := FC.word_toNat u o f
  have := u.isLt
  have := o.isLt
  have := f.mod.isLt
  have := f.a.isLt
  have := f.imm.isLt
  have := f.g.pred.isLt
  have := Bool.toNat_lt f.g.pn
  have := f.g.tail.isLt
  refine ⟨?_, ?_, ?_, ?_, ?_⟩
  · exact field_eq _ _ _ (by simp; omega)
  · exact field_eq _ _ _ (by simp; omega)
  · exact field_eq _ _ _ (by simp; omega)
  · obtain ⟨mod, a, imm, pred, pn, tail⟩ := f
    simp only [fcOf, guardOf] at *
    congr 1
    · exact field_eq _ _ _ (by omega)
    · exact field_eq _ _ _ (by omega)
    · exact field_eq _ _ _ (by omega)
    · congr 1
      · exact field_eq _ _ _ (by omega)
      · exact bit_eq _ _ _ (by omega)
      · exact field_eq _ _ _ (by omega)
  · exact field_eq _ _ _ (by simp; omega)

/-- A word is made of its fields (R27). -/
theorem FC.word_of (w : W64) (hk : w.extractLsb' 62 2 = 3#2)
    (h0 : w.extractLsb' 7 2 = 0#2) :
    (fcOf w).word (w.extractLsb' 59 3) (w.extractLsb' 53 6) = w := by
  rw [FC.word, Guard.bits, ← hk, ← h0]
  simp only [fcOf, guardOf, ofBool_getLsbD_eq]
  rw [join_eq w (a := 62) (b := 59) (m := 2) (n := 3) rfl,
    join_eq w (a := 59) (b := 53) (m := 5) (n := 6) rfl,
    join_eq w (a := 53) (b := 50) (m := 11) (n := 3) rfl,
    join_eq w (a := 50) (b := 41) (m := 14) (n := 9) rfl,
    join_eq w (a := 41) (b := 9) (m := 23) (n := 32) rfl,
    join_eq w (a := 9) (b := 7) (m := 55) (n := 2) rfl,
    join_eq w (a := 3) (b := 2) (m := 4) (n := 1) rfl,
    join_eq w (a := 2) (b := 0) (m := 5) (n := 2) rfl,
    join_eq w (a := 7) (b := 0) (m := 57) (n := 7) rfl]
  exact BitVec.extractLsb'_eq_self

/-- The number of a word of this form (R27). -/
theorem MV.word_toNat (f : MV) :
    (f.word).toNat = f.xc.toNat * 2 ^ 61 + f.scl.toNat * 2 ^ 59 + f.sln.toNat * 2 ^ 56 + f.dport.toNat * 2 ^ 50
      + f.d.toNat * 2 ^ 41 + f.a.toNat * 2 ^ 32 + f.amod.toNat * 2 ^ 11 + f.g.pred.toNat * 2 ^ 3
      + f.g.pn.toNat * 2 ^ 2 + f.g.tail.toNat := by
  simp only [MV.word, Guard.bits, toNat_append_eq, toNat_ofBool_eq]
  norm_num
  ring

/-- The fields of a word are those it was made of (R27). -/
theorem MV.word_fields (f : MV) :
    (f.word).extractLsb' 62 2 = 0#2 ∧
    mvOf (f.word) = f ∧
    (f.word).extractLsb' 23 9 = 0#9 ∧
    (f.word).extractLsb' 7 4 = 0#4 := by
  have h := MV.word_toNat f
  have := Bool.toNat_lt f.xc
  have := f.scl.isLt
  have := f.sln.isLt
  have := f.dport.isLt
  have := f.d.isLt
  have := f.a.isLt
  have := f.amod.isLt
  have := f.g.pred.isLt
  have := Bool.toNat_lt f.g.pn
  have := f.g.tail.isLt
  refine ⟨?_, ?_, ?_, ?_⟩
  · exact field_eq _ _ _ (by simp; omega)
  · obtain ⟨xc, scl, sln, dport, d, a, amod, pred, pn, tail⟩ := f
    simp only [mvOf, guardOf] at *
    congr 1
    · exact bit_eq _ _ _ (by omega)
    · exact field_eq _ _ _ (by omega)
    · exact field_eq _ _ _ (by omega)
    · exact field_eq _ _ _ (by omega)
    · exact field_eq _ _ _ (by omega)
    · exact field_eq _ _ _ (by omega)
    · exact field_eq _ _ _ (by omega)
    · congr 1
      · exact field_eq _ _ _ (by omega)
      · exact bit_eq _ _ _ (by omega)
      · exact field_eq _ _ _ (by omega)
  · exact field_eq _ _ _ (by simp; omega)
  · exact field_eq _ _ _ (by simp; omega)

/-- A word is made of its fields (R27). -/
theorem MV.word_of (w : W64) (hk : w.extractLsb' 62 2 = 0#2)
    (h0 : w.extractLsb' 23 9 = 0#9)
    (h1 : w.extractLsb' 7 4 = 0#4) :
    (mvOf w).word = w := by
  rw [MV.word, Guard.bits, ← hk, ← h0, ← h1]
  simp only [mvOf, guardOf, ofBool_getLsbD_eq]
  rw [join_eq w (a := 62) (b := 61) (m := 2) (n := 1) rfl,
    join_eq w (a := 61) (b := 59) (m := 3) (n := 2) rfl,
    join_eq w (a := 59) (b := 56) (m := 5) (n := 3) rfl,
    join_eq w (a := 56) (b := 50) (m := 8) (n := 6) rfl,
    join_eq w (a := 50) (b := 41) (m := 14) (n := 9) rfl,
    join_eq w (a := 41) (b := 32) (m := 23) (n := 9) rfl,
    join_eq w (a := 32) (b := 23) (m := 32) (n := 9) rfl,
    join_eq w (a := 23) (b := 11) (m := 41) (n := 12) rfl,
    join_eq w (a := 11) (b := 7) (m := 53) (n := 4) rfl,
    join_eq w (a := 3) (b := 2) (m := 4) (n := 1) rfl,
    join_eq w (a := 2) (b := 0) (m := 5) (n := 2) rfl,
    join_eq w (a := 7) (b := 0) (m := 57) (n := 7) rfl]
  exact BitVec.extractLsb'_eq_self

end Sys2Proof
end

