-- ==== Sys2Proof/Laws/Exec.lean ====
section
/-! SUPPORT. What the dispatcher does with each constructor, by its meaning: an equation for each, so that no proof
unfolds the dispatcher. -/

set_option Elab.async false

namespace Sys2Proof.Machine

theorem exec_mov (f : MV) (s : State) :
    exec (.mov f) s = issue (costOf (.mov f)) f.g (bodyMov f) s := rfl
theorem exec_bundle (hdr : W64) (slots : List W64) (s : State) :
    exec (.bundle hdr slots) s = issueBundle hdr slots s := rfl
theorem exec_iadd (f : F2) (s : State) :
    exec (.iadd f) s = issue (costOf (.iadd f)) f.g (bodyIadd f) s := rfl
theorem exec_iaddI (f : FI) (s : State) :
    exec (.iaddI f) s = issue (costOf (.iaddI f)) f.g (bodyIaddI f) s := rfl
theorem exec_isub (f : F2) (s : State) :
    exec (.isub f) s = issue (costOf (.isub f)) f.g (bodyIsub f) s := rfl
theorem exec_isubI (f : FI) (s : State) :
    exec (.isubI f) s = issue (costOf (.isubI f)) f.g (bodyIsubI f) s := rfl
theorem exec_imul (f : F2) (s : State) :
    exec (.imul f) s = issue (costOf (.imul f)) f.g (bodyImul f) s := rfl
theorem exec_imulI (f : FI) (s : State) :
    exec (.imulI f) s = issue (costOf (.imulI f)) f.g (bodyImulI f) s := rfl
theorem exec_imulh (f : F2) (s : State) :
    exec (.imulh f) s = issue (costOf (.imulh f)) f.g (bodyImulh f) s := rfl
theorem exec_imulhI (f : FI) (s : State) :
    exec (.imulhI f) s = issue (costOf (.imulhI f)) f.g (bodyImulhI f) s := rfl
theorem exec_imad (f : F3) (s : State) :
    exec (.imad f) s = issue (costOf (.imad f)) f.g (bodyImad f) s := rfl
theorem exec_idiv (f : F2) (s : State) :
    exec (.idiv f) s = issue (costOf (.idiv f)) f.g (bodyIdiv f) s := rfl
theorem exec_idivI (f : FI) (s : State) :
    exec (.idivI f) s = issue (costOf (.idivI f)) f.g (bodyIdivI f) s := rfl
theorem exec_irem (f : F2) (s : State) :
    exec (.irem f) s = issue (costOf (.irem f)) f.g (bodyIrem f) s := rfl
theorem exec_iremI (f : FI) (s : State) :
    exec (.iremI f) s = issue (costOf (.iremI f)) f.g (bodyIremI f) s := rfl
theorem exec_imin (f : F2) (s : State) :
    exec (.imin f) s = issue (costOf (.imin f)) f.g (bodyImin f) s := rfl
theorem exec_iminI (f : FI) (s : State) :
    exec (.iminI f) s = issue (costOf (.iminI f)) f.g (bodyIminI f) s := rfl
theorem exec_imax (f : F2) (s : State) :
    exec (.imax f) s = issue (costOf (.imax f)) f.g (bodyImax f) s := rfl
theorem exec_imaxI (f : FI) (s : State) :
    exec (.imaxI f) s = issue (costOf (.imaxI f)) f.g (bodyImaxI f) s := rfl
theorem exec_iabs (f : F2) (s : State) :
    exec (.iabs f) s = issue (costOf (.iabs f)) f.g (bodyIabs f) s := rfl
theorem exec_ineg (f : F2) (s : State) :
    exec (.ineg f) s = issue (costOf (.ineg f)) f.g (bodyIneg f) s := rfl
theorem exec_iadds (f : F2) (s : State) :
    exec (.iadds f) s = issue (costOf (.iadds f)) f.g (bodyIadds f) s := rfl
theorem exec_iaddsI (f : FI) (s : State) :
    exec (.iaddsI f) s = issue (costOf (.iaddsI f)) f.g (bodyIaddsI f) s := rfl
theorem exec_isad (f : F3) (s : State) :
    exec (.isad f) s = issue (costOf (.isad f)) f.g (bodyIsad f) s := rfl
theorem exec_idot4 (f : F3) (s : State) :
    exec (.idot4 f) s = issue (costOf (.idot4 f)) f.g (bodyIdot4 f) s := rfl
theorem exec_and (f : F2) (s : State) :
    exec (.and f) s = issue (costOf (.and f)) f.g (bodyAnd f) s := rfl
theorem exec_andI (f : FI) (s : State) :
    exec (.andI f) s = issue (costOf (.andI f)) f.g (bodyAndI f) s := rfl
theorem exec_or (f : F2) (s : State) :
    exec (.or f) s = issue (costOf (.or f)) f.g (bodyOr f) s := rfl
theorem exec_orI (f : FI) (s : State) :
    exec (.orI f) s = issue (costOf (.orI f)) f.g (bodyOrI f) s := rfl
theorem exec_xor (f : F2) (s : State) :
    exec (.xor f) s = issue (costOf (.xor f)) f.g (bodyXor f) s := rfl
theorem exec_xorI (f : FI) (s : State) :
    exec (.xorI f) s = issue (costOf (.xorI f)) f.g (bodyXorI f) s := rfl
theorem exec_andn (f : F2) (s : State) :
    exec (.andn f) s = issue (costOf (.andn f)) f.g (bodyAndn f) s := rfl
theorem exec_andnI (f : FI) (s : State) :
    exec (.andnI f) s = issue (costOf (.andnI f)) f.g (bodyAndnI f) s := rfl
theorem exec_not (f : F2) (s : State) :
    exec (.not f) s = issue (costOf (.not f)) f.g (bodyNot f) s := rfl
theorem exec_shl (f : F2) (s : State) :
    exec (.shl f) s = issue (costOf (.shl f)) f.g (bodyShl f) s := rfl
theorem exec_shlI (f : FI) (s : State) :
    exec (.shlI f) s = issue (costOf (.shlI f)) f.g (bodyShlI f) s := rfl
theorem exec_shr (f : F2) (s : State) :
    exec (.shr f) s = issue (costOf (.shr f)) f.g (bodyShr f) s := rfl
theorem exec_shrI (f : FI) (s : State) :
    exec (.shrI f) s = issue (costOf (.shrI f)) f.g (bodyShrI f) s := rfl
theorem exec_sar (f : F2) (s : State) :
    exec (.sar f) s = issue (costOf (.sar f)) f.g (bodySar f) s := rfl
theorem exec_sarI (f : FI) (s : State) :
    exec (.sarI f) s = issue (costOf (.sarI f)) f.g (bodySarI f) s := rfl
theorem exec_rotl (f : F2) (s : State) :
    exec (.rotl f) s = issue (costOf (.rotl f)) f.g (bodyRotl f) s := rfl
theorem exec_rotlI (f : FI) (s : State) :
    exec (.rotlI f) s = issue (costOf (.rotlI f)) f.g (bodyRotlI f) s := rfl
theorem exec_funnel (f : F3) (s : State) :
    exec (.funnel f) s = issue (costOf (.funnel f)) f.g (bodyFunnel f) s := rfl
theorem exec_bfx (f : F3) (s : State) :
    exec (.bfx f) s = issue (costOf (.bfx f)) f.g (bodyBfx f) s := rfl
theorem exec_bfi (f : F3) (s : State) :
    exec (.bfi f) s = issue (costOf (.bfi f)) f.g (bodyBfi f) s := rfl
theorem exec_popc (f : F2) (s : State) :
    exec (.popc f) s = issue (costOf (.popc f)) f.g (bodyPopc f) s := rfl
theorem exec_clz (f : F2) (s : State) :
    exec (.clz f) s = issue (costOf (.clz f)) f.g (bodyClz f) s := rfl
theorem exec_ctz (f : F2) (s : State) :
    exec (.ctz f) s = issue (costOf (.ctz f)) f.g (bodyCtz f) s := rfl
theorem exec_brev (f : F2) (s : State) :
    exec (.brev f) s = issue (costOf (.brev f)) f.g (bodyBrev f) s := rfl
theorem exec_bshuf (f : F3) (s : State) :
    exec (.bshuf f) s = issue (costOf (.bshuf f)) f.g (bodyBshuf f) s := rfl
theorem exec_lea (f : F2) (s : State) :
    exec (.lea f) s = issue (costOf (.lea f)) f.g (bodyLea f) s := rfl
theorem exec_leaI (f : FI) (s : State) :
    exec (.leaI f) s = issue (costOf (.leaI f)) f.g (bodyLeaI f) s := rfl
theorem exec_icmp (f : F2) (s : State) :
    exec (.icmp f) s = issue (costOf (.icmp f)) f.g (bodyIcmp f) s := rfl
theorem exec_icmpI (f : FI) (s : State) :
    exec (.icmpI f) s = issue (costOf (.icmpI f)) f.g (bodyIcmpI f) s := rfl
theorem exec_isel (f : F3) (s : State) :
    exec (.isel f) s = issue (costOf (.isel f)) f.g (bodyIsel f) s := rfl
theorem exec_plop (f : F2) (s : State) :
    exec (.plop f) s = issue (costOf (.plop f)) f.g (bodyPlop f) s := rfl
theorem exec_movh (f : F2) (s : State) :
    exec (.movh f) s = issue (costOf (.movh f)) f.g (bodyMovh f) s := rfl
theorem exec_movhI (f : FI) (s : State) :
    exec (.movhI f) s = issue (costOf (.movhI f)) f.g (bodyMovhI f) s := rfl
theorem exec_movi (f : FI) (s : State) :
    exec (.movi f) s = issue (costOf (.movi f)) f.g (bodyMovi f) s := rfl
theorem exec_vote (f : F2) (s : State) :
    exec (.vote f) s = issue (costOf (.vote f)) f.g (bodyVote f) s := rfl
theorem exec_rdlane (f : F2) (s : State) :
    exec (.rdlane f) s = issue (costOf (.rdlane f)) f.g (bodyRdlane f) s := rfl
theorem exec_rdlaneI (f : FI) (s : State) :
    exec (.rdlaneI f) s = issue (costOf (.rdlaneI f)) f.g (bodyRdlaneI f) s := rfl
theorem exec_find1 (f : F2) (s : State) :
    exec (.find1 f) s = issue (costOf (.find1 f)) f.g (bodyFind1 f) s := rfl
theorem exec_cvti (f : F2) (s : State) :
    exec (.cvti f) s = issue (costOf (.cvti f)) f.g (bodyCvti f) s := rfl
theorem exec_iredw (f : F2) (s : State) :
    exec (.iredw f) s = issue (costOf (.iredw f)) f.g (bodyIredw f) s := rfl
theorem exec_clamp (f : F3) (s : State) :
    exec (.clamp f) s = issue (costOf (.clamp f)) f.g (bodyClamp f) s := rfl
theorem exec_fadd (f : F2) (s : State) :
    exec (.fadd f) s = issue (costOf (.fadd f)) f.g (bodyFadd f) s := rfl
theorem exec_faddI (f : FI) (s : State) :
    exec (.faddI f) s = issue (costOf (.faddI f)) f.g (bodyFaddI f) s := rfl
theorem exec_fsub (f : F2) (s : State) :
    exec (.fsub f) s = issue (costOf (.fsub f)) f.g (bodyFsub f) s := rfl
theorem exec_fsubI (f : FI) (s : State) :
    exec (.fsubI f) s = issue (costOf (.fsubI f)) f.g (bodyFsubI f) s := rfl
theorem exec_fmul (f : F2) (s : State) :
    exec (.fmul f) s = issue (costOf (.fmul f)) f.g (bodyFmul f) s := rfl
theorem exec_fmulI (f : FI) (s : State) :
    exec (.fmulI f) s = issue (costOf (.fmulI f)) f.g (bodyFmulI f) s := rfl
theorem exec_ffma (f : F3) (s : State) :
    exec (.ffma f) s = issue (costOf (.ffma f)) f.g (bodyFfma f) s := rfl
theorem exec_fnma (f : F3) (s : State) :
    exec (.fnma f) s = issue (costOf (.fnma f)) f.g (bodyFnma f) s := rfl
theorem exec_fmin (f : F2) (s : State) :
    exec (.fmin f) s = issue (costOf (.fmin f)) f.g (bodyFmin f) s := rfl
theorem exec_fminI (f : FI) (s : State) :
    exec (.fminI f) s = issue (costOf (.fminI f)) f.g (bodyFminI f) s := rfl
theorem exec_fmax (f : F2) (s : State) :
    exec (.fmax f) s = issue (costOf (.fmax f)) f.g (bodyFmax f) s := rfl
theorem exec_fmaxI (f : FI) (s : State) :
    exec (.fmaxI f) s = issue (costOf (.fmaxI f)) f.g (bodyFmaxI f) s := rfl
theorem exec_fabs (f : F2) (s : State) :
    exec (.fabs f) s = issue (costOf (.fabs f)) f.g (bodyFabs f) s := rfl
theorem exec_fneg (f : F2) (s : State) :
    exec (.fneg f) s = issue (costOf (.fneg f)) f.g (bodyFneg f) s := rfl
theorem exec_fcmp (f : F2) (s : State) :
    exec (.fcmp f) s = issue (costOf (.fcmp f)) f.g (bodyFcmp f) s := rfl
theorem exec_fcmpI (f : FI) (s : State) :
    exec (.fcmpI f) s = issue (costOf (.fcmpI f)) f.g (bodyFcmpI f) s := rfl
theorem exec_fclass (f : F2) (s : State) :
    exec (.fclass f) s = issue (costOf (.fclass f)) f.g (bodyFclass f) s := rfl
theorem exec_frint (f : F2) (s : State) :
    exec (.frint f) s = issue (costOf (.frint f)) f.g (bodyFrint f) s := rfl
theorem exec_fcvt (f : F2) (s : State) :
    exec (.fcvt f) s = issue (costOf (.fcvt f)) f.g (bodyFcvt f) s := rfl
theorem exec_f2i (f : F2) (s : State) :
    exec (.f2i f) s = issue (costOf (.f2i f)) f.g (bodyF2i f) s := rfl
theorem exec_i2f (f : F2) (s : State) :
    exec (.i2f f) s = issue (costOf (.i2f f)) f.g (bodyI2f f) s := rfl
theorem exec_fdot2 (f : F3) (s : State) :
    exec (.fdot2 f) s = issue (costOf (.fdot2 f)) f.g (bodyFdot2 f) s := rfl
theorem exec_fredw (f : F2) (s : State) :
    exec (.fredw f) s = issue (costOf (.fredw f)) f.g (bodyFredw f) s := rfl
theorem exec_fsetmode (f : F2) (s : State) :
    exec (.fsetmode f) s = issue (costOf (.fsetmode f)) f.g (bodyFsetmode f) s := rfl
theorem exec_fgetmode (f : F2) (s : State) :
    exec (.fgetmode f) s = issue (costOf (.fgetmode f)) f.g (bodyFgetmode f) s := rfl
theorem exec_fflags (f : F2) (s : State) :
    exec (.fflags f) s = issue (costOf (.fflags f)) f.g (bodyFflags f) s := rfl
theorem exec_fflagsClr (f : F2) (s : State) :
    exec (.fflagsClr f) s = issue (costOf (.fflagsClr f)) f.g (bodyFflagsClr f) s := rfl
theorem exec_fscale (f : F2) (s : State) :
    exec (.fscale f) s = issue (costOf (.fscale f)) f.g (bodyFscale f) s := rfl
theorem exec_fscaleI (f : FI) (s : State) :
    exec (.fscaleI f) s = issue (costOf (.fscaleI f)) f.g (bodyFscaleI f) s := rfl
theorem exec_rcp (f : F2) (s : State) :
    exec (.rcp f) s = issue (costOf (.rcp f)) f.g (bodyRcp f) s := rfl
theorem exec_rsq (f : F2) (s : State) :
    exec (.rsq f) s = issue (costOf (.rsq f)) f.g (bodyRsq f) s := rfl
theorem exec_sqrt (f : F2) (s : State) :
    exec (.sqrt f) s = issue (costOf (.sqrt f)) f.g (bodySqrt f) s := rfl
theorem exec_ex2 (f : F2) (s : State) :
    exec (.ex2 f) s = issue (costOf (.ex2 f)) f.g (bodyEx2 f) s := rfl
theorem exec_lg2 (f : F2) (s : State) :
    exec (.lg2 f) s = issue (costOf (.lg2 f)) f.g (bodyLg2 f) s := rfl
theorem exec_sinpi (f : F2) (s : State) :
    exec (.sinpi f) s = issue (costOf (.sinpi f)) f.g (bodySinpi f) s := rfl
theorem exec_cospi (f : F2) (s : State) :
    exec (.cospi f) s = issue (costOf (.cospi f)) f.g (bodyCospi f) s := rfl
theorem exec_tanh (f : F2) (s : State) :
    exec (.tanh f) s = issue (costOf (.tanh f)) f.g (bodyTanh f) s := rfl
theorem exec_sigm (f : F2) (s : State) :
    exec (.sigm f) s = issue (costOf (.sigm f)) f.g (bodySigm f) s := rfl
theorem exec_fdiv (f : F2) (s : State) :
    exec (.fdiv f) s = issue (costOf (.fdiv f)) f.g (bodyFdiv f) s := rfl
theorem exec_ld (f : L2) (s : State) :
    exec (.ld f) s = issue (costOf (.ld f)) f.g (bodyLd f) s := rfl
theorem exec_ldI (f : LI) (s : State) :
    exec (.ldI f) s = issue (costOf (.ldI f)) f.g (bodyLdI f) s := rfl
theorem exec_st (f : L2) (s : State) :
    exec (.st f) s = issue (costOf (.st f)) f.g (bodySt f) s := rfl
theorem exec_stI (f : LI) (s : State) :
    exec (.stI f) s = issue (costOf (.stI f)) f.g (bodyStI f) s := rfl
theorem exec_ldw (f : L2) (s : State) :
    exec (.ldw f) s = issue (costOf (.ldw f)) f.g (bodyLdw f) s := rfl
theorem exec_ldwI (f : LI) (s : State) :
    exec (.ldwI f) s = issue (costOf (.ldwI f)) f.g (bodyLdwI f) s := rfl
theorem exec_ldAcq (f : L2) (s : State) :
    exec (.ldAcq f) s = issue (costOf (.ldAcq f)) f.g (bodyLdAcq f) s := rfl
theorem exec_ldAcqI (f : LI) (s : State) :
    exec (.ldAcqI f) s = issue (costOf (.ldAcqI f)) f.g (bodyLdAcqI f) s := rfl
theorem exec_stRel (f : L2) (s : State) :
    exec (.stRel f) s = issue (costOf (.stRel f)) f.g (bodyStRel f) s := rfl
theorem exec_stRelI (f : LI) (s : State) :
    exec (.stRelI f) s = issue (costOf (.stRelI f)) f.g (bodyStRelI f) s := rfl
theorem exec_atom (f : L2) (s : State) :
    exec (.atom f) s = issue (costOf (.atom f)) f.g (bodyAtom f) s := rfl
theorem exec_cas (f : L3) (s : State) :
    exec (.cas f) s = issue (costOf (.cas f)) f.g (bodyCas f) s := rfl
theorem exec_red (f : L2) (s : State) :
    exec (.red f) s = issue (costOf (.red f)) f.g (bodyRed f) s := rfl
theorem exec_atomX (f : L2) (s : State) :
    exec (.atomX f) s = issue (costOf (.atomX f)) f.g (bodyAtomX f) s := rfl
theorem exec_casX (f : L3) (s : State) :
    exec (.casX f) s = issue (costOf (.casX f)) f.g (bodyCasX f) s := rfl
theorem exec_fenceFull (f : L2) (s : State) :
    exec (.fenceFull f) s = issue (costOf (.fenceFull f)) f.g (bodyFenceFull f) s := rfl
theorem exec_fenceAcq (f : L2) (s : State) :
    exec (.fenceAcq f) s = issue (costOf (.fenceAcq f)) f.g (bodyFenceAcq f) s := rfl
theorem exec_fenceRel (f : L2) (s : State) :
    exec (.fenceRel f) s = issue (costOf (.fenceRel f)) f.g (bodyFenceRel f) s := rfl
theorem exec_fenceEng (f : L2) (s : State) :
    exec (.fenceEng f) s = issue (costOf (.fenceEng f)) f.g (bodyFenceEng f) s := rfl
theorem exec_ldRacq (f : L2) (s : State) :
    exec (.ldRacq f) s = issue (costOf (.ldRacq f)) f.g (bodyLdRacq f) s := rfl
theorem exec_arrive (f : L2) (s : State) :
    exec (.arrive f) s = issue (costOf (.arrive f)) f.g (bodyArrive f) s := rfl
theorem exec_waitph (f : L2) (s : State) :
    exec (.waitph f) s = issue (costOf (.waitph f)) f.g (bodyWaitph f) s := rfl
theorem exec_tryph (f : L2) (s : State) :
    exec (.tryph f) s = issue (costOf (.tryph f)) f.g (bodyTryph f) s := rfl
theorem exec_barinit (f : L2) (s : State) :
    exec (.barinit f) s = issue (costOf (.barinit f)) f.g (bodyBarinit f) s := rfl
theorem exec_pres (f : L2) (s : State) :
    exec (.pres f) s = issue (costOf (.pres f)) f.g (bodyPres f) s := rfl
theorem exec_cctlInvl (f : L2) (s : State) :
    exec (.cctlInvl f) s = issue (costOf (.cctlInvl f)) f.g (bodyCctlInvl f) s := rfl
theorem exec_cctlInvall (f : L2) (s : State) :
    exec (.cctlInvall f) s = issue (costOf (.cctlInvall f)) f.g (bodyCctlInvall f) s := rfl
theorem exec_cctlPref (f : L2) (s : State) :
    exec (.cctlPref f) s = issue (costOf (.cctlPref f)) f.g (bodyCctlPref f) s := rfl
theorem exec_cctlEvf (f : L2) (s : State) :
    exec (.cctlEvf f) s = issue (costOf (.cctlEvf f)) f.g (bodyCctlEvf f) s := rfl
theorem exec_bra (f : FC) (s : State) :
    exec (.bra f) s = issue (costOf (.bra f)) f.g (bodyBra f) s := rfl
theorem exec_braU (f : FC) (s : State) :
    exec (.braU f) s = issue (costOf (.braU f)) f.g (bodyBraU f) s := rfl
theorem exec_brx (f : FC) (s : State) :
    exec (.brx f) s = issue (costOf (.brx f)) f.g (bodyBrx f) s := rfl
theorem exec_call (f : FC) (s : State) :
    exec (.call f) s = issue (costOf (.call f)) f.g (bodyCall f) s := rfl
theorem exec_callx (f : FC) (s : State) :
    exec (.callx f) s = issue (costOf (.callx f)) f.g (bodyCallx f) s := rfl
theorem exec_ret (f : FC) (s : State) :
    exec (.ret f) s = issue (costOf (.ret f)) f.g (bodyRet f) s := rfl
theorem exec_brk (f : FC) (s : State) :
    exec (.brk f) s = issue (costOf (.brk f)) f.g (bodyBrk f) s := rfl
theorem exec_loop (f : FC) (s : State) :
    exec (.loop f) s = issue (costOf (.loop f)) f.g (bodyLoop f) s := rfl
theorem exec_loopPipe (f : FC) (s : State) :
    exec (.loopPipe f) s = issue (costOf (.loopPipe f)) f.g (bodyLoopPipe f) s := rfl
theorem exec_rotset (f : FC) (s : State) :
    exec (.rotset f) s = issue (costOf (.rotset f)) f.g (bodyRotset f) s := rfl
theorem exec_modeCollapse (f : FC) (s : State) :
    exec (.modeCollapse f) s = issue (costOf (.modeCollapse f)) f.g (bodyModeCollapse f) s := rfl
theorem exec_modeExpand (f : FC) (s : State) :
    exec (.modeExpand f) s = issue (costOf (.modeExpand f)) f.g (bodyModeExpand f) s := rfl
theorem exec_sync (f : FC) (s : State) :
    exec (.sync f) s = issue (costOf (.sync f)) f.g (bodySync f) s := rfl
theorem exec_exit (f : FC) (s : State) :
    exec (.exit f) s = issue (costOf (.exit f)) f.g (bodyExit f) s := rfl
theorem exec_trap (f : FC) (s : State) :
    exec (.trap f) s = issue (costOf (.trap f)) f.g (bodyTrap f) s := rfl
theorem exec_eret (f : FC) (s : State) :
    exec (.eret f) s = issue (costOf (.eret f)) f.g (bodyEret f) s := rfl
theorem exec_nop (f : FC) (s : State) :
    exec (.nop f) s = issue (costOf (.nop f)) f.g (bodyNop f) s := rfl
theorem exec_yield (f : FC) (s : State) :
    exec (.yield f) s = issue (costOf (.yield f)) f.g (bodyYield f) s := rfl
theorem exec_elect (f : F2) (s : State) :
    exec (.elect f) s = issue (costOf (.elect f)) f.g (bodyElect f) s := rfl
theorem exec_folld (f : FC) (s : State) :
    exec (.folld f) s = issue (costOf (.folld f)) f.g (bodyFolld f) s := rfl
theorem exec_folfree (f : FC) (s : State) :
    exec (.folfree f) s = issue (costOf (.folfree f)) f.g (bodyFolfree f) s := rfl
theorem exec_domset (f : FC) (s : State) :
    exec (.domset f) s = issue (costOf (.domset f)) f.g (bodyDomset f) s := rfl
theorem exec_mms (f : F2) (s : State) :
    exec (.mms f) s = issue (costOf (.mms f)) f.g (bodyMms f) s := rfl
theorem exec_mmsz (f : F2) (s : State) :
    exec (.mmsz f) s = issue (costOf (.mmsz f)) f.g (bodyMmsz f) s := rfl
theorem exec_mmsg (f : F2) (s : State) :
    exec (.mmsg f) s = issue (costOf (.mmsg f)) f.g (bodyMmsg f) s := rfl
theorem exec_accalloc (f : F2) (s : State) :
    exec (.accalloc f) s = issue (costOf (.accalloc f)) f.g (bodyAccalloc f) s := rfl
theorem exec_accallocI (f : FI) (s : State) :
    exec (.accallocI f) s = issue (costOf (.accallocI f)) f.g (bodyAccallocI f) s := rfl
theorem exec_accfree (f : F2) (s : State) :
    exec (.accfree f) s = issue (costOf (.accfree f)) f.g (bodyAccfree f) s := rfl
theorem exec_accfreeI (f : FI) (s : State) :
    exec (.accfreeI f) s = issue (costOf (.accfreeI f)) f.g (bodyAccfreeI f) s := rfl
theorem exec_accrd (f : F2) (s : State) :
    exec (.accrd f) s = issue (costOf (.accrd f)) f.g (bodyAccrd f) s := rfl
theorem exec_accwr (f : F2) (s : State) :
    exec (.accwr f) s = issue (costOf (.accwr f)) f.g (bodyAccwr f) s := rfl
theorem exec_accclr (f : F2) (s : State) :
    exec (.accclr f) s = issue (costOf (.accclr f)) f.g (bodyAccclr f) s := rfl
theorem exec_fmtset (f : F2) (s : State) :
    exec (.fmtset f) s = issue (costOf (.fmtset f)) f.g (bodyFmtset f) s := rfl
theorem exec_fmtsetI (f : FI) (s : State) :
    exec (.fmtsetI f) s = issue (costOf (.fmtsetI f)) f.g (bodyFmtsetI f) s := rfl
theorem exec_accadd (f : F2) (s : State) :
    exec (.accadd f) s = issue (costOf (.accadd f)) f.g (bodyAccadd f) s := rfl
theorem exec_copy (f : F3) (s : State) :
    exec (.copy f) s = issue (costOf (.copy f)) f.g (bodyCopy f) s := rfl
theorem exec_kick (f : F2) (s : State) :
    exec (.kick f) s = issue (costOf (.kick f)) f.g (bodyKick f) s := rfl
theorem exec_gather (f : F3) (s : State) :
    exec (.gather f) s = issue (costOf (.gather f)) f.g (bodyGather f) s := rfl
theorem exec_scatter (f : F3) (s : State) :
    exec (.scatter f) s = issue (costOf (.scatter f)) f.g (bodyScatter f) s := rfl
theorem exec_scatterAdd (f : F3) (s : State) :
    exec (.scatterAdd f) s = issue (costOf (.scatterAdd f)) f.g (bodyScatterAdd f) s := rfl
theorem exec_pfl2 (f : F2) (s : State) :
    exec (.pfl2 f) s = issue (costOf (.pfl2 f)) f.g (bodyPfl2 f) s := rfl
theorem exec_pfl2Tok (f : F2) (s : State) :
    exec (.pfl2Tok f) s = issue (costOf (.pfl2Tok f)) f.g (bodyPfl2Tok f) s := rfl
theorem exec_cstat (f : F2) (s : State) :
    exec (.cstat f) s = issue (costOf (.cstat f)) f.g (bodyCstat f) s := rfl
theorem exec_seedtry (f : F3) (s : State) :
    exec (.seedtry f) s = issue (costOf (.seedtry f)) f.g (bodySeedtry f) s := rfl
theorem exec_seedscan (f : F3) (s : State) :
    exec (.seedscan f) s = issue (costOf (.seedscan f)) f.g (bodySeedscan f) s := rfl
theorem exec_fit (f : F2) (s : State) :
    exec (.fit f) s = issue (costOf (.fit f)) f.g (bodyFit f) s := rfl
theorem exec_proj (f : F2) (s : State) :
    exec (.proj f) s = issue (costOf (.proj f)) f.g (bodyProj f) s := rfl
theorem exec_mgen (f : F2) (s : State) :
    exec (.mgen f) s = issue (costOf (.mgen f)) f.g (bodyMgen f) s := rfl
theorem exec_mstat (f : F2) (s : State) :
    exec (.mstat f) s = issue (costOf (.mstat f)) f.g (bodyMstat f) s := rfl
theorem exec_xlate (f : F2) (s : State) :
    exec (.xlate f) s = issue (costOf (.xlate f)) f.g (bodyXlate f) s := rfl
theorem exec_xprobe (f : F2) (s : State) :
    exec (.xprobe f) s = issue (costOf (.xprobe f)) f.g (bodyXprobe f) s := rfl
theorem exec_xinvPage (f : F2) (s : State) :
    exec (.xinvPage f) s = issue (costOf (.xinvPage f)) f.g (bodyXinvPage f) s := rfl
theorem exec_xinvRange (f : F2) (s : State) :
    exec (.xinvRange f) s = issue (costOf (.xinvRange f)) f.g (bodyXinvRange f) s := rfl
theorem exec_xinvPasid (f : F2) (s : State) :
    exec (.xinvPasid f) s = issue (costOf (.xinvPasid f)) f.g (bodyXinvPasid f) s := rfl
theorem exec_xinvAll (f : F2) (s : State) :
    exec (.xinvAll f) s = issue (costOf (.xinvAll f)) f.g (bodyXinvAll f) s := rfl
theorem exec_xflush (f : F2) (s : State) :
    exec (.xflush f) s = issue (costOf (.xflush f)) f.g (bodyXflush f) s := rfl
theorem exec_pclass (f : F2) (s : State) :
    exec (.pclass f) s = issue (costOf (.pclass f)) f.g (bodyPclass f) s := rfl
theorem exec_pclassI (f : FI) (s : State) :
    exec (.pclassI f) s = issue (costOf (.pclassI f)) f.g (bodyPclassI f) s := rfl
theorem exec_opsel (f : F2) (s : State) :
    exec (.opsel f) s = issue (costOf (.opsel f)) f.g (bodyOpsel f) s := rfl
theorem exec_opselI (f : FI) (s : State) :
    exec (.opselI f) s = issue (costOf (.opselI f)) f.g (bodyOpselI f) s := rfl
theorem exec_grant (f : F2) (s : State) :
    exec (.grant f) s = issue (costOf (.grant f)) f.g (bodyGrant f) s := rfl
theorem exec_tmark (f : F2) (s : State) :
    exec (.tmark f) s = issue (costOf (.tmark f)) f.g (bodyTmark f) s := rfl
theorem exec_tmarkI (f : FI) (s : State) :
    exec (.tmarkI f) s = issue (costOf (.tmarkI f)) f.g (bodyTmarkI f) s := rfl
theorem exec_bkpt (f : F2) (s : State) :
    exec (.bkpt f) s = issue (costOf (.bkpt f)) f.g (bodyBkpt f) s := rfl
theorem exec_bkptI (f : FI) (s : State) :
    exec (.bkptI f) s = issue (costOf (.bkptI f)) f.g (bodyBkptI f) s := rfl
theorem exec_shash (f : F2) (s : State) :
    exec (.shash f) s = issue (costOf (.shash f)) f.g (bodyShash f) s := rfl
theorem exec_confrd (f : F2) (s : State) :
    exec (.confrd f) s = issue (costOf (.confrd f)) f.g (bodyConfrd f) s := rfl
theorem exec_rpctlOff (f : F2) (s : State) :
    exec (.rpctlOff f) s = issue (costOf (.rpctlOff f)) f.g (bodyRpctlOff f) s := rfl
theorem exec_rpctlRec (f : F2) (s : State) :
    exec (.rpctlRec f) s = issue (costOf (.rpctlRec f)) f.g (bodyRpctlRec f) s := rfl
theorem exec_rpctlReplay (f : F2) (s : State) :
    exec (.rpctlReplay f) s = issue (costOf (.rpctlReplay f)) f.g (bodyRpctlReplay f) s := rfl
theorem exec_rpctlQuery (f : F2) (s : State) :
    exec (.rpctlQuery f) s = issue (costOf (.rpctlQuery f)) f.g (bodyRpctlQuery f) s := rfl
theorem exec_qsub (f : F2) (s : State) :
    exec (.qsub f) s = issue (costOf (.qsub f)) f.g (bodyQsub f) s := rfl
theorem exec_getsp (f : F2) (s : State) :
    exec (.getsp f) s = issue (costOf (.getsp f)) f.g (bodyGetsp f) s := rfl
theorem exec_setsp (f : F2) (s : State) :
    exec (.setsp f) s = issue (costOf (.setsp f)) f.g (bodySetsp f) s := rfl
theorem exec_resultLands (c : Nat) (s : State) :
    exec (.resultLands c) s = .next (if s.resultDue c then s.resultLands c else s) := rfl
theorem exec_interlockedResultReturn (c : Nat) (s : State) :
    exec (.interlockedResultReturn c) s = .next (if s.interlockedDue c then s.interlockedReturn c else s) := rfl
theorem exec_linePresent (c : Nat) (s : State) :
    exec (.linePresent c) s = .next (if s.lineDue c then s.wakeFound c (s.presentPath c) else s) := rfl
theorem exec_requestEntryFree (c : Nat) (s : State) :
    exec (.requestEntryFree c) s = .next (if s.entryDue c then s.wakeFound c (s.entriesPath c) else s) := rfl
theorem exec_writeBufferDrain (c : Nat) (s : State) :
    exec (.writeBufferDrain c) s = .next (if s.drainDue c then s.drain c else s) := rfl
theorem exec_promotionRequest (c : Nat) (s : State) :
    exec (.promotionRequest c) s = .next (if s.promoDue c then s.promote c else s) := rfl
theorem exec_sliceAtomic (sl : Nat) (s : State) :
    exec (.sliceAtomic sl) s = .next (if s.sliceDue sl then s.sliceStep sl else s) := rfl
theorem exec_remoteScratchAccess (c : Nat) (s : State) :
    exec (.remoteScratchAccess c) s = .next (if s.remoteDue c then s.remoteStep c else s) := rfl
theorem exec_warpReady (c : Nat) (s : State) :
    exec (.warpReady c) s = .next (if s.readyDue c then s.warpReady c else s) := rfl
theorem exec_loopBackEdge (c : Nat) (s : State) :
    exec (.loopBackEdge c) s = .next (if s.edgeDue c then s.backEdge c else s) := rfl
theorem exec_reconvergeMerge (c : Nat) (s : State) :
    exec (.reconvergeMerge c) s = .next (if s.mergeDue c then s.mergeOne c else s) := rfl
theorem exec_folldComplete (c : Nat) (s : State) :
    exec (.folldComplete c) s = .next (if s.folldDue c then s.folldDone c else s) := rfl
theorem exec_collapseComplete (c : Nat) (s : State) :
    exec (.collapseComplete c) s = .next (if s.collapseDue c then s.collapse c else s) := rfl
theorem exec_expandComplete (c : Nat) (s : State) :
    exec (.expandComplete c) s = .next (if s.expandDue c then s.expand c else s) := rfl
theorem exec_strandFaultFreeze (c : Nat) (s : State) :
    exec (.strandFaultFreeze c) s = .next (if s.faultDue c then s.strandFault c else s) := rfl
theorem exec_strandSnapshotResume (c : Nat) (s : State) :
    exec (.strandSnapshotResume c) s = .next (if s.snapDue c then s.snapResume c else s) := rfl
theorem exec_trapEntry (c : Nat) (s : State) :
    exec (.trapEntry c) s = .next (if s.trapDue c then s.trapEntry c else s) := rfl
theorem exec_asyncTrapDelivery (c : Nat) (s : State) :
    exec (.asyncTrapDelivery c) s = .next (if s.asyncDue c then s.asyncTrap c else s) := rfl
theorem exec_kettleLineRise (l : Nat) (s : State) :
    exec (.kettleLineRise l) s = .next (if s.riseDue l then s.lineRise l else s) := rfl
theorem exec_kettleRelease (l : Nat) (s : State) :
    exec (.kettleRelease l) s = .next (if s.releaseDue l then s.lineRelease l else s) := rfl
theorem exec_copyAccept (c : Nat) (s : State) :
    exec (.copyAccept c) s = .next (if s.acceptDue c then s.acceptStep c else s) := rfl
theorem exec_kickEntryAccept (c : Nat) (s : State) :
    exec (.kickEntryAccept c) s = .next (if s.kickDue c then s.kickAccept c else s) := rfl
theorem exec_copyLineMove (c : Nat) (s : State) :
    exec (.copyLineMove c) s = .next (if s.moveDue c then s.moveStep c else s) := rfl
theorem exec_copyGlobalReturn (c : Nat) (s : State) :
    exec (.copyGlobalReturn c) s = .next (if s.returnDue c then s.returnStep c else s) := rfl
theorem exec_copyBytesLand (c : Nat) (s : State) :
    exec (.copyBytesLand c) s = .next (if s.landDue c then s.landStep c else s) := rfl
theorem exec_requestError (c : Nat) (s : State) :
    exec (.requestError c) s = .next (if s.errorDue c then s.errorStep c else s) := rfl
theorem exec_pfl2LineDone (c : Nat) (s : State) :
    exec (.pfl2LineDone c) s = .next (if s.pflDue c then s.pflStep c else s) := rfl
theorem exec_pageWaitResume (c : Nat) (s : State) :
    exec (.pageWaitResume c) s = .next (if s.pageDue c then s.pageStep c else s) := rfl
theorem exec_mxStart (c : Nat) (s : State) :
    exec (.mxStart c) s = .next (if s.mxDue c then s.mxStart c else s) := rfl
theorem exec_mxOccupancyEnd (c : Nat) (s : State) :
    exec (.mxOccupancyEnd c) s = .next (if s.occupancyDue c then s.mxEnd c else s) := rfl
theorem exec_mmsgRecordRead (c : Nat) (s : State) :
    exec (.mmsgRecordRead c) s = .next (if s.recordDue c then s.recordStep c else s) := rfl
theorem exec_accallocGrant (c : Nat) (s : State) :
    exec (.accallocGrant c) s = .next (if s.allocDue c then s.allocGrant c else s) := rfl
theorem exec_accfreeRelease (c : Nat) (s : State) :
    exec (.accfreeRelease c) s = .next (if s.freeDue c then s.freeRelease c else s) := rfl
theorem exec_accDeadlock (c : Nat) (s : State) :
    exec (.accDeadlock c) s = .next (if s.deadlockDue c then s.deadlock c else s) := rfl
theorem exec_mxResetEnd (c : Nat) (s : State) :
    exec (.mxResetEnd c) s = .next (if s.resetOver c then s.resetEnd c else s) := rfl
theorem exec_bankTransfer (c : Nat) (s : State) :
    exec (.bankTransfer c) s = .next (if s.transferDue c then s.transferStart c else s) := rfl
theorem exec_marbleAccept (c : Nat) (s : State) :
    exec (.marbleAccept c) s = .next (if s.marbleAcceptDue c then s.marbleAcceptStep c else s) := rfl
theorem exec_marbleStart (c : Nat) (s : State) :
    exec (.marbleStart c) s = .next (if s.marbleStartDue c then s.marbleStart c else s) := rfl
theorem exec_marbleComplete (c : Nat) (s : State) :
    exec (.marbleComplete c) s = .next (if s.marbleEndDue c then s.marbleComplete c else s) := rfl
theorem exec_candidateComplete (c : Nat) (s : State) :
    exec (.candidateComplete c) s = .next (if s.candidateDue c then s.candidateStep c else s) := rfl
theorem exec_scanDeadline (c : Nat) (s : State) :
    exec (.scanDeadline c) s = .next (if s.deadlineDue c then s.deadlineStep c else s) := rfl
theorem exec_qwpWrite (q : Nat) (v : W32) (s : State) :
    exec (.qwpWrite q v) s = .next (if s.open_ then s.writeQwp q v else s) := rfl
theorem exec_qctlWrite (q : Nat) (v : W32) (s : State) :
    exec (.qctlWrite q v) s = .next (if s.open_ then s.writeQctl q v else s) := rfl
theorem exec_qstatClear (q : Nat) (v : W32) (s : State) :
    exec (.qstatClear q v) s = .next (if s.open_ then s.clearQstat q v else s) := rfl
theorem exec_recordAdmit (s : State) :
    exec .recordAdmit s = .next (if s.admitDue then s.admitOne else s) := rfl
theorem exec_blockPlace (c : Nat) (s : State) :
    exec (.blockPlace c) s = .next (if s.placeDue c then s.placeFirst c else s) := rfl
theorem exec_blockEnd (c : Nat) (s : State) :
    exec (.blockEnd c) s = .next (if s.endDue c then s.endStep c else s) := rfl
theorem exec_gridComplete (s : State) :
    exec .gridComplete s = .next (if s.gridDue then s.gridStep else s) := rfl
theorem exec_preempt (c : Nat) (s : State) :
    exec (.preempt c) s = .next (if s.preemptDue c then s.preempt c else s) := rfl
theorem exec_preemptHaltDone (c : Nat) (s : State) :
    exec (.preemptHaltDone c) s = .next (if s.haltDue c then s.haltStep c else s) := rfl
theorem exec_mxResetCmd (c : Nat) (s : State) :
    exec (.mxResetCmd c) s = .next (if s.open_ then s.mxResetCmd c else s) := rfl
theorem exec_coreResetCmd (c : Nat) (s : State) :
    exec (.coreResetCmd c) s = .next (if s.open_ then s.coreResetCmd c else s) := rfl
theorem exec_walk (c : Nat) (s : State) :
    exec (.walk c) s = .next (if s.walkDue c then s.walkStep c else s) := rfl
theorem exec_atsCompletion (c : Nat) (r : AtsAnswer) (s : State) :
    exec (.atsCompletion c r) s = .next (if s.atsDue c then s.atsStep c r else s) := rfl
theorem exec_atsTimeout (c : Nat) (s : State) :
    exec (.atsTimeout c) s = .next (if s.atsLate c then s.answerLate c 1 else s) := rfl
theorem exec_prgResponse (c : Nat) (r : PrgAnswer) (s : State) :
    exec (.prgResponse c r) s = .next (if s.prgDue c then s.prgStep c r else s) := rfl
theorem exec_pageRequestTimeout (c : Nat) (s : State) :
    exec (.pageRequestTimeout c) s = .next (if s.prgLate c then s.answerLate c 2 else s) := rfl
theorem exec_hostAtsInvalidate (pasid : Option Nat) (va : W64) (pages : Nat) (s : State) :
    exec (.hostAtsInvalidate pasid va pages) s = .next (if s.open_ then s.atsInval pasid va pages else s) := rfl
theorem exec_invalidationComplete (s : State) :
    exec .invalidationComplete s = .next (if s.invalDue then s.invalStep else s) := rfl
theorem exec_hostInvPage (pasid : Nat) (s : State) :
    exec (.hostInvPage pasid) s = .next (if s.open_ then s.hostInval 0 pasid else s) := rfl
theorem exec_hostInvRange (pasid : Nat) (s : State) :
    exec (.hostInvRange pasid) s = .next (if s.open_ then s.hostInval 1 pasid else s) := rfl
theorem exec_hostInvPasid (pasid : Nat) (s : State) :
    exec (.hostInvPasid pasid) s = .next (if s.open_ then s.hostInval 2 pasid else s) := rfl
theorem exec_hostInvAll (s : State) :
    exec .hostInvAll s = .next (if s.open_ then s.hostInval 3 0 else s) := rfl
theorem exec_hostHostAccess (peer : Bool) (op : OuterOp) (pa : Nat) (s : State) :
    exec (.hostHostAccess peer op pa) s = .next (if s.open_ then s.outerAccess peer op pa else s) := rfl
theorem exec_hostCompletionError (c : Nat) (s : State) :
    exec (.hostCompletionError c) s = .next (if s.goes then s.outerError c false else s) := rfl
theorem exec_peerLoss (c : Nat) (s : State) :
    exec (.peerLoss c) s = .next (if s.goes then s.outerError c true else s) := rfl
theorem exec_cgrantWrite (c : Nat) (v : W64) (s : State) :
    exec (.cgrantWrite c v) s = .next (if s.open_ then s.writeCgrant c v else s) := rfl
theorem exec_settleComplete (c : Nat) (s : State) :
    exec (.settleComplete c) s = .next (if s.settleDue c then s.settleStep c else s) := rfl
theorem exec_governedStall (c : Nat) (s : State) :
    exec (.governedStall c) s = .next (if s.stallDue c then s.stallStep c else s) := rfl
theorem exec_slewStep (s : State) :
    exec .slewStep s = .next (if s.slewStepDue then s.slewStep else s) := rfl
theorem exec_slewGrant (c : Nat) (s : State) :
    exec (.slewGrant c) s = .next (if s.slewDue c then s.light c else s) := rfl
theorem exec_fillerEnd (c : Nat) (s : State) :
    exec (.fillerEnd c) s = .next (if s.fillerDue c then s.unlight c else s) := rfl
theorem exec_slewWrite (g : Nat) (hi : Bool) (isCtl : Bool) (v : W32) (s : State) :
    exec (.slewWrite g hi isCtl v) s = .next (if s.open_ then s.writeSlew g hi isCtl v else s) := rfl
theorem exec_hangTimeout (c : Nat) (s : State) :
    exec (.hangTimeout c) s = .next (if s.hangDue c then s.hangStep c else s) := rfl
theorem exec_mxhangTimeout (c : Nat) (s : State) :
    exec (.mxhangTimeout c) s = .next (if s.mxhangDue c then s.mxhangStep c else s) := rfl
theorem exec_wstatClear (c : Nat) (v : W32) (s : State) :
    exec (.wstatClear c v) s = .next (if s.open_ then s.clearWstat c v else s) := rfl
theorem exec_stopArmCycle (c : Nat) (v : W32) (s : State) :
    exec (.stopArmCycle c v) s = .next (if s.open_ then s.writeStopctl c v 1 else s) := rfl
theorem exec_stopArmCount (c : Nat) (v : W32) (s : State) :
    exec (.stopArmCount c v) s = .next (if s.open_ then s.writeStopctl c v 2 else s) := rfl
theorem exec_stopDisarm (c : Nat) (v : W32) (s : State) :
    exec (.stopDisarm c v) s = .next (if s.open_ then s.writeStopctl c v 0 else s) := rfl
theorem exec_stopResume (c : Nat) (s : State) :
    exec (.stopResume c) s = .next (if s.open_ then s.writeResume c else s) := rfl
theorem exec_preciseStop (c : Nat) (s : State) :
    exec (.preciseStop c) s = .next (if s.stopDue c then s.stopStep c else s) := rfl
theorem exec_sample (c : Nat) (s : State) :
    exec (.sample c) s = .next (if s.sampleDue c then s.sampleCycle c else s) := rfl
theorem exec_bcmClear (c : Nat) (s : State) :
    exec (.bcmClear c) s = .next (if s.open_ then s.clearBcm c else s) := rfl
theorem exec_divergedClear (c : Nat) (s : State) :
    exec (.divergedClear c) s = .next (if s.open_ then s.clearDiverged c else s) := rfl
theorem exec_obsctlWrite (c : Nat) (v : W32) (s : State) :
    exec (.obsctlWrite c v) s = .next (if s.open_ then s.writeObsctl c v else s) := rfl
theorem exec_headbandFlush (s : State) :
    exec .headbandFlush s = .next (if s.open_ then s.flushTrace else s) := rfl
theorem exec_headbandEnable (en : Bool) (s : State) :
    exec (.headbandEnable en) s = .next (if s.open_ then s.enableTrace en else s) := rfl
theorem exec_dropCountEmit (s : State) :
    exec .dropCountEmit s = .next (if s.dropDue then s.dropCounts else s) := rfl
theorem exec_losslessRoom (s : State) :
    exec .losslessRoom s = .next (if s.roomDue then s.placeWaiting else s) := rfl
theorem exec_timeSync (s : State) :
    exec .timeSync s = .next (if s.syncDue then s.syncStep else s) := rfl
theorem exec_rpmodeOff (sl : Nat) (s : State) :
    exec (.rpmodeOff sl) s = .next (if s.open_ then s.setRpmode sl 0 else s) := rfl
theorem exec_rpmodeRecord (sl : Nat) (s : State) :
    exec (.rpmodeRecord sl) s = .next (if s.open_ then s.setRpmode sl 1 else s) := rfl
theorem exec_rpmodeReplay (sl : Nat) (s : State) :
    exec (.rpmodeReplay sl) s = .next (if s.open_ then s.setRpmode sl 2 else s) := rfl
theorem exec_rlogPartialFlush (sl : Nat) (s : State) :
    exec (.rlogPartialFlush sl) s = .next (if s.rlogDue sl then s.rlogFlush sl else s) := rfl
theorem exec_gateTimeout (sl : Nat) (s : State) :
    exec (.gateTimeout sl) s = .next (if s.gateDue sl then s.gateGive sl else s) := rfl
theorem exec_shashRetire (c : Nat) (s : State) :
    exec (.shashRetire c) s = .next (if s.shashDue c then s.shashStep c else s) := rfl
theorem exec_pressPinAssert (s : State) :
    exec .pressPinAssert s = .next (if s.boot.powered then s.pinAssert else s) := rfl
theorem exec_pressPinDeassert (s : State) :
    exec .pressPinDeassert s = .next (if s.boot.powered then s.pinDeassert else s) := rfl
theorem exec_pressCmd (s : State) :
    exec .pressCmd s = .next (if s.boot.powered then s.pressAsk else s) := rfl
theorem exec_pressReleaseCmd (s : State) :
    exec .pressReleaseCmd s = .next (if s.boot.powered then s.pressRelease else s) := rfl
theorem exec_pressEdge (s : State) :
    exec .pressEdge s = .next (if s.pressDue then s.pressBegin else s) := rfl
theorem exec_pressReleaseEdge (s : State) :
    exec .pressReleaseEdge s = .next (if s.releaseEdgeDue then s.pressEnd else s) := rfl
theorem exec_dramRefresh (stk : Nat) (s : State) :
    exec (.dramRefresh stk) s = .next s := rfl
theorem exec_eccScrubForced (stk : Nat) (s : State) :
    exec (.eccScrubForced stk) s = .next s := rfl
theorem exec_powerOn (err : Nat) (s : State) :
    exec (.powerOn err) s = .next (s.powerOn err) := rfl
theorem exec_warmReset (memKept : Bool) (err : Nat) (s : State) :
    exec (.warmReset memKept err) s = .next (s.warmReset memKept err) := rfl
theorem exec_attestGo (s : State) :
    exec .attestGo s = .next (if s.goes then s.attestBegin else s) := rfl
theorem exec_attestDone (s : State) :
    exec .attestDone s = .next (if s.attestDue then s.attestEnd else s) := rfl
theorem exec_controlRegisterWrite (off : Nat) (v : CtlWrite) (s : State) :
    exec (.controlRegisterWrite off v) s = .next (if s.goes then s.controlWrite v.mgmt off v.val else s) := rfl
theorem exec_qsubRecordWritten (q : Nat) (s : State) :
    exec (.qsubRecordWritten q) s = .next (if s.qsubDue q then s.qsubStep q else s) := rfl
theorem exec_configurationSpaceWrite (pasidEn atsEn priEn : Bool) (s : State) :
    exec (.configurationSpaceWrite pasidEn atsEn priEn) s = .next (if s.goes then s.writeConfig pasidEn atsEn priEn else s) := rfl
theorem exec_powerLoss (s : State) :
    exec .powerLoss s = .next (s.losePower) := rfl

end Sys2Proof.Machine
end

