-- ==== Sys2Proof/Laws/Issue.lean ====
section
/-! SUPPORT. How an instruction ends, and, for each shared operation of the meanings, what it answers when its checks
hold: cited in place of unfolding them. -/

set_option Elab.async false

namespace Sys2Proof.Machine

/-! ## The checks -/

/-- A check that holds gives way to what follows it. -/
theorem ok_bind {α β : Type} (a : α) (f : α → Except Stop β) : (Except.ok a >>= f) = f a := rfl

/-- A check that fails ends the instruction. -/
theorem error_bind {α β : Type} (x : Stop) (f : α → Except Stop β) : (Except.error x >>= f) = .error x := rfl

theorem need_true {b : Bool} {c : BitVec 8} {m : W32} (h : b = true) : need b c m = .ok () := by simp [need, h]

theorem Env.field_true {e : Env} {b : Bool} (h : b = true) : e.field b = .ok () := need_true h

theorem Env.enc_true {e : Env} {b : Bool} (h : b = true) : e.enc b = .ok () := need_true h

theorem Env.notLane_ok {e : Env} (h : e.inLane = false) : e.notLane = .ok () := by simp [Env.notLane, Env.enc, need, h]

theorem Env.notVector_ok {e : Env} (h : e.inVector = false) : e.notVector = .ok () := by
  simp [Env.notVector, Env.enc, need, h]

theorem need_false {b : Bool} {c : BitVec 8} {m : W32} (h : b = false) : need b c m = .error (.trap c m) := by
  simp [need, h]

theorem Env.sources_ok {e : Env} {l : List Opnd} (h : e.legal l = true) : e.sources l = .ok () := by
  simp only [Env.legal, Bool.and_eq_true] at h
  simp [Env.sources, Env.enc, Env.field, need, h.1, h.2]
  rfl

theorem Env.dstV_ok {e : Env} {d : Code} {w : Bool} (h : e.vOk d w = true) : e.dstV d w = .ok () := need_true h

theorem Env.dstW_ok {e : Env} {d : Code} {w : Bool} (h : wOk d w = true) : e.dstW d w = .ok () := need_true h

theorem Env.dstVW_ok {e : Env} {d : Code} {w : Bool} (h : e.vwOk d w = true) : e.dstVW d w = .ok () := need_true h

theorem Env.dstQ_ok {e : Env} {d : Code} (h : qOk d = true) : e.dstQ d = .ok () := need_true h

theorem Env.landed_ok {e : Env} {l : List Opnd} (h : e.quiet l = true) : e.landed l = .ok () := by simp [Env.landed, h]

theorem Env.plainSrc_ok {e : Env} {u : Nat} {c : Code} (h : e.plainOk u c = true) :
    e.plainSrc u c = .ok (plainOpnd u c) := by
  simp [Env.plainSrc, Env.field_true h]; rfl

theorem Env.pairSrc_ok {e : Env} {u : Nat} {c : Code} (h : e.pairOk u c = true) :
    e.pairSrc u c = .ok (pairOpnd u c) := by
  simp [Env.pairSrc, Env.field_true h]; rfl

/-! ## Issue -/

/-- An instruction that has its effect completes. -/
theorem issue_next {x : Cost} {g : Guard} {body : Body} {s t : State} {e : Env} (h : s.Issues g e)
    (hb : body e (e.enter s) = .ok t) : issue x g body s = .next (e.complete x g t) := by
  simp [issue, h.1, h.2, hb]

/-- An instruction that ends without its effect traps or waits. -/
theorem issue_stops {x : Cost} {g : Guard} {body : Body} {s : State} {e : Env} {r : Stop} (h : s.Issues g e)
    (hb : body e (e.enter s) = .error r) : issue x g body s = .next (e.stopped s r) := by
  simp [issue, h.1, h.2, hb]

/-- A back-edge to an offset in no resident folio traps before the effect (R122). -/
theorem issue_edge {x : Cost} {g : Guard} {body : Body} {s : State} {e : Env} (h : s.env g = some e)
    (hm : e.edgeMissed = true) :
    issue x g body s = .next (e.stopped s (.trap cFolioMiss e.path.mask)) := by
  simp [issue, h, hm]

/-- With an issuer an instruction never stops the machine. -/
theorem issue_goesOn {x : Cost} {g : Guard} {body : Body} {s : State} {e : Env} (h : s.env g = some e) :
    GoesOn (issue x g body s) := by
  unfold issue GoesOn
  rw [h]
  dsimp only
  split <;> exact ⟨_, rfl⟩

/-! ## Lane instructions -/

/-- A lane instruction with legal operands puts its result. -/
theorem laneOp_ok {unit lat : Nat} {src : List Opnd} {d : Code} {w : Bool} {f : Env → Nat → W64} {e : Env} {s : State}
    (h1 : e.legal src = true) (h2 : e.vOk d w = true) (h3 : e.quiet src = true) :
    laneOp unit lat src d w f e s = .ok (e.vResult unit lat d w (f e) s) := by
  simp only [laneOp, Env.sources_ok h1, Env.dstV_ok h2, Env.landed_ok h3]; rfl

/-- A predicate instruction with legal operands puts its predicate. -/
theorem predOp_ok {unit lat : Nat} {src : List Opnd} {d : Code} {f : Env → Nat → Bool} {e : Env} {s : State}
    (h1 : e.legal src = true) (h2 : qOk d = true) (h3 : e.quiet src = true) :
    predOp unit lat src d f e s = .ok (e.qResult unit lat d (f e) s) := by
  simp only [predOp, Env.sources_ok h1, Env.dstQ_ok h2, Env.landed_ok h3]; rfl

/-- A uniform instruction with legal operands puts its w register when a lane is active. -/
theorem uniformOp_ok {unit lat : Nat} {src : List Opnd} {d : Code} {w : Bool} {f : Env → W64} {e : Env} {s : State}
    (h1 : e.legal src = true) (h2 : wOk d w = true) (h3 : e.quiet src = true) :
    uniformOp unit lat src d w f e s = .ok (if e.act = 0 then s else e.wResult unit lat d w (f e) s) := by
  simp only [uniformOp, Env.sources_ok h1, Env.dstW_ok h2, Env.landed_ok h3]; rfl

/-- A float instruction with legal operands puts its words, flags and generators. -/
theorem floatOp_ok {unit lat : Nat} {src : List Opnd} {chk : Env → Except Stop Unit} {regs : Env → List Nat} {nf : Bool}
    {g : Env → Nat → W32 → List W32 × Nat × W32} {e : Env} {s : State}
    (h1 : e.legal src = true) (h2 : chk e = .ok ()) (h3 : e.quiet src = true) :
    floatOp unit lat src chk regs nf g e s = .ok (e.floatResult unit lat (regs e) nf (g e) s) := by
  simp only [floatOp, Env.sources_ok h1, h2, Env.landed_ok h3]; rfl

/-- A float instruction by elements. -/
theorem elemsOp_ok {unit lat : Nat} {f : Fmt} {src : List Opnd} {d : Code} {rnd : BitVec 3} {nf : Bool}
    {g : Env → Nat → Nat → Nat → Res} {e : Env} {s : State}
    (h1 : e.legal src = true) (h2 : e.vOk d (f.width == 64) = true) (h3 : e.quiet src = true) :
    elemsOp unit lat f src d rnd nf g e s = .ok (e.floatResult unit lat
      (e.phys d.toNat (if f.width == 64 then 2 else 1)) nf (e.floatElements f rnd (g e)) s) :=
  floatOp_ok (chk := fun e => e.dstV d (f.width == 64))
    (regs := fun e => e.phys d.toNat (if f.width == 64 then 2 else 1))
    (g := fun e => e.floatElements f rnd (g e)) h1 (Env.dstV_ok h2) h3

/-- Issuing a lane instruction. -/
theorem issue_laneOp {s : State} {e : Env} {g : Guard} {x : Cost} {unit lat : Nat} {src : List Opnd} {d : Code} {w : Bool}
    {f : Env → Nat → W64} (h : s.Issues g e) (h1 : e.legal src = true) (h2 : e.vOk d w = true)
    (h3 : e.quiet src = true) :
    issue x g (laneOp unit lat src d w f) s = .next (e.complete x g (e.vResult unit lat d w (f e) (e.enter s))) :=
  issue_next h (laneOp_ok h1 h2 h3)

/-- Issuing a predicate instruction. -/
theorem issue_predOp {s : State} {e : Env} {g : Guard} {x : Cost} {unit lat : Nat} {src : List Opnd} {d : Code}
    {f : Env → Nat → Bool} (h : s.Issues g e) (h1 : e.legal src = true) (h2 : qOk d = true) (h3 : e.quiet src = true) :
    issue x g (predOp unit lat src d f) s = .next (e.complete x g (e.qResult unit lat d (f e) (e.enter s))) :=
  issue_next h (predOp_ok h1 h2 h3)

/-- Issuing a float instruction by elements. -/
theorem issue_elemsOp {s : State} {e : Env} {gd : Guard} {x : Cost} {unit lat : Nat} {f : Fmt} {src : List Opnd}
    {d : Code} {rnd : BitVec 3} {nf : Bool} {g : Env → Nat → Nat → Nat → Res} (h : s.Issues gd e)
    (h1 : e.legal src = true) (h2 : e.vOk d (f.width == 64) = true) (h3 : e.quiet src = true) :
    issue x gd (elemsOp unit lat f src d rnd nf g) s = .next (e.complete x gd (e.floatResult unit lat
      (e.phys d.toNat (if f.width == 64 then 2 else 1)) nf (e.floatElements f rnd (g e)) (e.enter s))) :=
  issue_next h (elemsOp_ok h1 h2 h3)

/-! ## Accesses (R179) -/

/-- Where every lane has its place, none faults and none misses a translation. -/
theorem firstCause_places {l : List (LaneAcc × Meets)}
    (h : l.all (fun p => match p.2 with | .at _ => true | _ => false) = true) :
    firstCause (l.map (fun p => (p.1.lane, p.2))) = none ∧ meetsMissing l = [] := by
  rw [List.all_eq_true] at h
  have no : ∀ p ∈ l.map (fun p => (p.1.lane, p.2)), ∃ x, p.2 = .at x := by
    intro p hp
    obtain ⟨q, hq, rfl⟩ := List.mem_map.mp hp
    have := h q hq
    revert this
    cases q.2 <;> simp
  refine ⟨?_, ?_⟩
  · unfold firstCause
    refine (if_neg ?_).trans ((if_neg ?_).trans (if_neg ?_)) <;>
      (rw [not_not, List.map_eq_nil_iff, List.filter_eq_nil_iff]; intro p hp; obtain ⟨x, hx⟩ := no p hp; simp [hx])
  simp only [meetsMissing, List.filterMap_eq_nil_iff]
  intro q hq
  have := h q hq
  revert this
  cases q.2 <;> simp

/-- An aligned access whose lanes all have their places, and which nothing keeps back, is performed. -/
theorem lsExec_ok {e : Env} {a : Access} {d : Option LsDest} {s : State} (h : e.lsNow a s = true) :
    lsExec e a d s = .ok (e.lsEffect a d s) := by
  simp only [Env.lsNow, Bool.and_eq_true] at h
  obtain ⟨⟨h1, h2⟩, h3⟩ := h
  simp only [Env.lsHits, Bool.and_eq_true, Bool.not_eq_true'] at h2
  obtain ⟨hf, hm⟩ := firstCause_places h2.1
  simp only [Env.lsReady, Bool.and_eq_true, Bool.not_eq_true', decide_eq_true_eq] at h3
  have hn : (e.lsFences { a with id := s.nonce } (meetsPlaces (e.lsMeets { a with id := s.nonce } s)) s).find?
      (fun d => !e.settledNow s d) = none := by
    rw [List.find?_eq_none]
    intro x hx
    have := List.all_eq_true.mp h3.1.2 x hx
    simp [this]
  unfold lsExec
  simp only [need_true h1, hm, h2.2, hf, h3.1.1.1, hn, Nat.not_lt.mpr h3.1.1.2, h3.2]
  simp
  rfl

/-- A misaligned lane traps with DATA_ALIGN, with the lanes that are misaligned (R56, R179). -/
theorem lsExec_align {e : Env} {a : Access} {d : Option LsDest} {s : State} (h : a.aligned = false) :
    lsExec e a d s = .error (.trap cDataAlign (lanesMask ((a.lanes.filter (fun l => l.ea % a.n != 0)).map (·.lane)))) := by
  have h' : ({ a with id := s.nonce } : Access).aligned = false := h
  unfold lsExec
  simp only [need_false h']
  rfl

/-! ## Engines -/

/-- The first in engine order starts when the engine is free. -/
theorem Env.mxTurn_ok {e : Env} {x : MxEntry} {s : State} (h : e.mxReady x s = true) :
    e.mxTurn x s = .ok (e.mxTake x s) := by simp [Env.mxTurn, h]

/-- Otherwise it waits in the queue. -/
theorem Env.mxTurn_wait {e : Env} {x : MxEntry} {s : State} (h : e.mxReady x s = false) :
    e.mxTurn x s = .error (.wait .mx (e.mxJoin x)) := by simp [Env.mxTurn, h]

end Sys2Proof.Machine
end

