-- ==== Sys2Proof/Laws/Frame.lean ====
section
/-! SUPPORT. What issuing an instruction and putting its results leaves unchanged. -/

set_option Elab.async false

namespace Sys2Proof.Machine

/-- A relation of warps that a chain of steps keeps. -/
structure Warp.Frame (P : Warp → Warp → Prop) : Prop where
  rfl' : ∀ y, P y y
  trans' : ∀ {x y z}, P x y → P y z → P x z

theorem Warp.SameButIssue.frame : Warp.Frame Warp.SameButIssue where
  rfl' _ := rfl
  trans' {x y z} h k := by
    unfold Warp.SameButIssue at *
    rw [← h, ← k]

theorem Warp.SameButDraw.frame : Warp.Frame Warp.SameButDraw where
  rfl' _ := rfl
  trans' {x y z} h k := by
    unfold Warp.SameButDraw at *
    rw [← h, ← k]

theorem Warp.SameButIssue.draw {y z : Warp} (h : Warp.SameButIssue y z) : Warp.SameButDraw y z := by
  unfold Warp.SameButIssue at h
  unfold Warp.SameButDraw
  have : z.seed = y.seed := (congrArg Warp.seed h :)
  rw [← this]
  exact h

/-- Frames compose. -/
theorem State.SameBut.trans {P : Warp → Warp → Prop} (hP : Warp.Frame P) {s t u : State} {c w : Nat}
    (h : s.SameBut P t c w) (k : t.SameBut P u c w) : s.SameBut P u c w := by
  obtain ⟨h1, h2, h3, h4, h5⟩ := h
  obtain ⟨k1, k2, k3, k4, k5⟩ := k
  refine ⟨?_, fun d hd => (k2 d hd).trans (h2 d hd), ?_, fun x hx => (k4 x hx).trans (h4 x hx), ?_⟩
  · rw [← h1, ← k1]
  · rw [← h3, ← k3]
  · intro y hy
    obtain ⟨z, hz, p⟩ := h5 y hy
    obtain ⟨v, hv, q⟩ := k5 z hz
    exact ⟨v, hv, hP.trans' p q⟩

/-- Nothing changed. -/
theorem State.SameBut.refl {P : Warp → Warp → Prop} (hP : Warp.Frame P) (s : State) (c w : Nat) : s.SameBut P s c w :=
  ⟨rfl, fun _ _ => rfl, rfl, fun _ _ => rfl, fun y hy => ⟨y, hy, hP.rfl' y⟩⟩

/-- A change of warp w alone. -/
theorem State.SameBut.modWarp {P : Warp → Warp → Prop} (s : State) (c w : Nat) (f : Warp → Warp)
    (hf : ∀ y, P y (f y)) : s.SameBut P (s.modWarp c w f) c w := by
  refine ⟨rfl, fun d hd => ?_, ?_, fun x hx => ?_, fun y hy => ?_⟩
  · exact State.modCore_core_other s c d _ hd
  · unfold State.modWarp
    rw [State.modCore_core]
    unfold Core.modWarp
    split <;> rfl
  · unfold State.modWarp
    rw [State.modCore_core]
    unfold Core.modWarp
    split
    · exact KMap.find?_put_other _ _ _ _ hx
    · rfl
  · refine ⟨f y, ?_, hf y⟩
    unfold State.modWarp
    rw [State.modCore_core]
    unfold Core.modWarp
    rw [hy]
    exact KMap.find?_put_same _ _ _

/-- A change of the core's clock state alone. -/
theorem State.SameBut.modCk {P : Warp → Warp → Prop} (hP : Warp.Frame P) (s : State) (c w : Nat) (f : Core → Core)
    (hw : (f (s.core c)).warps = (s.core c).warps)
    (hf : { f (s.core c) with ck := (s.core c).ck } = s.core c) : s.SameBut P (s.modCore c f) c w := by
  refine ⟨rfl, fun d hd => State.modCore_core_other s c d _ hd, ?_, fun x _ => ?_, fun y hy => ⟨y, ?_, hP.rfl' y⟩⟩
  · rw [State.modCore_core]
    have := congrArg Core.warps hf
    rw [← hw]
    exact hf
  · rw [State.modCore_core, hw]
  · rw [State.modCore_core, hw, hy]

/-- The count behind free values alone. -/
theorem State.SameBut.tick {P : Warp → Warp → Prop} (hP : Warp.Frame P) (s : State) (c w : Nat) :
    s.SameBut P s.tickNonce c w :=
  ⟨rfl, fun _ _ => rfl, rfl, fun _ _ => rfl, fun y hy => ⟨y, hy, hP.rfl' y⟩⟩

theorem Warp.setPath_same (y : Warp) (alt : Bool) (p : Path) : y.SameButIssue (y.setPath alt p) := by
  unfold Warp.setPath Warp.SameButIssue
  split <;> rfl

theorem Warp.edge_same (y : Warp) (x : Option Bool) : y.SameButIssue { y with edge := x } := rfl

theorem Warp.sw_same (y : Warp) (x : Bool) : y.SameButIssue { y with sw := x } := rfl

/-- A choice between a warp and one that a frame allows. -/
theorem Warp.SameButIssue.ite {y z : Warp} {p : Prop} [Decidable p] (h : y.SameButIssue z) :
    y.SameButIssue (if p then z else y) := by
  split
  · exact h
  · exact Warp.SameButIssue.frame.rfl' y

theorem Warp.retire_same (y : Warp) (alt : Bool) (pc : W32) (tail : BitVec 2) (b : Bool) :
    y.SameButIssue (y.retire alt pc tail b) :=
  Warp.SameButIssue.frame.trans' (y.setPath_same _ _).ite
    (Warp.SameButIssue.frame.trans' (Warp.sw_same _ _).ite (Warp.edge_same _ _).ite)

theorem Env.enter_same (e : Env) (s : State) : s.SameBut Warp.SameButIssue (e.enter s) e.c e.w := by
  unfold Env.enter
  split
  · exact State.SameBut.modWarp s e.c e.w _ (fun y => y.setPath_same _ _)
  · exact State.SameBut.refl Warp.SameButIssue.frame s _ _

theorem Env.complete_same (e : Env) (x : Cost) (g : Guard) (s : State) :
    s.SameBut Warp.SameButIssue (e.complete x g s) e.c e.w := by
  unfold Env.complete
  split
  · exact (State.SameBut.modWarp s e.c e.w _ (fun y => y.retire_same _ _ _ _)).trans Warp.SameButIssue.frame
      (State.SameBut.modCk Warp.SameButIssue.frame _ e.c e.w _ rfl rfl)
  · exact State.SameBut.refl Warp.SameButIssue.frame s _ _

theorem Env.put_same (e : Env) (unit lat : Nat) (lock : Bool) (dest : Dest) (regs : List Nat) (lanes : W32)
    (vals : List W32) (s : State) : s.SameBut Warp.SameButIssue (e.put unit lat lock dest regs lanes vals s) e.c e.w := by
  refine State.SameBut.trans Warp.SameButIssue.frame (State.SameBut.modWarp s e.c e.w _ ?_)
    (State.SameBut.tick Warp.SameButIssue.frame _ _ _)
  exact fun _ => rfl

theorem Env.takeFma_same (e : Env) (s : State) : s.SameBut Warp.SameButIssue (e.takeFma s) e.c e.w :=
  State.SameBut.modCk Warp.SameButIssue.frame _ e.c e.w _ rfl rfl

/-- An instruction whose effect is only results in flight leaves everything else. -/
theorem Env.issue_same {P : Warp → Warp → Prop} (hP : Warp.Frame P) (hI : ∀ {y z}, Warp.SameButIssue y z → P y z)
    (e : Env) (x : Cost) (g : Guard) {s t : State} (h : (e.enter s).SameBut P t e.c e.w) :
    s.SameBut P (e.complete x g t) e.c e.w := by
  have up {a b : State} (k : a.SameBut Warp.SameButIssue b e.c e.w) : a.SameBut P b e.c e.w :=
    ⟨k.1, k.2.1, k.2.2.1, k.2.2.2.1, fun y hy => let ⟨z, hz, p⟩ := k.2.2.2.2 y hy; ⟨z, hz, hI p⟩⟩
  exact ((up (e.enter_same s)).trans hP h).trans hP (up (e.complete_same x g t))

theorem State.SameBut.draw {s t : State} {c w : Nat} (k : s.SameBut Warp.SameButIssue t c w) :
    s.SameBut Warp.SameButDraw t c w :=
  ⟨k.1, k.2.1, k.2.2.1, k.2.2.2.1, fun y hy => let ⟨z, hz, p⟩ := k.2.2.2.2 y hy; ⟨z, hz, p.draw⟩⟩

theorem Env.vResult_same (e : Env) (unit lat : Nat) (d : Code) (wide : Bool) (val : Nat → W64) (s : State) :
    s.SameBut Warp.SameButIssue (e.vResult unit lat d wide val s) e.c e.w := e.put_same ..

theorem Env.qResult_same (e : Env) (unit lat : Nat) (d : Code) (p : Nat → Bool) (s : State) :
    s.SameBut Warp.SameButIssue (e.qResult unit lat d p s) e.c e.w := e.put_same ..

theorem Env.wResult_same (e : Env) (unit lat : Nat) (d : Code) (wide : Bool) (val : W64) (s : State) :
    s.SameBut Warp.SameButIssue (e.wResult unit lat d wide val s) e.c e.w := e.put_same ..

theorem Env.putFlags_same (e : Env) (unit lat : Nat) (nf : Bool) (l : List Nat) (s : State) :
    s.SameBut Warp.SameButIssue (e.putFlags unit lat nf l s) e.c e.w := by
  unfold Env.putFlags
  split
  · exact State.SameBut.refl Warp.SameButIssue.frame s _ _
  · exact e.put_same ..

theorem Env.setSeeds_same (e : Env) (l : List W32) (s : State) :
    s.SameBut Warp.SameButDraw (e.setSeeds l s) e.c e.w :=
  State.SameBut.modWarp s e.c e.w _ (fun _ => rfl)

theorem Env.floatResult_same (e : Env) (unit lat : Nat) (regs : List Nat) (nf : Bool)
    (g : Nat → W32 → List W32 × Nat × W32) (s : State) :
    s.SameBut Warp.SameButDraw (e.floatResult unit lat regs nf g s) e.c e.w :=
  ((e.put_same ..).trans Warp.SameButIssue.frame (e.putFlags_same ..)).draw.trans Warp.SameButDraw.frame
    (e.setSeeds_same _ _)

/-! ## The frame of each form of result, from issue to the state after -/

theorem Env.complete_put_same (e : Env) (x : Cost) (g : Guard) (s : State) (unit lat : Nat) (lock : Bool) (dest : Dest)
    (regs : List Nat) (lanes : W32) (vals : List W32) :
    s.SameBut Warp.SameButIssue (e.complete x g (e.put unit lat lock dest regs lanes vals (e.enter s))) e.c e.w :=
  e.issue_same Warp.SameButIssue.frame id _ _ (e.put_same ..)

theorem Env.complete_vResult_same (e : Env) (x : Cost) (g : Guard) (s : State) (unit lat : Nat) (d : Code) (wide : Bool)
    (val : Nat → W64) :
    s.SameBut Warp.SameButIssue (e.complete x g (e.vResult unit lat d wide val (e.enter s))) e.c e.w :=
  e.complete_put_same ..

theorem Env.complete_qResult_same (e : Env) (x : Cost) (g : Guard) (s : State) (unit lat : Nat) (d : Code)
    (p : Nat → Bool) :
    s.SameBut Warp.SameButIssue (e.complete x g (e.qResult unit lat d p (e.enter s))) e.c e.w :=
  e.complete_put_same ..

theorem Env.complete_wResult_same (e : Env) (x : Cost) (g : Guard) (s : State) (unit lat : Nat) (d : Code) (wide : Bool)
    (val : W64) :
    s.SameBut Warp.SameButIssue (e.complete x g (e.wResult unit lat d wide val (e.enter s))) e.c e.w :=
  e.complete_put_same ..

theorem Env.complete_floatResult_same (e : Env) (x : Cost) (g : Guard) (s : State) (unit lat : Nat) (regs : List Nat)
    (nf : Bool) (f : Nat → W32 → List W32 × Nat × W32) :
    s.SameBut Warp.SameButDraw (e.complete x g (e.floatResult unit lat regs nf f (e.enter s))) e.c e.w :=
  e.issue_same Warp.SameButDraw.frame Warp.SameButIssue.draw _ _ (e.floatResult_same ..)

/-! ## Warps after a trap's steps -/

/-- A lookup in a map changed entry by entry. -/
theorem KMap.find?_map {α : Type} (f : α → α) : ∀ (m : KMap α) (k : Nat), KMap.find? (m.map (fun p => (p.1, f p.2))) k = (KMap.find? m k).map f
  | [], k => rfl
  | (j, x) :: m, k => by
    simp only [List.map_cons, KMap.find?]
    split
    · rfl
    · exact KMap.find?_map f m k

theorem Core.withdraw_warps (k : Core) (w : Nat) (alt : Bool) (r : Nat) : (k.withdraw w alt r).warps = k.warps := by
  unfold Core.withdraw Core.modBlock
  dsimp only
  split <;> rfl

/-- Withdrawing a warp's requests changes no warp. -/
theorem State.withdraw_warps (s : State) (c w : Nat) (alt : Bool) (r d : Nat) : ((s.withdraw c w alt r).core d).warps = (s.core d).warps := by
  have hu : ((s.modCore c (fun k => k.withdraw w alt r)).core d).warps = (s.core d).warps := by
    by_cases hd : d = c
    · subst hd; rw [State.modCore_core, Core.withdraw_warps]
    · rw [State.modCore_core_other _ _ _ _ hd]
  unfold State.withdraw
  dsimp only
  generalize s.modCore c (fun k => k.withdraw w alt r) = u at *
  rw [← hu]
  simp only [State.core]
  rw [KMap.find?_map (fun k : Core => { k with promo := k.promo.filter (fun x => !(x.src == c && x.warp == w && x.alt == alt)) })]
  cases KMap.find? u.cores d <;> rfl

/-- What lands at a block leaves the warps. -/
@[simp] theorem Core.landBlock_warps (k : Core) (w : Nat) (r : Result) : (k.landBlock w r).warps = k.warps := by
  unfold Core.landBlock
  split
  · exact Core.modBlock_warps _ _ _
  · rfl

/-- A path that goes on leaves everything of its core but the warps. -/
@[simp] theorem State.wake_mx (s : State) (c w : Nat) (alt : Bool) : ((s.wake c w alt).core c).mx = (s.core c).mx := by
  simp [State.wake, State.modPath, State.modWarp]
@[simp] theorem State.wake_blocks (s : State) (c w : Nat) (alt : Bool) : ((s.wake c w alt).core c).blocks = (s.core c).blocks := by
  simp [State.wake, State.modPath, State.modWarp]

/-- A warp that is there, after it is changed. -/
theorem State.modWarp_find {s : State} {c w : Nat} {x : Warp} {f : Warp → Warp} (h : (s.core c).warps.find? w = some x) :
    ((s.modWarp c w f).core c).warps.find? w = some (f x) := by
  simp only [State.modWarp, State.modCore_core, Core.modWarp, h]
  exact KMap.find?_put_same _ _ _

theorem State.modStrand_warps (s : State) (c : Nat) (f : Strand → Strand) : ((s.modStrand c f).core c).warps = (s.core c).warps := by
  simp only [State.modStrand, State.modCore_core]


end Sys2Proof.Machine
end

