-- ==== Sys2Proof/Laws/PerInstr.lean ====
section
/-! SUPPORT. Decoding the encoding of a well-formed instruction gives it back, one lemma for each constructor
of Instr; an event has no words. -/

set_option Elab.async false

namespace Sys2Proof

/-- A two-source trigger word decodes through its table (R27). -/
theorem decode_f2 (u : BitVec 3) (o : BitVec 6) (f : F2) (i : Instr) (hu : u ≠ 3)
    (hn : ∀ g, trig3 u.toNat o.toNat g = none) (h : trig2 u.toNat o.toNat f = some i) (hw : i.wf = true) :
    decode (f.word u o) = .ok i := by
  obtain ⟨hk, h1, h2, h3⟩ := F2.word_fields u o f
  have hu' : u.toNat ≠ 3 := fun e => hu (BitVec.eq_of_toNat_eq e)
  simp [decode, decodeTrigger, hk, h1, h2, h3, hn, h, hu', checked, hw]

/-- A three-source trigger word decodes through its table (R27). -/
theorem decode_f3 (u : BitVec 3) (o : BitVec 6) (f : F3) (i : Instr) (hu : u ≠ 3)
    (h : trig3 u.toNat o.toNat f = some i) (hw : i.wf = true) : decode (f.word u o) = .ok i := by
  obtain ⟨hk, h1, h2, h3, h4⟩ := F3.word_fields u o f
  have hu' : u.toNat ≠ 3 := fun e => hu (BitVec.eq_of_toNat_eq e)
  simp [decode, decodeTrigger, hk, h1, h2, h3, h4, h, hu', checked, hw]

/-- An immediate word decodes through its table (R27). -/
theorem decode_fi (u : BitVec 3) (o : BitVec 6) (f : FI) (i : Instr) (hu : u ≠ 3)
    (h : imm u.toNat o.toNat f = some i) (hw : i.wf = true) : decode (f.word u o) = .ok i := by
  obtain ⟨hk, h1, h2, h3⟩ := FI.word_fields u o f
  have hu' : u.toNat ≠ 3 := fun e => hu (BitVec.eq_of_toNat_eq e)
  simp [decode, hk, h1, h2, h3, h, hu', checked, hw]

/-- An LS trigger word decodes through its table (R27). -/
theorem decode_l2 (o : BitVec 6) (f : L2) (i : Instr) (hn : ∀ g, lsL3 o.toNat g = none)
    (h : lsL2 o.toNat f = some i) (hw : i.wf = true) : decode (f.word 3 o) = .ok i := by
  obtain ⟨hk, h1, h2, h3, h4⟩ := L2.word_fields 3 o f
  generalize f.word 3 o = w at *
  simp [decode, decodeTrigger, hk, h1, h2, h3, h4, hn, h, checked, hw]

/-- An LS three-source word decodes through its table (R27). -/
theorem decode_l3 (o : BitVec 6) (f : L3) (i : Instr)
    (h : lsL3 o.toNat f = some i) (hw : i.wf = true) : decode (f.word 3 o) = .ok i := by
  obtain ⟨hk, h1, h2, h3, h4⟩ := L3.word_fields 3 o f
  generalize f.word 3 o = w at *
  simp [decode, decodeTrigger, hk, h1, h2, h3, h4, h, checked, hw]

/-- An LS immediate word decodes through its table (R27). -/
theorem decode_li (o : BitVec 6) (f : LI) (i : Instr)
    (h : lsLI o.toNat f = some i) (hw : i.wf = true) : decode (f.word 3 o) = .ok i := by
  obtain ⟨hk, h1, h2, h3⟩ := LI.word_fields 3 o f
  generalize f.word 3 o = w at *
  simp [decode, hk, h1, h2, h3, h, checked, hw]

/-- A control word decodes through its table (R27). -/
theorem decode_fc (o : BitVec 6) (f : FC) (i : Instr)
    (h : sqFC o.toNat f = some i) (hw : i.wf = true) : decode (f.word 4 o) = .ok i := by
  obtain ⟨hk, h1, h2, h3, h4⟩ := FC.word_fields 4 o f
  generalize f.word 4 o = w at *
  simp [decode, hk, h1, h2, h3, h4, h, checked, hw]

/-- A move word (R27). -/
theorem decode_mv (f : MV) (hw : f.ok = true) : decode f.word = .ok (.mov f) := by
  obtain ⟨hk, h1, h2, h3⟩ := MV.word_fields f
  simp [decode, hk, h1, h2, h3, checked, Instr.wf, hw]

theorem F2.mod_eq {k : Nat} {d a b : Bool} {am : AmodUse} {r : Nat} {n : Bool} {f : F2}
    (h : f.ok [k] d a b am r n = true) : f.mod.toNat = k := by
  simp [F2.ok] at h; tauto

theorem F3.mod_eq {k r : Nat} {n : Bool} {f : F3} (h : f.ok [k] r n = true) : f.mod.toNat = k := by
  simp [F3.ok] at h; tauto

theorem FI.mod_eq {k : Nat} {d a n : Bool} {f : FI} (h : f.ok [k] d a n = true) : f.mod.toNat = k := by
  simp [FI.ok] at h; tauto

theorem L2.mod_eq {k : Nat} {d a b : Bool} {u : SpaceUse} {f : L2} (h : f.ok [k] d a b u = true) :
    f.mod.toNat = k := by
  simp [L2.ok] at h; tauto

theorem FC.mod_eq {k : Nat} {a l : Bool} {f : FC} (h : f.ok [k] a l = true) : f.mod.toNat = k := by
  simp [FC.ok] at h; tauto

namespace Laws.RoundTrip

/-- Decoding what a well-formed instruction encodes to gives the instruction back; an event has no words. -/
def Statement (i : Instr) : Prop :=
  i.wf = true →
    match encode i with
    | [] => i.isInstruction = false
    | [w] => decode w = .ok i
    | h :: sl => decodeBundle h sl = .ok i

theorem mov (f : MV) : Statement (.mov f) := fun h => decode_mv f h

theorem bundle (h : W64) (sl : List W64) : Statement (.bundle h sl) := by
  intro hw
  match sl, hw with
  | x :: y, hw => simp [encode, decodeBundle, hw]
  | [], hw => simp [Instr.wf] at hw

theorem iadd (f : F2) : Statement (.iadd f) := by
  exact fun h => decode_f2 0 0 f _ (by decide) (fun _ => rfl) rfl h

theorem iaddI (f : FI) : Statement (.iaddI f) := by
  exact fun h => decode_fi 0 0 f _ (by decide) rfl h

theorem isub (f : F2) : Statement (.isub f) := by
  exact fun h => decode_f2 0 1 f _ (by decide) (fun _ => rfl) rfl h

theorem isubI (f : FI) : Statement (.isubI f) := by
  exact fun h => decode_fi 0 1 f _ (by decide) rfl h

theorem imul (f : F2) : Statement (.imul f) := by
  exact fun h => decode_f2 0 2 f _ (by decide) (fun _ => rfl) rfl h

theorem imulI (f : FI) : Statement (.imulI f) := by
  exact fun h => decode_fi 0 2 f _ (by decide) rfl h

theorem imulh (f : F2) : Statement (.imulh f) := by
  exact fun h => decode_f2 0 3 f _ (by decide) (fun _ => rfl) rfl h

theorem imulhI (f : FI) : Statement (.imulhI f) := by
  exact fun h => decode_fi 0 3 f _ (by decide) rfl h

theorem imad (f : F3) : Statement (.imad f) := by
  exact fun h => decode_f3 0 4 f _ (by decide) rfl h

theorem idiv (f : F2) : Statement (.idiv f) := by
  exact fun h => decode_f2 0 5 f _ (by decide) (fun _ => rfl) rfl h

theorem idivI (f : FI) : Statement (.idivI f) := by
  exact fun h => decode_fi 0 5 f _ (by decide) rfl h

theorem irem (f : F2) : Statement (.irem f) := by
  exact fun h => decode_f2 0 6 f _ (by decide) (fun _ => rfl) rfl h

theorem iremI (f : FI) : Statement (.iremI f) := by
  exact fun h => decode_fi 0 6 f _ (by decide) rfl h

theorem imin (f : F2) : Statement (.imin f) := by
  exact fun h => decode_f2 0 7 f _ (by decide) (fun _ => rfl) rfl h

theorem iminI (f : FI) : Statement (.iminI f) := by
  exact fun h => decode_fi 0 7 f _ (by decide) rfl h

theorem imax (f : F2) : Statement (.imax f) := by
  exact fun h => decode_f2 0 8 f _ (by decide) (fun _ => rfl) rfl h

theorem imaxI (f : FI) : Statement (.imaxI f) := by
  exact fun h => decode_fi 0 8 f _ (by decide) rfl h

theorem iabs (f : F2) : Statement (.iabs f) := by
  exact fun h => decode_f2 0 9 f _ (by decide) (fun _ => rfl) rfl h

theorem ineg (f : F2) : Statement (.ineg f) := by
  exact fun h => decode_f2 0 10 f _ (by decide) (fun _ => rfl) rfl h

theorem iadds (f : F2) : Statement (.iadds f) := by
  exact fun h => decode_f2 0 11 f _ (by decide) (fun _ => rfl) rfl h

theorem iaddsI (f : FI) : Statement (.iaddsI f) := by
  exact fun h => decode_fi 0 11 f _ (by decide) rfl h

theorem isad (f : F3) : Statement (.isad f) := by
  exact fun h => decode_f3 0 12 f _ (by decide) rfl h

theorem idot4 (f : F3) : Statement (.idot4 f) := by
  exact fun h => decode_f3 0 13 f _ (by decide) rfl h

theorem and (f : F2) : Statement (.and f) := by
  exact fun h => decode_f2 0 16 f _ (by decide) (fun _ => rfl) rfl h

theorem andI (f : FI) : Statement (.andI f) := by
  exact fun h => decode_fi 0 16 f _ (by decide) rfl h

theorem or (f : F2) : Statement (.or f) := by
  exact fun h => decode_f2 0 17 f _ (by decide) (fun _ => rfl) rfl h

theorem orI (f : FI) : Statement (.orI f) := by
  exact fun h => decode_fi 0 17 f _ (by decide) rfl h

theorem xor (f : F2) : Statement (.xor f) := by
  exact fun h => decode_f2 0 18 f _ (by decide) (fun _ => rfl) rfl h

theorem xorI (f : FI) : Statement (.xorI f) := by
  exact fun h => decode_fi 0 18 f _ (by decide) rfl h

theorem andn (f : F2) : Statement (.andn f) := by
  exact fun h => decode_f2 0 19 f _ (by decide) (fun _ => rfl) rfl h

theorem andnI (f : FI) : Statement (.andnI f) := by
  exact fun h => decode_fi 0 19 f _ (by decide) rfl h

theorem not (f : F2) : Statement (.not f) := by
  exact fun h => decode_f2 0 20 f _ (by decide) (fun _ => rfl) rfl h

theorem shl (f : F2) : Statement (.shl f) := by
  exact fun h => decode_f2 0 21 f _ (by decide) (fun _ => rfl) rfl h

theorem shlI (f : FI) : Statement (.shlI f) := by
  exact fun h => decode_fi 0 21 f _ (by decide) rfl h

theorem shr (f : F2) : Statement (.shr f) := by
  exact fun h => decode_f2 0 22 f _ (by decide) (fun _ => rfl) rfl h

theorem shrI (f : FI) : Statement (.shrI f) := by
  exact fun h => decode_fi 0 22 f _ (by decide) rfl h

theorem sar (f : F2) : Statement (.sar f) := by
  exact fun h => decode_f2 0 23 f _ (by decide) (fun _ => rfl) rfl h

theorem sarI (f : FI) : Statement (.sarI f) := by
  exact fun h => decode_fi 0 23 f _ (by decide) rfl h

theorem rotl (f : F2) : Statement (.rotl f) := by
  exact fun h => decode_f2 0 24 f _ (by decide) (fun _ => rfl) rfl h

theorem rotlI (f : FI) : Statement (.rotlI f) := by
  exact fun h => decode_fi 0 24 f _ (by decide) rfl h

theorem funnel (f : F3) : Statement (.funnel f) := by
  exact fun h => decode_f3 0 25 f _ (by decide) rfl h

theorem bfx (f : F3) : Statement (.bfx f) := by
  exact fun h => decode_f3 0 26 f _ (by decide) rfl h

theorem bfi (f : F3) : Statement (.bfi f) := by
  exact fun h => decode_f3 0 27 f _ (by decide) rfl h

theorem popc (f : F2) : Statement (.popc f) := by
  exact fun h => decode_f2 0 28 f _ (by decide) (fun _ => rfl) rfl h

theorem clz (f : F2) : Statement (.clz f) := by
  exact fun h => decode_f2 0 29 f _ (by decide) (fun _ => rfl) rfl h

theorem ctz (f : F2) : Statement (.ctz f) := by
  exact fun h => decode_f2 0 30 f _ (by decide) (fun _ => rfl) rfl h

theorem brev (f : F2) : Statement (.brev f) := by
  exact fun h => decode_f2 0 31 f _ (by decide) (fun _ => rfl) rfl h

theorem bshuf (f : F3) : Statement (.bshuf f) := by
  exact fun h => decode_f3 0 32 f _ (by decide) rfl h

theorem lea (f : F2) : Statement (.lea f) := by
  exact fun h => decode_f2 0 33 f _ (by decide) (fun _ => rfl) rfl h

theorem leaI (f : FI) : Statement (.leaI f) := by
  exact fun h => decode_fi 0 33 f _ (by decide) rfl h

theorem icmp (f : F2) : Statement (.icmp f) := by
  exact fun h => decode_f2 0 34 f _ (by decide) (fun _ => rfl) rfl h

theorem icmpI (f : FI) : Statement (.icmpI f) := by
  exact fun h => decode_fi 0 34 f _ (by decide) rfl h

theorem isel (f : F3) : Statement (.isel f) := by
  exact fun h => decode_f3 0 35 f _ (by decide) rfl h

theorem plop (f : F2) : Statement (.plop f) := by
  exact fun h => decode_f2 0 36 f _ (by decide) (fun _ => rfl) rfl h

theorem movh (f : F2) : Statement (.movh f) := by
  exact fun h => decode_f2 0 37 f _ (by decide) (fun _ => rfl) rfl h

theorem movhI (f : FI) : Statement (.movhI f) := by
  intro h
  have m : f.mod.toNat = _ := FI.mod_eq h
  exact decode_fi 0 37 f _ (by decide) (by simp [imm, iuFI, m]) h

theorem movi (f : FI) : Statement (.movi f) := by
  intro h
  have m : f.mod.toNat = _ := FI.mod_eq h
  exact decode_fi 0 37 f _ (by decide) (by simp [imm, iuFI, m]) h

theorem vote (f : F2) : Statement (.vote f) := by
  exact fun h => decode_f2 0 38 f _ (by decide) (fun _ => rfl) rfl h

theorem rdlane (f : F2) : Statement (.rdlane f) := by
  exact fun h => decode_f2 0 39 f _ (by decide) (fun _ => rfl) rfl h

theorem rdlaneI (f : FI) : Statement (.rdlaneI f) := by
  exact fun h => decode_fi 0 39 f _ (by decide) rfl h

theorem find1 (f : F2) : Statement (.find1 f) := by
  exact fun h => decode_f2 0 40 f _ (by decide) (fun _ => rfl) rfl h

theorem cvti (f : F2) : Statement (.cvti f) := by
  exact fun h => decode_f2 0 41 f _ (by decide) (fun _ => rfl) rfl h

theorem iredw (f : F2) : Statement (.iredw f) := by
  exact fun h => decode_f2 0 42 f _ (by decide) (fun _ => rfl) rfl h

theorem clamp (f : F3) : Statement (.clamp f) := by
  exact fun h => decode_f3 0 43 f _ (by decide) rfl h

theorem fadd (f : F2) : Statement (.fadd f) := by
  exact fun h => decode_f2 1 0 f _ (by decide) (fun _ => rfl) rfl h

theorem faddI (f : FI) : Statement (.faddI f) := by
  exact fun h => decode_fi 1 0 f _ (by decide) rfl h

theorem fsub (f : F2) : Statement (.fsub f) := by
  exact fun h => decode_f2 1 1 f _ (by decide) (fun _ => rfl) rfl h

theorem fsubI (f : FI) : Statement (.fsubI f) := by
  exact fun h => decode_fi 1 1 f _ (by decide) rfl h

theorem fmul (f : F2) : Statement (.fmul f) := by
  exact fun h => decode_f2 1 2 f _ (by decide) (fun _ => rfl) rfl h

theorem fmulI (f : FI) : Statement (.fmulI f) := by
  exact fun h => decode_fi 1 2 f _ (by decide) rfl h

theorem ffma (f : F3) : Statement (.ffma f) := by
  exact fun h => decode_f3 1 3 f _ (by decide) rfl h

theorem fnma (f : F3) : Statement (.fnma f) := by
  exact fun h => decode_f3 1 4 f _ (by decide) rfl h

theorem fmin (f : F2) : Statement (.fmin f) := by
  exact fun h => decode_f2 1 5 f _ (by decide) (fun _ => rfl) rfl h

theorem fminI (f : FI) : Statement (.fminI f) := by
  exact fun h => decode_fi 1 5 f _ (by decide) rfl h

theorem fmax (f : F2) : Statement (.fmax f) := by
  exact fun h => decode_f2 1 6 f _ (by decide) (fun _ => rfl) rfl h

theorem fmaxI (f : FI) : Statement (.fmaxI f) := by
  exact fun h => decode_fi 1 6 f _ (by decide) rfl h

theorem fabs (f : F2) : Statement (.fabs f) := by
  exact fun h => decode_f2 1 7 f _ (by decide) (fun _ => rfl) rfl h

theorem fneg (f : F2) : Statement (.fneg f) := by
  exact fun h => decode_f2 1 8 f _ (by decide) (fun _ => rfl) rfl h

theorem fcmp (f : F2) : Statement (.fcmp f) := by
  exact fun h => decode_f2 1 9 f _ (by decide) (fun _ => rfl) rfl h

theorem fcmpI (f : FI) : Statement (.fcmpI f) := by
  exact fun h => decode_fi 1 9 f _ (by decide) rfl h

theorem fclass (f : F2) : Statement (.fclass f) := by
  exact fun h => decode_f2 1 10 f _ (by decide) (fun _ => rfl) rfl h

theorem frint (f : F2) : Statement (.frint f) := by
  exact fun h => decode_f2 1 11 f _ (by decide) (fun _ => rfl) rfl h

theorem fcvt (f : F2) : Statement (.fcvt f) := by
  exact fun h => decode_f2 1 12 f _ (by decide) (fun _ => rfl) rfl h

theorem f2i (f : F2) : Statement (.f2i f) := by
  exact fun h => decode_f2 1 13 f _ (by decide) (fun _ => rfl) rfl h

theorem i2f (f : F2) : Statement (.i2f f) := by
  exact fun h => decode_f2 1 14 f _ (by decide) (fun _ => rfl) rfl h

theorem fdot2 (f : F3) : Statement (.fdot2 f) := by
  exact fun h => decode_f3 1 15 f _ (by decide) rfl h

theorem fredw (f : F2) : Statement (.fredw f) := by
  exact fun h => decode_f2 1 16 f _ (by decide) (fun _ => rfl) rfl h

theorem fsetmode (f : F2) : Statement (.fsetmode f) := by
  exact fun h => decode_f2 1 17 f _ (by decide) (fun _ => rfl) rfl h

theorem fgetmode (f : F2) : Statement (.fgetmode f) := by
  exact fun h => decode_f2 1 18 f _ (by decide) (fun _ => rfl) rfl h

theorem fflags (f : F2) : Statement (.fflags f) := by
  intro h
  have m : f.mod.toNat = _ := F2.mod_eq h
  exact decode_f2 1 19 f _ (by decide) (fun _ => rfl) (by simp [trig2, fuF2, m]) h

theorem fflagsClr (f : F2) : Statement (.fflagsClr f) := by
  intro h
  have m : f.mod.toNat = _ := F2.mod_eq h
  exact decode_f2 1 19 f _ (by decide) (fun _ => rfl) (by simp [trig2, fuF2, m]) h

theorem fscale (f : F2) : Statement (.fscale f) := by
  exact fun h => decode_f2 1 20 f _ (by decide) (fun _ => rfl) rfl h

theorem fscaleI (f : FI) : Statement (.fscaleI f) := by
  exact fun h => decode_fi 1 20 f _ (by decide) rfl h

theorem rcp (f : F2) : Statement (.rcp f) := by
  exact fun h => decode_f2 2 0 f _ (by decide) (fun _ => rfl) rfl h

theorem rsq (f : F2) : Statement (.rsq f) := by
  exact fun h => decode_f2 2 1 f _ (by decide) (fun _ => rfl) rfl h

theorem sqrt (f : F2) : Statement (.sqrt f) := by
  exact fun h => decode_f2 2 2 f _ (by decide) (fun _ => rfl) rfl h

theorem ex2 (f : F2) : Statement (.ex2 f) := by
  exact fun h => decode_f2 2 3 f _ (by decide) (fun _ => rfl) rfl h

theorem lg2 (f : F2) : Statement (.lg2 f) := by
  exact fun h => decode_f2 2 4 f _ (by decide) (fun _ => rfl) rfl h

theorem sinpi (f : F2) : Statement (.sinpi f) := by
  exact fun h => decode_f2 2 5 f _ (by decide) (fun _ => rfl) rfl h

theorem cospi (f : F2) : Statement (.cospi f) := by
  exact fun h => decode_f2 2 6 f _ (by decide) (fun _ => rfl) rfl h

theorem tanh (f : F2) : Statement (.tanh f) := by
  exact fun h => decode_f2 2 7 f _ (by decide) (fun _ => rfl) rfl h

theorem sigm (f : F2) : Statement (.sigm f) := by
  exact fun h => decode_f2 2 8 f _ (by decide) (fun _ => rfl) rfl h

theorem fdiv (f : F2) : Statement (.fdiv f) := by
  exact fun h => decode_f2 2 9 f _ (by decide) (fun _ => rfl) rfl h

theorem ld (f : L2) : Statement (.ld f) := by
  exact fun h => decode_l2 0 f _ (fun _ => rfl) rfl h

theorem ldI (f : LI) : Statement (.ldI f) := by
  exact fun h => decode_li 0 f _ rfl h

theorem st (f : L2) : Statement (.st f) := by
  exact fun h => decode_l2 1 f _ (fun _ => rfl) rfl h

theorem stI (f : LI) : Statement (.stI f) := by
  exact fun h => decode_li 1 f _ rfl h

theorem ldw (f : L2) : Statement (.ldw f) := by
  exact fun h => decode_l2 2 f _ (fun _ => rfl) rfl h

theorem ldwI (f : LI) : Statement (.ldwI f) := by
  exact fun h => decode_li 2 f _ rfl h

theorem ldAcq (f : L2) : Statement (.ldAcq f) := by
  exact fun h => decode_l2 3 f _ (fun _ => rfl) rfl h

theorem ldAcqI (f : LI) : Statement (.ldAcqI f) := by
  exact fun h => decode_li 3 f _ rfl h

theorem stRel (f : L2) : Statement (.stRel f) := by
  exact fun h => decode_l2 4 f _ (fun _ => rfl) rfl h

theorem stRelI (f : LI) : Statement (.stRelI f) := by
  exact fun h => decode_li 4 f _ rfl h

theorem atom (f : L2) : Statement (.atom f) := by
  exact fun h => decode_l2 5 f _ (fun _ => rfl) rfl h

theorem cas (f : L3) : Statement (.cas f) := by
  exact fun h => decode_l3 6 f _ rfl h

theorem red (f : L2) : Statement (.red f) := by
  exact fun h => decode_l2 7 f _ (fun _ => rfl) rfl h

theorem atomX (f : L2) : Statement (.atomX f) := by
  exact fun h => decode_l2 8 f _ (fun _ => rfl) rfl h

theorem casX (f : L3) : Statement (.casX f) := by
  exact fun h => decode_l3 9 f _ rfl h

theorem fenceFull (f : L2) : Statement (.fenceFull f) := by
  intro h
  have m : f.mod.toNat = _ := L2.mod_eq (Bool.and_eq_true_iff.mp h).1
  exact decode_l2 10 f _ (fun _ => rfl) (by simp [lsL2, m]) h

theorem fenceAcq (f : L2) : Statement (.fenceAcq f) := by
  intro h
  have m : f.mod.toNat = _ := L2.mod_eq (Bool.and_eq_true_iff.mp h).1
  exact decode_l2 10 f _ (fun _ => rfl) (by simp [lsL2, m]) h

theorem fenceRel (f : L2) : Statement (.fenceRel f) := by
  intro h
  have m : f.mod.toNat = _ := L2.mod_eq (Bool.and_eq_true_iff.mp h).1
  exact decode_l2 10 f _ (fun _ => rfl) (by simp [lsL2, m]) h

theorem fenceEng (f : L2) : Statement (.fenceEng f) := by
  intro h
  have m : f.mod.toNat = _ := L2.mod_eq (Bool.and_eq_true_iff.mp h).1
  exact decode_l2 10 f _ (fun _ => rfl) (by simp [lsL2, m]) h

theorem ldRacq (f : L2) : Statement (.ldRacq f) := by
  exact fun h => decode_l2 11 f _ (fun _ => rfl) rfl h

theorem arrive (f : L2) : Statement (.arrive f) := by
  exact fun h => decode_l2 12 f _ (fun _ => rfl) rfl h

theorem waitph (f : L2) : Statement (.waitph f) := by
  exact fun h => decode_l2 13 f _ (fun _ => rfl) rfl h

theorem tryph (f : L2) : Statement (.tryph f) := by
  exact fun h => decode_l2 14 f _ (fun _ => rfl) rfl h

theorem barinit (f : L2) : Statement (.barinit f) := by
  exact fun h => decode_l2 15 f _ (fun _ => rfl) rfl h

theorem pres (f : L2) : Statement (.pres f) := by
  exact fun h => decode_l2 16 f _ (fun _ => rfl) rfl h

theorem cctlInvl (f : L2) : Statement (.cctlInvl f) := by
  intro h
  have m : f.mod.toNat = _ := L2.mod_eq h
  exact decode_l2 17 f _ (fun _ => rfl) (by simp [lsL2, m]) h

theorem cctlInvall (f : L2) : Statement (.cctlInvall f) := by
  intro h
  have m : f.mod.toNat = _ := L2.mod_eq h
  exact decode_l2 17 f _ (fun _ => rfl) (by simp [lsL2, m]) h

theorem cctlPref (f : L2) : Statement (.cctlPref f) := by
  intro h
  have m : f.mod.toNat = _ := L2.mod_eq h
  exact decode_l2 17 f _ (fun _ => rfl) (by simp [lsL2, m]) h

theorem cctlEvf (f : L2) : Statement (.cctlEvf f) := by
  intro h
  have m : f.mod.toNat = _ := L2.mod_eq h
  exact decode_l2 17 f _ (fun _ => rfl) (by simp [lsL2, m]) h

theorem bra (f : FC) : Statement (.bra f) := by
  intro h
  have m : f.mod.toNat = _ := FC.mod_eq h
  exact decode_fc 0 f _ (by simp [sqFC, m]) h

theorem braU (f : FC) : Statement (.braU f) := by
  intro h
  have m : f.mod.toNat = _ := FC.mod_eq h
  exact decode_fc 0 f _ (by simp [sqFC, m]) h

theorem brx (f : FC) : Statement (.brx f) := by
  exact fun h => decode_fc 1 f _ rfl h

theorem call (f : FC) : Statement (.call f) := by
  exact fun h => decode_fc 2 f _ rfl h

theorem callx (f : FC) : Statement (.callx f) := by
  exact fun h => decode_fc 3 f _ rfl h

theorem ret (f : FC) : Statement (.ret f) := by
  exact fun h => decode_fc 4 f _ rfl h

theorem brk (f : FC) : Statement (.brk f) := by
  exact fun h => decode_fc 5 f _ rfl h

theorem loop (f : FC) : Statement (.loop f) := by
  intro h
  have m : f.mod.toNat = _ := FC.mod_eq (Bool.and_eq_true_iff.mp (Bool.and_eq_true_iff.mp h).1).1
  exact decode_fc 6 f _ (by simp [sqFC, m]) h

theorem loopPipe (f : FC) : Statement (.loopPipe f) := by
  intro h
  have m : f.mod.toNat = _ := FC.mod_eq (Bool.and_eq_true_iff.mp (Bool.and_eq_true_iff.mp (Bool.and_eq_true_iff.mp h).1).1).1
  exact decode_fc 6 f _ (by simp [sqFC, m]) h

theorem rotset (f : FC) : Statement (.rotset f) := by
  exact fun h => decode_fc 7 f _ rfl h

theorem modeCollapse (f : FC) : Statement (.modeCollapse f) := by
  intro h
  have m : f.mod.toNat = _ := FC.mod_eq (Bool.and_eq_true_iff.mp (Bool.and_eq_true_iff.mp h).1).1
  exact decode_fc 8 f _ (by simp [sqFC, m]) h

theorem modeExpand (f : FC) : Statement (.modeExpand f) := by
  intro h
  have m : f.mod.toNat = _ := FC.mod_eq (Bool.and_eq_true_iff.mp h).1
  exact decode_fc 8 f _ (by simp [sqFC, m]) h

theorem sync (f : FC) : Statement (.sync f) := by
  exact fun h => decode_fc 9 f _ rfl h

theorem exit (f : FC) : Statement (.exit f) := by
  exact fun h => decode_fc 10 f _ rfl h

theorem trap (f : FC) : Statement (.trap f) := by
  exact fun h => decode_fc 11 f _ rfl h

theorem eret (f : FC) : Statement (.eret f) := by
  exact fun h => decode_fc 12 f _ rfl h

theorem nop (f : FC) : Statement (.nop f) := by
  exact fun h => decode_fc 13 f _ rfl h

theorem yield (f : FC) : Statement (.yield f) := by
  exact fun h => decode_fc 14 f _ rfl h

theorem elect (f : F2) : Statement (.elect f) := by
  exact fun h => decode_f2 4 15 f _ (by decide) (fun _ => rfl) rfl h

theorem folld (f : FC) : Statement (.folld f) := by
  exact fun h => decode_fc 16 f _ rfl h

theorem folfree (f : FC) : Statement (.folfree f) := by
  exact fun h => decode_fc 17 f _ rfl h

theorem domset (f : FC) : Statement (.domset f) := by
  exact fun h => decode_fc 18 f _ rfl h

theorem mms (f : F2) : Statement (.mms f) := by
  exact fun h => decode_f2 5 0 f _ (by decide) (fun _ => rfl) rfl h

theorem mmsz (f : F2) : Statement (.mmsz f) := by
  exact fun h => decode_f2 5 1 f _ (by decide) (fun _ => rfl) rfl h

theorem mmsg (f : F2) : Statement (.mmsg f) := by
  exact fun h => decode_f2 5 2 f _ (by decide) (fun _ => rfl) rfl h

theorem accalloc (f : F2) : Statement (.accalloc f) := by
  exact fun h => decode_f2 5 3 f _ (by decide) (fun _ => rfl) rfl h

theorem accallocI (f : FI) : Statement (.accallocI f) := by
  exact fun h => decode_fi 5 3 f _ (by decide) rfl h

theorem accfree (f : F2) : Statement (.accfree f) := by
  exact fun h => decode_f2 5 4 f _ (by decide) (fun _ => rfl) rfl h

theorem accfreeI (f : FI) : Statement (.accfreeI f) := by
  exact fun h => decode_fi 5 4 f _ (by decide) rfl h

theorem accrd (f : F2) : Statement (.accrd f) := by
  exact fun h => decode_f2 5 5 f _ (by decide) (fun _ => rfl) rfl h

theorem accwr (f : F2) : Statement (.accwr f) := by
  exact fun h => decode_f2 5 6 f _ (by decide) (fun _ => rfl) rfl h

theorem accclr (f : F2) : Statement (.accclr f) := by
  exact fun h => decode_f2 5 7 f _ (by decide) (fun _ => rfl) rfl h

theorem fmtset (f : F2) : Statement (.fmtset f) := by
  exact fun h => decode_f2 5 8 f _ (by decide) (fun _ => rfl) rfl h

theorem fmtsetI (f : FI) : Statement (.fmtsetI f) := by
  exact fun h => decode_fi 5 8 f _ (by decide) rfl h

theorem accadd (f : F2) : Statement (.accadd f) := by
  exact fun h => decode_f2 5 9 f _ (by decide) (fun _ => rfl) rfl h

theorem copy (f : F3) : Statement (.copy f) := by
  exact fun h => decode_f3 6 0 f _ (by decide) rfl h

theorem kick (f : F2) : Statement (.kick f) := by
  exact fun h => decode_f2 6 1 f _ (by decide) (fun _ => rfl) rfl h

theorem gather (f : F3) : Statement (.gather f) := by
  exact fun h => decode_f3 6 2 f _ (by decide) rfl h

theorem scatter (f : F3) : Statement (.scatter f) := by
  intro h
  have m : f.mod.toNat = _ := F3.mod_eq h
  exact decode_f3 6 3 f _ (by decide) (by simp [trig3, aeF3, m]) h

theorem scatterAdd (f : F3) : Statement (.scatterAdd f) := by
  intro h
  have m : f.mod.toNat = _ := F3.mod_eq h
  exact decode_f3 6 3 f _ (by decide) (by simp [trig3, aeF3, m]) h

theorem pfl2 (f : F2) : Statement (.pfl2 f) := by
  intro h
  have m : f.mod.toNat = _ := F2.mod_eq h
  exact decode_f2 6 4 f _ (by decide) (fun _ => rfl) (by simp [trig2, aeF2, m]) h

theorem pfl2Tok (f : F2) : Statement (.pfl2Tok f) := by
  intro h
  have m : f.mod.toNat = _ := F2.mod_eq h
  exact decode_f2 6 4 f _ (by decide) (fun _ => rfl) (by simp [trig2, aeF2, m]) h

theorem cstat (f : F2) : Statement (.cstat f) := by
  exact fun h => decode_f2 6 5 f _ (by decide) (fun _ => rfl) rfl h

theorem seedtry (f : F3) : Statement (.seedtry f) := by
  exact fun h => decode_f3 6 32 f _ (by decide) rfl h

theorem seedscan (f : F3) : Statement (.seedscan f) := by
  exact fun h => decode_f3 6 33 f _ (by decide) rfl h

theorem fit (f : F2) : Statement (.fit f) := by
  exact fun h => decode_f2 6 34 f _ (by decide) (fun _ => rfl) rfl h

theorem proj (f : F2) : Statement (.proj f) := by
  exact fun h => decode_f2 6 35 f _ (by decide) (fun _ => rfl) rfl h

theorem mgen (f : F2) : Statement (.mgen f) := by
  exact fun h => decode_f2 6 36 f _ (by decide) (fun _ => rfl) rfl h

theorem mstat (f : F2) : Statement (.mstat f) := by
  exact fun h => decode_f2 6 37 f _ (by decide) (fun _ => rfl) rfl h

theorem xlate (f : F2) : Statement (.xlate f) := by
  exact fun h => decode_f2 7 0 f _ (by decide) (fun _ => rfl) rfl h

theorem xprobe (f : F2) : Statement (.xprobe f) := by
  exact fun h => decode_f2 7 1 f _ (by decide) (fun _ => rfl) rfl h

theorem xinvPage (f : F2) : Statement (.xinvPage f) := by
  intro h
  have m : f.mod.toNat = _ := F2.mod_eq h
  exact decode_f2 7 2 f _ (by decide) (fun _ => rfl) (by simp [trig2, syF2, m]) h

theorem xinvRange (f : F2) : Statement (.xinvRange f) := by
  intro h
  have m : f.mod.toNat = _ := F2.mod_eq h
  exact decode_f2 7 2 f _ (by decide) (fun _ => rfl) (by simp [trig2, syF2, m]) h

theorem xinvPasid (f : F2) : Statement (.xinvPasid f) := by
  intro h
  have m : f.mod.toNat = _ := F2.mod_eq h
  exact decode_f2 7 2 f _ (by decide) (fun _ => rfl) (by simp [trig2, syF2, m]) h

theorem xinvAll (f : F2) : Statement (.xinvAll f) := by
  intro h
  have m : f.mod.toNat = _ := F2.mod_eq h
  exact decode_f2 7 2 f _ (by decide) (fun _ => rfl) (by simp [trig2, syF2, m]) h

theorem xflush (f : F2) : Statement (.xflush f) := by
  exact fun h => decode_f2 7 3 f _ (by decide) (fun _ => rfl) rfl h

theorem pclass (f : F2) : Statement (.pclass f) := by
  exact fun h => decode_f2 7 16 f _ (by decide) (fun _ => rfl) rfl h

theorem pclassI (f : FI) : Statement (.pclassI f) := by
  exact fun h => decode_fi 7 16 f _ (by decide) rfl h

theorem opsel (f : F2) : Statement (.opsel f) := by
  exact fun h => decode_f2 7 17 f _ (by decide) (fun _ => rfl) rfl h

theorem opselI (f : FI) : Statement (.opselI f) := by
  exact fun h => decode_fi 7 17 f _ (by decide) rfl h

theorem grant (f : F2) : Statement (.grant f) := by
  exact fun h => decode_f2 7 18 f _ (by decide) (fun _ => rfl) rfl h

theorem tmark (f : F2) : Statement (.tmark f) := by
  exact fun h => decode_f2 7 32 f _ (by decide) (fun _ => rfl) rfl h

theorem tmarkI (f : FI) : Statement (.tmarkI f) := by
  exact fun h => decode_fi 7 32 f _ (by decide) rfl h

theorem bkpt (f : F2) : Statement (.bkpt f) := by
  exact fun h => decode_f2 7 33 f _ (by decide) (fun _ => rfl) rfl h

theorem bkptI (f : FI) : Statement (.bkptI f) := by
  exact fun h => decode_fi 7 33 f _ (by decide) rfl h

theorem shash (f : F2) : Statement (.shash f) := by
  exact fun h => decode_f2 7 34 f _ (by decide) (fun _ => rfl) rfl h

theorem confrd (f : F2) : Statement (.confrd f) := by
  exact fun h => decode_f2 7 35 f _ (by decide) (fun _ => rfl) rfl h

theorem rpctlOff (f : F2) : Statement (.rpctlOff f) := by
  intro h
  have m : f.mod.toNat = _ := F2.mod_eq h
  exact decode_f2 7 36 f _ (by decide) (fun _ => rfl) (by simp [trig2, syF2, m]) h

theorem rpctlRec (f : F2) : Statement (.rpctlRec f) := by
  intro h
  have m : f.mod.toNat = _ := F2.mod_eq h
  exact decode_f2 7 36 f _ (by decide) (fun _ => rfl) (by simp [trig2, syF2, m]) h

theorem rpctlReplay (f : F2) : Statement (.rpctlReplay f) := by
  intro h
  have m : f.mod.toNat = _ := F2.mod_eq h
  exact decode_f2 7 36 f _ (by decide) (fun _ => rfl) (by simp [trig2, syF2, m]) h

theorem rpctlQuery (f : F2) : Statement (.rpctlQuery f) := by
  intro h
  have m : f.mod.toNat = _ := F2.mod_eq h
  exact decode_f2 7 36 f _ (by decide) (fun _ => rfl) (by simp [trig2, syF2, m]) h

theorem qsub (f : F2) : Statement (.qsub f) := by
  exact fun h => decode_f2 7 48 f _ (by decide) (fun _ => rfl) rfl h

theorem getsp (f : F2) : Statement (.getsp f) := by
  exact fun h => decode_f2 7 49 f _ (by decide) (fun _ => rfl) rfl h

theorem setsp (f : F2) : Statement (.setsp f) := by
  exact fun h => decode_f2 7 50 f _ (by decide) (fun _ => rfl) rfl h

theorem resultLands (c : Nat) : Statement (.resultLands c) := fun _ => rfl

theorem interlockedResultReturn (c : Nat) : Statement (.interlockedResultReturn c) := fun _ => rfl

theorem linePresent (c : Nat) : Statement (.linePresent c) := fun _ => rfl

theorem requestEntryFree (c : Nat) : Statement (.requestEntryFree c) := fun _ => rfl

theorem writeBufferDrain (c : Nat) : Statement (.writeBufferDrain c) := fun _ => rfl

theorem promotionRequest (c : Nat) : Statement (.promotionRequest c) := fun _ => rfl

theorem sliceAtomic (sl : Nat) : Statement (.sliceAtomic sl) := fun _ => rfl

theorem remoteScratchAccess (c : Nat) : Statement (.remoteScratchAccess c) := fun _ => rfl

theorem warpReady (c : Nat) : Statement (.warpReady c) := fun _ => rfl

theorem loopBackEdge (c : Nat) : Statement (.loopBackEdge c) := fun _ => rfl

theorem reconvergeMerge (c : Nat) : Statement (.reconvergeMerge c) := fun _ => rfl

theorem folldComplete (c : Nat) : Statement (.folldComplete c) := fun _ => rfl

theorem collapseComplete (c : Nat) : Statement (.collapseComplete c) := fun _ => rfl

theorem expandComplete (c : Nat) : Statement (.expandComplete c) := fun _ => rfl

theorem strandFaultFreeze (c : Nat) : Statement (.strandFaultFreeze c) := fun _ => rfl

theorem strandSnapshotResume (c : Nat) : Statement (.strandSnapshotResume c) := fun _ => rfl

theorem trapEntry (c : Nat) : Statement (.trapEntry c) := fun _ => rfl

theorem asyncTrapDelivery (c : Nat) : Statement (.asyncTrapDelivery c) := fun _ => rfl

theorem kettleLineRise (l : Nat) : Statement (.kettleLineRise l) := fun _ => rfl

theorem kettleRelease (l : Nat) : Statement (.kettleRelease l) := fun _ => rfl

theorem copyAccept (c : Nat) : Statement (.copyAccept c) := fun _ => rfl

theorem kickEntryAccept (c : Nat) : Statement (.kickEntryAccept c) := fun _ => rfl

theorem copyLineMove (c : Nat) : Statement (.copyLineMove c) := fun _ => rfl

theorem copyGlobalReturn (c : Nat) : Statement (.copyGlobalReturn c) := fun _ => rfl

theorem copyBytesLand (c : Nat) : Statement (.copyBytesLand c) := fun _ => rfl

theorem requestError (c : Nat) : Statement (.requestError c) := fun _ => rfl

theorem pfl2LineDone (c : Nat) : Statement (.pfl2LineDone c) := fun _ => rfl

theorem pageWaitResume (c : Nat) : Statement (.pageWaitResume c) := fun _ => rfl

theorem mxStart (c : Nat) : Statement (.mxStart c) := fun _ => rfl

theorem mxOccupancyEnd (c : Nat) : Statement (.mxOccupancyEnd c) := fun _ => rfl

theorem mmsgRecordRead (c : Nat) : Statement (.mmsgRecordRead c) := fun _ => rfl

theorem accallocGrant (c : Nat) : Statement (.accallocGrant c) := fun _ => rfl

theorem accfreeRelease (c : Nat) : Statement (.accfreeRelease c) := fun _ => rfl

theorem accDeadlock (c : Nat) : Statement (.accDeadlock c) := fun _ => rfl

theorem mxResetEnd (c : Nat) : Statement (.mxResetEnd c) := fun _ => rfl

theorem bankTransfer (c : Nat) : Statement (.bankTransfer c) := fun _ => rfl

theorem marbleAccept (c : Nat) : Statement (.marbleAccept c) := fun _ => rfl

theorem marbleStart (c : Nat) : Statement (.marbleStart c) := fun _ => rfl

theorem marbleComplete (c : Nat) : Statement (.marbleComplete c) := fun _ => rfl

theorem candidateComplete (c : Nat) : Statement (.candidateComplete c) := fun _ => rfl

theorem scanDeadline (c : Nat) : Statement (.scanDeadline c) := fun _ => rfl

theorem qwpWrite (q : Nat) (v : W32) : Statement (.qwpWrite q v) := fun _ => rfl

theorem qctlWrite (q : Nat) (v : W32) : Statement (.qctlWrite q v) := fun _ => rfl

theorem qstatClear (q : Nat) (v : W32) : Statement (.qstatClear q v) := fun _ => rfl

theorem recordAdmit : Statement (.recordAdmit) := fun _ => rfl

theorem blockPlace (c : Nat) : Statement (.blockPlace c) := fun _ => rfl

theorem blockEnd (c : Nat) : Statement (.blockEnd c) := fun _ => rfl

theorem gridComplete : Statement (.gridComplete) := fun _ => rfl

theorem preempt (c : Nat) : Statement (.preempt c) := fun _ => rfl

theorem preemptHaltDone (c : Nat) : Statement (.preemptHaltDone c) := fun _ => rfl

theorem mxResetCmd (c : Nat) : Statement (.mxResetCmd c) := fun _ => rfl

theorem coreResetCmd (c : Nat) : Statement (.coreResetCmd c) := fun _ => rfl

theorem walk (c : Nat) : Statement (.walk c) := fun _ => rfl

theorem atsCompletion (c : Nat) (r : AtsAnswer) : Statement (.atsCompletion c r) := fun _ => rfl

theorem atsTimeout (c : Nat) : Statement (.atsTimeout c) := fun _ => rfl

theorem prgResponse (c : Nat) (r : PrgAnswer) : Statement (.prgResponse c r) := fun _ => rfl

theorem pageRequestTimeout (c : Nat) : Statement (.pageRequestTimeout c) := fun _ => rfl

theorem hostAtsInvalidate (pasid : Option Nat) (va : W64) (pages : Nat) : Statement (.hostAtsInvalidate pasid va pages) := fun _ => rfl

theorem invalidationComplete : Statement (.invalidationComplete) := fun _ => rfl

theorem hostInvPage (pasid : Nat) : Statement (.hostInvPage pasid) := fun _ => rfl

theorem hostInvRange (pasid : Nat) : Statement (.hostInvRange pasid) := fun _ => rfl

theorem hostInvPasid (pasid : Nat) : Statement (.hostInvPasid pasid) := fun _ => rfl

theorem hostInvAll : Statement (.hostInvAll) := fun _ => rfl

theorem hostHostAccess (peer : Bool) (op : OuterOp) (pa : Nat) : Statement (.hostHostAccess peer op pa) := fun _ => rfl

theorem hostCompletionError (c : Nat) : Statement (.hostCompletionError c) := fun _ => rfl

theorem peerLoss (c : Nat) : Statement (.peerLoss c) := fun _ => rfl

theorem cgrantWrite (c : Nat) (v : W64) : Statement (.cgrantWrite c v) := fun _ => rfl

theorem settleComplete (c : Nat) : Statement (.settleComplete c) := fun _ => rfl

theorem governedStall (c : Nat) : Statement (.governedStall c) := fun _ => rfl

theorem slewStep : Statement (.slewStep) := fun _ => rfl

theorem slewGrant (c : Nat) : Statement (.slewGrant c) := fun _ => rfl

theorem fillerEnd (c : Nat) : Statement (.fillerEnd c) := fun _ => rfl

theorem slewWrite (g : Nat) (hi : Bool) (isCtl : Bool) (v : W32) : Statement (.slewWrite g hi isCtl v) := fun _ => rfl

theorem hangTimeout (c : Nat) : Statement (.hangTimeout c) := fun _ => rfl

theorem mxhangTimeout (c : Nat) : Statement (.mxhangTimeout c) := fun _ => rfl

theorem wstatClear (c : Nat) (v : W32) : Statement (.wstatClear c v) := fun _ => rfl

theorem stopArmCycle (c : Nat) (v : W32) : Statement (.stopArmCycle c v) := fun _ => rfl

theorem stopArmCount (c : Nat) (v : W32) : Statement (.stopArmCount c v) := fun _ => rfl

theorem stopDisarm (c : Nat) (v : W32) : Statement (.stopDisarm c v) := fun _ => rfl

theorem stopResume (c : Nat) : Statement (.stopResume c) := fun _ => rfl

theorem preciseStop (c : Nat) : Statement (.preciseStop c) := fun _ => rfl

theorem sample (c : Nat) : Statement (.sample c) := fun _ => rfl

theorem bcmClear (c : Nat) : Statement (.bcmClear c) := fun _ => rfl

theorem divergedClear (c : Nat) : Statement (.divergedClear c) := fun _ => rfl

theorem obsctlWrite (c : Nat) (v : W32) : Statement (.obsctlWrite c v) := fun _ => rfl

theorem headbandFlush : Statement (.headbandFlush) := fun _ => rfl

theorem headbandEnable (en : Bool) : Statement (.headbandEnable en) := fun _ => rfl

theorem dropCountEmit : Statement (.dropCountEmit) := fun _ => rfl

theorem losslessRoom : Statement (.losslessRoom) := fun _ => rfl

theorem timeSync : Statement (.timeSync) := fun _ => rfl

theorem rpmodeOff (sl : Nat) : Statement (.rpmodeOff sl) := fun _ => rfl

theorem rpmodeRecord (sl : Nat) : Statement (.rpmodeRecord sl) := fun _ => rfl

theorem rpmodeReplay (sl : Nat) : Statement (.rpmodeReplay sl) := fun _ => rfl

theorem rlogPartialFlush (sl : Nat) : Statement (.rlogPartialFlush sl) := fun _ => rfl

theorem gateTimeout (sl : Nat) : Statement (.gateTimeout sl) := fun _ => rfl

theorem shashRetire (c : Nat) : Statement (.shashRetire c) := fun _ => rfl

theorem pressPinAssert : Statement (.pressPinAssert) := fun _ => rfl

theorem pressPinDeassert : Statement (.pressPinDeassert) := fun _ => rfl

theorem pressCmd : Statement (.pressCmd) := fun _ => rfl

theorem pressReleaseCmd : Statement (.pressReleaseCmd) := fun _ => rfl

theorem pressEdge : Statement (.pressEdge) := fun _ => rfl

theorem pressReleaseEdge : Statement (.pressReleaseEdge) := fun _ => rfl

theorem dramRefresh (stk : Nat) : Statement (.dramRefresh stk) := fun _ => rfl

theorem eccScrubForced (stk : Nat) : Statement (.eccScrubForced stk) := fun _ => rfl

theorem powerOn (err : Nat) : Statement (.powerOn err) := fun _ => rfl

theorem warmReset (memKept : Bool) (err : Nat) : Statement (.warmReset memKept err) := fun _ => rfl

theorem attestGo : Statement (.attestGo) := fun _ => rfl

theorem attestDone : Statement (.attestDone) := fun _ => rfl

theorem controlRegisterWrite (off : Nat) (v : CtlWrite) : Statement (.controlRegisterWrite off v) := fun _ => rfl

theorem qsubRecordWritten (q : Nat) : Statement (.qsubRecordWritten q) := fun _ => rfl

theorem configurationSpaceWrite (pasidEn atsEn priEn : Bool) : Statement (.configurationSpaceWrite pasidEn atsEn priEn) := fun _ => rfl

theorem powerLoss : Statement (.powerLoss) := fun _ => rfl

end Laws.RoundTrip

end Sys2Proof
end

