-- ==== Sys2Proof/Laws/Stores.lean ====
section
/-! SUPPORT. Where a store goes: an access leaves every byte as it was outside the places its lanes' addresses come to, and
every byte when it stores nothing as it issues. -/

set_option Elab.async false

namespace Sys2Proof.Machine

theorem State.write_get {s : State} {a : Nat} {b : List Byte} {x : Nat} (h : x < a ∨ a + b.length ≤ x) :
    SMap.get 0 (s.write a b).mem x = SMap.get 0 s.mem x := by
  unfold State.write
  exact SMap.get_setMany_other 0 b s.mem a x h

theorem storeBytes_length (n : Nat) (l : List W32) : (storeBytes n l).length ≤ n := by
  unfold storeBytes
  rw [List.length_take]
  omega

/-- A byte that a plain store of the access does not reach. -/
def Access.Misses (a : Access) (x : Nat) (p : Place) : Prop :=
  a.kind = .store → ∀ pa t, p = .glob pa t → x < pa ∨ pa + a.n ≤ x

theorem State.performLane_get {s : State} {c w : Nat} {a : Access} {l : LaneAcc} {p : Place} {rel : Bool} {x : Nat}
    (h : a.Misses x p) : SMap.get 0 (s.performLane c w a l p rel).mem x = SMap.get 0 s.mem x := by
  unfold State.performLane
  split
  · rename_i pa t
    split
    · rw [State.loadGlobal_mem]
    · rename_i hk
      unfold State.storeGlobal
      dsimp only
      split
      · rw [State.l1Drop_mem, State.write_get]
        · rw [State.modWarp_mem, State.l2Place_mem]
        · have := h hk pa t rfl
          have := storeBytes_length a.n l.data
          omega
      · rw [State.wbPush_mem]
        split <;> simp
    · rw [State.atomGlobal_mem]
  · dsimp only
    repeat' split
    all_goals simp

theorem State.perform_get {c w : Nat} {a : Access} {rel : Bool} {x : Nat} (l : List (LaneAcc × Place)) (s : State)
    (h : ∀ p ∈ l, a.Misses x p.2) : SMap.get 0 (s.perform c w a l rel).mem x = SMap.get 0 s.mem x := by
  have hf : ∀ (l : List (LaneAcc × Place)) (s : State), (∀ p ∈ l, a.Misses x p.2) →
      SMap.get 0 (l.foldl (fun s p => s.performLane c w a p.1 p.2 rel) s).mem x = SMap.get 0 s.mem x := by
    intro l
    induction l with
    | nil => exact fun s _ => rfl
    | cons p l ih =>
      intro s h
      rw [List.foldl_cons, ih _ fun q hq => h q (List.mem_cons_of_mem _ hq), State.performLane_get (h p List.mem_cons_self)]
  rw [← hf l s h]
  unfold State.perform
  dsimp only
  generalize l.foldl (fun s p => s.performLane c w a p.1 p.2 rel) s = u
  repeat' split
  all_goals simp

theorem Env.lsDone_get {e : Env} {a : Access} {d : Option LsDest} {l : List (LaneAcc × Place)} {s : State} {x : Nat}
    (h : ∀ p ∈ l, a.Misses x p.2) : SMap.get 0 (e.lsDone a d l s).mem x = SMap.get 0 s.mem x := by
  have hp : ∀ u : State, u.mem = s.mem →
      SMap.get 0 (u.perform e.c e.w a l (e.warp.relSeq != 0)).mem x = SMap.get 0 s.mem x :=
    fun u hu => by rw [State.perform_get l u h, hu]
  have h' := hp (if a.space = 0 then e.lsLprs a (e.lsPut a d (lsLines l) s)
    else e.askBanks a l (e.lsPut a d (lsLines l) s)) (by split <;> simp)
  unfold Env.lsDone
  dsimp only
  split
  · rw [State.modPath_mem]; exact h'
  · exact h'

/-- A meaning that leaves byte x of memory m as it is. -/
def EndsOff (x : Nat) (m : SMap Byte) : Except Stop State → Prop
  | .ok t => SMap.get 0 t.mem x = SMap.get 0 m x
  | .error r => r.Keeps

theorem Ends.off {x : Nat} {m : SMap Byte} {r : Except Stop State} (h : Ends m r) : EndsOff x m r := by
  cases r with
  | ok t => exact congrArg (fun m => SMap.get 0 m x) h
  | error r => exact h

@[simp] theorem EndsOff.bind_iff {α : Type} {x : Nat} {m : SMap Byte} {r : Except Stop α} {f : α → Except Stop State} :
    EndsOff x m (r >>= f) ↔ Checks r ∧ ∀ a, r = .ok a → EndsOff x m (f a) := by
  cases r with
  | ok a => exact ⟨fun h => ⟨trivial, fun b hb => by cases hb; exact h⟩, fun h => h.2 a rfl⟩
  | error r => exact ⟨fun h => ⟨h, nofun⟩, fun h => h.1⟩

theorem lsExec_off {e : Env} {a : Access} {d : Option LsDest} {s : State} {x : Nat} (h : a.kind = .store → e.Outside a s x) :
    EndsOff x s.mem (lsExec e a d s) := by
  have hm : ∀ p ∈ meetsPlaces (e.lsMeets a s), Access.Misses { a with id := s.nonce } x p.2 :=
    fun p hp hk pa t hq => h hk p hp pa t hq
  unfold lsExec
  dsimp only
  refine EndsOff.bind_iff.2 ⟨Checks.need, fun _ _ => ?_⟩
  repeat' split
  all_goals first
    | exact Env.lsDone_get hm
    | exact Ends.off (show _ = _ by simp)
    | exact fun s => rfl
    | (intro s; simp)

/-! ## Bodies -/

/-- A meaning that leaves every byte as it was. -/
def Body.KeepsBytes (b : Body) : Prop := ∀ (e : Env) (s : State) (x : Nat), EndsOff x s.mem (b e s)

theorem Body.Keeps.bytes {b : Body} (h : b.Keeps) : b.KeepsBytes := fun e s _ => Ends.off (h e s)

theorem loadBody_bytes (mod : BitVec 3) (space : BitVec 2) (scope hint : Nat) (acq : Bool) (d a : Code) (idx : List Opnd)
    (off : Env → Nat → W64) : (loadBody mod space scope hint acq d a idx off).KeepsBytes := by
  intro e s x
  unfold loadBody
  dsimp only
  simp only [EndsOff.bind_iff, Checks.field, Checks.sources, Checks.landed, true_and]
  intros
  split
  · rfl
  · exact lsExec_off nofun

theorem ldwBody_bytes (mod : BitVec 3) (space : BitVec 2) (scope hint : Nat) (d a : Code) (idx : List Opnd)
    (off : Env → Nat → W64) : (ldwBody mod space scope hint d a idx off).KeepsBytes := by
  intro e s x
  unfold ldwBody
  dsimp only
  simp only [EndsOff.bind_iff, Checks.field, Checks.sources, Checks.landed, Checks.dstW, Checks.notVector, true_and]
  intros
  split
  · rfl
  · exact lsExec_off nofun

theorem atomBody_bytes {kind : AccKind} (hk : kind ≠ .store) (n : Nat) (space : BitVec 2) (scope hint : Nat) (d a : Code)
    (data cmp : List Opnd) : (atomBody kind n space scope hint d a data cmp).KeepsBytes := by
  intro e s x
  unfold atomBody
  dsimp only
  simp only [EndsOff.bind_iff, Checks.field, Checks.sources, Checks.landed, true_and]
  intros
  split
  · rfl
  · exact lsExec_off fun h => absurd h hk

theorem bodyRed_bytes (f : L2) : (bodyRed f).KeepsBytes := by
  intro e s x
  unfold bodyRed
  dsimp only
  simp only [EndsOff.bind_iff, Checks.field, Checks.sources, Checks.landed, true_and]
  intros
  split
  · rfl
  · exact lsExec_off nofun

theorem bodyLdRacq_bytes (f : L2) : (bodyLdRacq f).KeepsBytes := by
  intro e s x
  unfold bodyLdRacq
  dsimp only
  simp only [EndsOff.bind_iff, Checks.field, Checks.sources, Checks.landed, Checks.notVector, true_and]
  intros
  split
  · rfl
  · refine EndsOff.bind_iff.2 ⟨Checks.need, fun _ _ => ?_⟩
    generalize hr : lsExec e _ _ s = r
    have h : EndsOff x s.mem r := hr ▸ lsExec_off nofun
    cases r with
    | ok t =>
      rw [ok_bind]
      split
      · exact h
      · exact EndsOff.bind_iff.2 ⟨Checks.await fun _ => rfl, fun _ _ => h⟩
    | error r => exact h

theorem storeBody_off {mod : BitVec 3} {space : BitVec 2} {scope hint : Nat} {d a : Code} {idx : List Opnd}
    {off : Env → Nat → W64} {e : Env} {s : State} {x : Nat}
    (h : e.Outside (accessOf .store space scope (2 ^ mod.toNat) false false hint (lanesOf e.act)
      (fun l => effAddr space ((lsAddr space noPort d).val e l) (off e l)) (e.dataWords a (regsOf (2 ^ mod.toNat)))
      (fun _ => [])) s x) : EndsOff x s.mem (storeBody mod space scope hint d a idx off e s) := by
  unfold storeBody
  dsimp only
  simp only [EndsOff.bind_iff, Checks.field, Checks.sources, Checks.landed, Checks.dataLanded, true_and]
  intros
  split
  · rfl
  · exact lsExec_off fun _ => h

theorem storeRelBody_off {mod : BitVec 3} {space : BitVec 2} {scope hint : Nat} {d a : Code} {idx : List Opnd}
    {off : Env → Nat → W64} {e : Env} {s : State} {x : Nat}
    (h : e.Outside (accessOf .store space scope (2 ^ mod.toNat) false true hint (lanesOf e.act)
      (fun l => effAddr space ((lsAddr space noPort d).val e l) (off e l))
      (fun l => (storeRelData mod a).wordsOf e l (2 ^ mod.toNat)) (fun _ => [])) s x) :
    EndsOff x s.mem (storeRelBody mod space scope hint d a idx off e s) := by
  unfold storeRelBody
  dsimp only
  simp only [EndsOff.bind_iff, Checks.field, Checks.sources, Checks.landed, true_and]
  intros
  split
  · rfl
  · exact lsExec_off fun _ => h

/-- Every meaning that stores nothing as it issues, alone or in a slot. -/
theorem slotBody_bytes {i : Instr} (h : storesNothing i = true) : (slotBody i).KeepsBytes := by
  cases i with
  | mov f => exact (bodyMov_keeps f).bytes
  | iadd f => exact (bodyIadd_keeps f).bytes
  | iaddI f => exact (bodyIaddI_keeps f).bytes
  | isub f => exact (bodyIsub_keeps f).bytes
  | isubI f => exact (bodyIsubI_keeps f).bytes
  | imul f => exact (bodyImul_keeps f).bytes
  | imulI f => exact (bodyImulI_keeps f).bytes
  | imulh f => exact (bodyImulh_keeps f).bytes
  | imulhI f => exact (bodyImulhI_keeps f).bytes
  | imad f => exact (bodyImad_keeps f).bytes
  | idiv f => exact (bodyIdiv_keeps f).bytes
  | idivI f => exact (bodyIdivI_keeps f).bytes
  | irem f => exact (bodyIrem_keeps f).bytes
  | iremI f => exact (bodyIremI_keeps f).bytes
  | imin f => exact (bodyImin_keeps f).bytes
  | iminI f => exact (bodyIminI_keeps f).bytes
  | imax f => exact (bodyImax_keeps f).bytes
  | imaxI f => exact (bodyImaxI_keeps f).bytes
  | iabs f => exact (bodyIabs_keeps f).bytes
  | ineg f => exact (bodyIneg_keeps f).bytes
  | iadds f => exact (bodyIadds_keeps f).bytes
  | iaddsI f => exact (bodyIaddsI_keeps f).bytes
  | isad f => exact (bodyIsad_keeps f).bytes
  | idot4 f => exact (bodyIdot4_keeps f).bytes
  | and f => exact (bodyAnd_keeps f).bytes
  | andI f => exact (bodyAndI_keeps f).bytes
  | or f => exact (bodyOr_keeps f).bytes
  | orI f => exact (bodyOrI_keeps f).bytes
  | xor f => exact (bodyXor_keeps f).bytes
  | xorI f => exact (bodyXorI_keeps f).bytes
  | andn f => exact (bodyAndn_keeps f).bytes
  | andnI f => exact (bodyAndnI_keeps f).bytes
  | not f => exact (bodyNot_keeps f).bytes
  | shl f => exact (bodyShl_keeps f).bytes
  | shlI f => exact (bodyShlI_keeps f).bytes
  | shr f => exact (bodyShr_keeps f).bytes
  | shrI f => exact (bodyShrI_keeps f).bytes
  | sar f => exact (bodySar_keeps f).bytes
  | sarI f => exact (bodySarI_keeps f).bytes
  | rotl f => exact (bodyRotl_keeps f).bytes
  | rotlI f => exact (bodyRotlI_keeps f).bytes
  | funnel f => exact (bodyFunnel_keeps f).bytes
  | bfx f => exact (bodyBfx_keeps f).bytes
  | bfi f => exact (bodyBfi_keeps f).bytes
  | popc f => exact (bodyPopc_keeps f).bytes
  | clz f => exact (bodyClz_keeps f).bytes
  | ctz f => exact (bodyCtz_keeps f).bytes
  | brev f => exact (bodyBrev_keeps f).bytes
  | bshuf f => exact (bodyBshuf_keeps f).bytes
  | lea f => exact (bodyLea_keeps f).bytes
  | leaI f => exact (bodyLeaI_keeps f).bytes
  | icmp f => exact (bodyIcmp_keeps f).bytes
  | icmpI f => exact (bodyIcmpI_keeps f).bytes
  | isel f => exact (bodyIsel_keeps f).bytes
  | plop f => exact (bodyPlop_keeps f).bytes
  | movh f => exact (bodyMovh_keeps f).bytes
  | movhI f => exact (bodyMovhI_keeps f).bytes
  | movi f => exact (bodyMovi_keeps f).bytes
  | vote f => exact (bodyVote_keeps f).bytes
  | rdlane f => exact (bodyRdlane_keeps f).bytes
  | rdlaneI f => exact (bodyRdlaneI_keeps f).bytes
  | find1 f => exact (bodyFind1_keeps f).bytes
  | cvti f => exact (bodyCvti_keeps f).bytes
  | iredw f => exact (bodyIredw_keeps f).bytes
  | clamp f => exact (bodyClamp_keeps f).bytes
  | fadd f => exact (bodyFadd_keeps f).bytes
  | faddI f => exact (bodyFaddI_keeps f).bytes
  | fsub f => exact (bodyFsub_keeps f).bytes
  | fsubI f => exact (bodyFsubI_keeps f).bytes
  | fmul f => exact (bodyFmul_keeps f).bytes
  | fmulI f => exact (bodyFmulI_keeps f).bytes
  | ffma f => exact (bodyFfma_keeps f).bytes
  | fnma f => exact (bodyFnma_keeps f).bytes
  | fmin f => exact (bodyFmin_keeps f).bytes
  | fminI f => exact (bodyFminI_keeps f).bytes
  | fmax f => exact (bodyFmax_keeps f).bytes
  | fmaxI f => exact (bodyFmaxI_keeps f).bytes
  | fabs f => exact (bodyFabs_keeps f).bytes
  | fneg f => exact (bodyFneg_keeps f).bytes
  | fcmp f => exact (bodyFcmp_keeps f).bytes
  | fcmpI f => exact (bodyFcmpI_keeps f).bytes
  | fclass f => exact (bodyFclass_keeps f).bytes
  | frint f => exact (bodyFrint_keeps f).bytes
  | fcvt f => exact (bodyFcvt_keeps f).bytes
  | f2i f => exact (bodyF2i_keeps f).bytes
  | i2f f => exact (bodyI2f_keeps f).bytes
  | fdot2 f => exact (bodyFdot2_keeps f).bytes
  | fredw f => exact (bodyFredw_keeps f).bytes
  | fsetmode f => exact (bodyFsetmode_keeps f).bytes
  | fgetmode f => exact (bodyFgetmode_keeps f).bytes
  | fflags f => exact (bodyFflags_keeps f).bytes
  | fflagsClr f => exact (bodyFflagsClr_keeps f).bytes
  | fscale f => exact (bodyFscale_keeps f).bytes
  | fscaleI f => exact (bodyFscaleI_keeps f).bytes
  | rcp f => exact (bodyRcp_keeps f).bytes
  | rsq f => exact (bodyRsq_keeps f).bytes
  | sqrt f => exact (bodySqrt_keeps f).bytes
  | ex2 f => exact (bodyEx2_keeps f).bytes
  | lg2 f => exact (bodyLg2_keeps f).bytes
  | sinpi f => exact (bodySinpi_keeps f).bytes
  | cospi f => exact (bodyCospi_keeps f).bytes
  | tanh f => exact (bodyTanh_keeps f).bytes
  | sigm f => exact (bodySigm_keeps f).bytes
  | fdiv f => exact (bodyFdiv_keeps f).bytes
  | ld f => exact loadBody_bytes _ _ _ _ _ _ _ _ _
  | ldI f => exact loadBody_bytes _ _ _ _ _ _ _ _ _
  | st f => exact absurd h (by simp [storesNothing])
  | stI f => exact absurd h (by simp [storesNothing])
  | ldw f => exact ldwBody_bytes _ _ _ _ _ _ _ _
  | ldwI f => exact ldwBody_bytes _ _ _ _ _ _ _ _
  | ldAcq f => exact loadBody_bytes _ _ _ _ _ _ _ _ _
  | ldAcqI f => exact loadBody_bytes _ _ _ _ _ _ _ _ _
  | stRel f => exact absurd h (by simp [storesNothing])
  | stRelI f => exact absurd h (by simp [storesNothing])
  | atom f => exact atomBody_bytes (kind := .atom f.mod.toNat) (fun h => nomatch h) _ _ _ _ _ _ _ _
  | cas f => exact atomBody_bytes (kind := .cas) (fun h => nomatch h) _ _ _ _ _ _ _ _
  | red f => exact bodyRed_bytes f
  | atomX f => exact atomBody_bytes (kind := .atom f.mod.toNat) (fun h => nomatch h) _ _ _ _ _ _ _ _
  | casX f => exact atomBody_bytes (kind := .cas) (fun h => nomatch h) _ _ _ _ _ _ _ _
  | fenceFull f => exact (bodyFenceFull_keeps f).bytes
  | fenceAcq f => exact (bodyFenceAcq_keeps f).bytes
  | fenceRel f => exact (bodyFenceRel_keeps f).bytes
  | fenceEng f => exact (bodyFenceEng_keeps f).bytes
  | ldRacq f => exact bodyLdRacq_bytes f
  | arrive f => exact (bodyArrive_keeps f).bytes
  | waitph f => exact (bodyWaitph_keeps f).bytes
  | tryph f => exact (bodyTryph_keeps f).bytes
  | barinit f => exact (bodyBarinit_keeps f).bytes
  | pres f => exact (bodyPres_keeps f).bytes
  | cctlInvl f => exact (bodyCctlInvl_keeps f).bytes
  | cctlInvall f => exact (bodyCctlInvall_keeps f).bytes
  | cctlPref f => exact (bodyCctlPref_keeps f).bytes
  | cctlEvf f => exact (bodyCctlEvf_keeps f).bytes
  | bra f => exact absurd h (by simp [storesNothing])
  | braU f => exact (bodyBraU_keeps f).bytes
  | brx f => exact absurd h (by simp [storesNothing])
  | call f => exact absurd h (by simp [storesNothing])
  | callx f => exact absurd h (by simp [storesNothing])
  | ret f => exact absurd h (by simp [storesNothing])
  | brk f => exact absurd h (by simp [storesNothing])
  | loop f => exact (bodyLoop_keeps f).bytes
  | loopPipe f => exact (bodyLoopPipe_keeps f).bytes
  | rotset f => exact (bodyRotset_keeps f).bytes
  | modeCollapse f => exact (bodyModeCollapse_keeps f).bytes
  | modeExpand f => exact (bodyModeExpand_keeps f).bytes
  | sync f => exact (bodySync_keeps f).bytes
  | exit f => exact absurd h (by simp [storesNothing])
  | trap f => exact (bodyTrap_keeps f).bytes
  | eret f => exact (bodyEret_keeps f).bytes
  | nop f => exact (bodyNop_keeps f).bytes
  | yield f => exact (bodyYield_keeps f).bytes
  | elect f => exact (bodyElect_keeps f).bytes
  | folld f => exact (bodyFolld_keeps f).bytes
  | folfree f => exact (bodyFolfree_keeps f).bytes
  | domset f => exact (bodyDomset_keeps f).bytes
  | mms f => exact (bodyMms_keeps f).bytes
  | mmsz f => exact (bodyMmsz_keeps f).bytes
  | mmsg f => exact (bodyMmsg_keeps f).bytes
  | accalloc f => exact (bodyAccalloc_keeps f).bytes
  | accallocI f => exact (bodyAccallocI_keeps f).bytes
  | accfree f => exact (bodyAccfree_keeps f).bytes
  | accfreeI f => exact (bodyAccfreeI_keeps f).bytes
  | accrd f => exact (bodyAccrd_keeps f).bytes
  | accwr f => exact (bodyAccwr_keeps f).bytes
  | accclr f => exact (bodyAccclr_keeps f).bytes
  | fmtset f => exact (bodyFmtset_keeps f).bytes
  | fmtsetI f => exact (bodyFmtsetI_keeps f).bytes
  | accadd f => exact (bodyAccadd_keeps f).bytes
  | copy f => exact (bodyCopy_keeps f).bytes
  | kick f => exact (bodyKick_keeps f).bytes
  | gather f => exact (bodyGather_keeps f).bytes
  | scatter f => exact (bodyScatter_keeps f).bytes
  | scatterAdd f => exact (bodyScatterAdd_keeps f).bytes
  | pfl2 f => exact (bodyPfl2_keeps f).bytes
  | pfl2Tok f => exact (bodyPfl2Tok_keeps f).bytes
  | cstat f => exact (bodyCstat_keeps f).bytes
  | seedtry f => exact (bodySeedtry_keeps f).bytes
  | seedscan f => exact (bodySeedscan_keeps f).bytes
  | fit f => exact (bodyFit_keeps f).bytes
  | proj f => exact (bodyProj_keeps f).bytes
  | mgen f => exact (bodyMgen_keeps f).bytes
  | mstat f => exact (bodyMstat_keeps f).bytes
  | xlate f => exact (bodyXlate_keeps f).bytes
  | xprobe f => exact (bodyXprobe_keeps f).bytes
  | xinvPage f => exact (bodyXinvPage_keeps f).bytes
  | xinvRange f => exact (bodyXinvRange_keeps f).bytes
  | xinvPasid f => exact (bodyXinvPasid_keeps f).bytes
  | xinvAll f => exact (bodyXinvAll_keeps f).bytes
  | xflush f => exact (bodyXflush_keeps f).bytes
  | pclass f => exact (bodyPclass_keeps f).bytes
  | pclassI f => exact (bodyPclassI_keeps f).bytes
  | opsel f => exact (bodyOpsel_keeps f).bytes
  | opselI f => exact (bodyOpselI_keeps f).bytes
  | grant f => exact (bodyGrant_keeps f).bytes
  | tmark f => exact (bodyTmark_keeps f).bytes
  | tmarkI f => exact (bodyTmarkI_keeps f).bytes
  | bkpt f => exact (bodyBkpt_keeps f).bytes
  | bkptI f => exact (bodyBkptI_keeps f).bytes
  | shash f => exact (bodyShash_keeps f).bytes
  | confrd f => exact (bodyConfrd_keeps f).bytes
  | rpctlOff f => exact (bodyRpctlOff_keeps f).bytes
  | rpctlRec f => exact (bodyRpctlRec_keeps f).bytes
  | rpctlReplay f => exact (bodyRpctlReplay_keeps f).bytes
  | rpctlQuery f => exact (bodyRpctlQuery_keeps f).bytes
  | qsub f => exact (bodyQsub_keeps f).bytes
  | getsp f => exact (bodyGetsp_keeps f).bytes
  | setsp f => exact (bodySetsp_keeps f).bytes
  | _ => intro e s x; trivial

/-- The slots of a bundle that store nothing. -/
theorem runSlots_get (s0 : State) (next : W32) (x : Nat) (l : List (Who × Slot)) (hl : ∀ p ∈ l, storesNothing p.2.instr = true) :
    ∀ (ls : Bool) (s : State), SMap.get 0 (runSlots s0 next ls l s).1.mem x = SMap.get 0 s.mem x := by
  induction l with
  | nil => exact fun _ s => rfl
  | cons p l ih =>
    intro ls s
    have ih := ih fun q hq => hl q (List.mem_cons_of_mem _ hq)
    unfold runSlots
    split
    · exact ih ls s
    · rename_i e _
      have hb := slotBody_bytes (hl p List.mem_cons_self) (e.after ls s) s x
      split
      · rename_i t ht
        rw [ht] at hb
        rw [ih _ t]; exact hb
      · split
        · exact ih ls s
        · rfl

/-! ## Issue -/

/-- A meaning that leaves byte x as it was leaves it so when issued. -/
theorem issue_off {k : Cost} {g : Guard} {body : Body} {s t : State} {x : Nat}
    (hb : ∀ e, s.Issues g e → EndsOff x s.mem (body e (e.enter s))) (h : issue k g body s = .next t) :
    SMap.get 0 t.mem x = SMap.get 0 s.mem x := by
  unfold issue at h
  split at h
  · cases h
  · rename_i e he
    cases hm : e.edgeMissed with
    | true =>
      simp only [hm, if_true] at h
      cases h
      rw [Stop.keeps_stopped (r := .trap cFolioMiss e.path.mask) trivial]
    | false =>
      simp only [hm, Bool.false_eq_true, if_false] at h
      have hb' := hb e ⟨he, hm⟩
      cases hr : body e (e.enter s) with
      | ok u => rw [hr] at h hb'; cases h; rw [Env.complete_mem]; exact hb'
      | error r => rw [hr] at h hb'; cases h; rw [Stop.keeps_stopped hb']

/-- A meaning that leaves every byte as it was. -/
theorem issue_bytes {k : Cost} {g : Guard} {body : Body} {s t : State} (hb : body.KeepsBytes) (h : issue k g body s = .next t)
    (x : Nat) : SMap.get 0 t.mem x = SMap.get 0 s.mem x :=
  issue_off (fun e _ => by have := hb e (e.enter s) x; rwa [Env.enter_mem] at this) h

/-! ## Spills (R112) -/

/-- A spill stores nothing while at most 16 records stand. -/
theorem Env.spill_shallow {e : Env} {t : State} {y : Warp} (h : (t.core e.c).warps.find? e.w = some y)
    (hy : y.allRecs.length ≤ 16) : e.spill t = .ok t := by
  unfold Env.spill
  simp [h, hy]

/-- Stores through pages already found change memory alone. -/
theorem State.writePieces_core (c : Nat) (l : List (Nat × Nat × Tlb)) :
    ∀ (s : State) (b : List Byte), (s.writePieces l b).core c = s.core c := by
  induction l with
  | nil => exact fun s b => rfl
  | cons p l ih => exact fun s b => ih _ _

/-- Where at most 16 records stand after it, a spill left every byte as it was. -/
theorem Env.spill_mem {e : Env} {t u : State} (h : e.spill t = .ok u)
    (hu : ∀ y, (u.core e.c).warps.find? e.w = some y → y.allRecs.length ≤ 16) : u.mem = t.mem := by
  unfold Env.spill at h
  split at h
  · cases h; rfl
  · rename_i x hx
    dsimp only at h
    split at h
    · cases h; rfl
    · rename_i hd
      split at h
      · cases h
        rw [State.writePieces_core] at hu
        exact absurd (List.drop_eq_nil_of_le (hu x hx)) (by simpa using hd)
      · cases h; simp
      · cases h

end Sys2Proof.Machine
end

