-- ==== Sys2Proof/Tests/Slice0.lean ====
section
/-! SUPPORT. Tests of the model: words that the spec works out, ill-formed terms that each check refuses, states that meet
the hypotheses of the statements, and single steps whose results the spec gives. -/

set_option Elab.async false

open Sys2Proof Sys2Proof.Machine

namespace Sys2Proof.Tests

/-! ## States -/

/-- No guard. -/
def g0 : Guard := ⟨15, false, 0⟩

/-- A warp of 32 lanes, converged, at its first instruction, with every v register zero; core 0 has selected it. -/
def warpState : State := { (State.reset.withFetchWord 64 0) with sel := ⟨0, 0, .path false⟩ }

/-- A strand of 4 clusters at its first bundle; the given slot of it issues. -/
def slotState (who : Who) : State := { (State.reset.withFetchWord 128 0) with sel := ⟨0, 0, who⟩ }

/-- The state with a change of the warp, of the block or of core 0. -/
def onWarp (f : Warp → Warp) (s : State) : State := s.modWarp 0 0 f

@[inherit_doc onWarp] def onBlock (f : Block → Block) (s : State) : State := s.modBlock 0 0 f

@[inherit_doc onWarp] def onCore (f : Core → Core) (s : State) : State := s.modCore 0 f

/-- v register r holds x in every lane. -/
def withV (r : Nat) (x : W32) : State → State :=
  onWarp (fun w => { w with v := (List.range 32).foldl (fun m l => SMap.set 0 m (32 * r + l) x) w.v })

/-- w register r holds x. -/
def withW (r : Nat) (x : W32) : State → State := onWarp (fun w => { w with w := SMap.set 0 w.w r x })

/-- An outcome that is a next state. -/
def goesOn (o : Host.Outcome State Fault Refusal) : Bool := match o with | .next _ => true | _ => false

/-- What an outcome's next state holds. -/
def nextHas (o : Host.Outcome State Fault Refusal) (p : State → Bool) : Bool := match o with | .next t => p t | _ => false

/-- Some issuer that the state has selected meets the condition. -/
def Meets (s : State) (g : Guard) (p : Env → Bool) : Prop := ∃ e, s.Issues g e ∧ p e = true

/-- It suffices to compute. -/
theorem meets_of {s : State} {g : Guard} {p : Env → Bool} (h : (s.env g).any (fun e => !e.edgeMissed && p e) = true) :
    Meets s g p := by
  obtain ⟨e, h1, h2⟩ := (Option.any_eq_true _ _).1 h
  simp only [Bool.and_eq_true, Bool.not_eq_true'] at h2
  exact ⟨e, ⟨h1, h2.1⟩, h2.2⟩

/-! ## Hypotheses of the statements: the integer unit -/

/-- Two sources v3 and v4 and a destination v5, of 32-bit signed integers or FP32. -/
def f2 : F2 := ⟨0, 5, 3, 4, 0, 0, false, g0⟩

theorem witness_IntegerTwoSourceResults : Meets warpState f2.g (fun e =>
    let a := f2.srcA 0 (tyWide f2.mod) false
    let b := f2.srcB 0 (tyWide f2.mod) false
    e.legal [a, b] && e.vOk f2.d (tyWide f2.mod) && e.quiet [a, b]) := meets_of (by decide +kernel)

def fI : FI := ⟨0, 5, 3, 7, false, g0⟩

theorem witness_IntegerImmediateResults : Meets warpState fI.g (fun e =>
    let a := fI.srcA 0 (tyWide fI.mod) false
    e.legal [a] && e.vOk fI.d (tyWide fI.mod) && e.quiet [a] && e.vOk fI.d false && e.quiet []) :=
  meets_of (by decide +kernel)

theorem witness_IntegerOneSourceResults : Meets warpState f2.g (fun e =>
    let a := f2.srcA 0 (tyWide f2.mod) false
    e.legal [a] && e.vOk f2.d (tyWide f2.mod) && e.quiet [a]) := meets_of (by decide +kernel)

def f3 : F3 := ⟨0, 5, 3, 4, 6, 0, false, g0⟩

theorem witness_IntegerThreeSourceResults : Meets warpState f3.g (fun e =>
    ([false, tyWide f3.mod].all (fun wide => [false, tyWide f3.mod].all (fun wide' =>
      let ops := [f3.srcA 0 wide false, f3.srcB 0 wide false, f3.srcC 0 wide' false]
      e.legal ops && e.vOk f3.d wide' && e.quiet ops)))) := meets_of (by decide +kernel)

/-- LEA and LEAI with a pair in v4 and v5, and the other two clauses with 32-bit operands. -/
theorem witness_AddressSelectConvertResults : Meets warpState g0 (fun e =>
    let a : Opnd := (⟨2, 8, 4, 6, 0, 0, false, g0⟩ : F2).srcA 0 true false
    let b : Opnd := (⟨2, 8, 4, 6, 0, 0, false, g0⟩ : F2).srcB 0 false false
    let c := f2.srcA 0 (tyWide f2.mod) false
    let d := f3.srcA 0 (tyWide f3.mod) false
    let d' := f3.srcB 0 (tyWide f3.mod) false
    e.legal [a, b] && e.vOk 8 true && e.quiet [a, b] && e.legal [a] && e.quiet [a] && e.legal [c]
      && e.vOk f2.d (tyWide f2.mod) && e.quiet [c] && e.legal [d, d'] && e.vOk f3.d (tyWide f3.mod) && e.quiet [d, d']) :=
  meets_of (by decide +kernel)

theorem witness_PredicateResults : Meets warpState f2.g (fun e =>
    let a := f2.srcA 0 (tyWide f2.mod) false
    let b := f2.srcB 0 (tyWide f2.mod) false
    e.legal [a, b] && qOk f2.d && e.quiet [a, b] && e.legal [a] && e.quiet [a] && e.quiet []) :=
  meets_of (by decide +kernel)

/-- The cross-lane clauses: w5 as the destination of all but FIND1, whose destination is v5. -/
theorem witness_CrossLaneResults : Meets warpState g0 (fun e =>
    let f : F2 := ⟨0, 389, 3, 4, 0, 0, false, g0⟩
    let a := f.srcA 0 (tyWide f.mod) false
    let b := f.srcB 0 false false
    !e.inLane && e.act != 0 && wOk f.d false && e.quiet [] && decide (f.a.toNat < 384) && e.legal [a, b]
      && wOk f.d (tyWide f.mod) && e.quiet [a, b] && decide ((31 : BitVec 24).toNat < e.size) && e.legal [a] && e.quiet [a]
      && e.vOk f2.d false) := meets_of (by decide +kernel)

/-- The same under a guard that no lane meets. -/
theorem witness_CrossLaneResults_none : Meets warpState ⟨1, false, 0⟩ (fun e =>
    let f : F2 := ⟨0, 389, 3, 4, 0, 0, false, g0⟩
    let a := f.srcA 0 (tyWide f.mod) false
    let b := f.srcB 0 false false
    !e.inLane && e.act == 0 && wOk f.d false && e.quiet [] && decide (f.a.toNat < 384) && e.legal [a, b]
      && wOk f.d (tyWide f.mod) && e.quiet [a, b] && decide ((31 : BitVec 24).toNat < e.size) && e.legal [a] && e.quiet [a])
    := meets_of (by decide +kernel)

theorem witness_MoveResults : Meets warpState g0 (fun e =>
    let f : MV := ⟨false, 0, 0, 0, 5, 3, 0, g0⟩
    e.moveForm f && !e.moveWaits f && e.legal [moveSrc f] && e.quiet [moveSrc f] && f.dport == 0 && e.vOk f.d false) :=
  meets_of (by decide +kernel)

/-- The clause of ports, in lane slot 31 of a strand. -/
theorem witness_MoveResults_port : Meets (slotState (.lane 31)) g0 (fun e =>
    let f : MV := ⟨false, 0, 0, 1, 0, 3, 0, g0⟩
    e.moveForm f && !e.moveWaits f && e.legal [moveSrc f] && e.quiet [moveSrc f] && f.dport != 0) :=
  meets_of (by decide +kernel)

/-- A move from another lane (XC 1, SCL 3, SLN 7) in lane slot 31 of a strand of four clusters. -/
theorem witness_MoveResults_reaches : Meets (slotState (.lane 31)) g0 (fun e =>
    let f : MV := ⟨true, 3, 7, 0, 5, 3, 0, g0⟩
    e.moveForm f && !e.moveWaits f && e.legal [moveSrc f] && e.quiet [moveSrc f] && e.reaches (moveLane f 31)) :=
  meets_of (by decide +kernel)

/-! ## The float and special-function units -/

theorem witness_FloatTwoSourceResults : Meets warpState f2.g (fun e =>
    let t := fmtOf f2.mod.toNat
    let a := fpOpnd 0 1 f2.amod f2.a t
    let b := fpOpnd 1 1 0 f2.b t
    e.legal [a, b] && e.vOk f2.d (t.width == 64) && e.quiet [a, b]) := meets_of (by decide +kernel)

theorem witness_FloatImmediateResults : Meets warpState fI.g (fun e =>
    let t := fmtOf fI.mod.toNat
    let a := fpOpnd 0 1 0 fI.a t
    e.legal [a] && e.vOk fI.d (t.width == 64) && e.quiet [a]) := meets_of (by decide +kernel)

theorem witness_FloatThreeSourceResults : Meets warpState f3.g (fun e =>
    let t := fmtOf f3.mod.toNat
    let a := fpOpnd 0 1 0 f3.a t
    let b := fpOpnd 1 1 0 f3.b t
    let c := fpOpnd 2 1 0 f3.c t
    let c' := fpOpnd 2 1 0 f3.c fmtF32
    e.legal [a, b, c] && e.vOk f3.d (t.width == 64) && e.quiet [a, b, c] && e.legal [a, b, c'] && e.vOk f3.d false
      && e.quiet [a, b, c']) := meets_of (by decide +kernel)

/-- FP64 pairs in lane slot 31 of a strand, whose float units are free. -/
theorem witness_FloatThreeSourceResults_strand : Meets (slotState (.lane 31)) g0 (fun e =>
    let f : F3 := ⟨3, 8, 2, 4, 6, 0, false, g0⟩
    let t := fmtOf f.mod.toNat
    let a := fpOpnd 0 1 0 f.a t
    let b := fpOpnd 1 1 0 f.b t
    let c := fpOpnd 2 1 0 f.c t
    e.strand && e.legal [a, b, c] && e.vOk f.d (t.width == 64) && e.quiet [a, b, c]
      && !((e.enter (slotState (.lane 31))).core e.c).fmaBusy e.fmaLanes) := meets_of (by decide +kernel)

theorem witness_FloatSignClassResults : Meets warpState f2.g (fun e =>
    let t := fmtOf f2.mod.toNat
    let a := fpOpnd 0 1 f2.amod f2.a t
    e.legal [a] && e.quiet [a] && e.vOk f2.d (t.width == 64) && e.vOk f2.d false) := meets_of (by decide +kernel)

theorem witness_FloatCompareResults : Meets warpState f2.g (fun e =>
    let t := fmtOf f2.mod.toNat
    let a := fpOpnd 0 1 f2.amod f2.a t
    let b := fpOpnd 1 1 0 f2.b t
    e.legal [a, b] && qOk f2.d && e.quiet [a, b] && e.legal [a] && e.quiet [a]) := meets_of (by decide +kernel)

/-- FRINT, FCVT between FP32 and FP16, F2I and I2F with 32-bit integers. -/
theorem witness_FloatConvertResults : Meets warpState f2.g (fun e =>
    let t := fmtOf f2.mod.toNat
    let a := fpOpnd 0 1 f2.amod f2.a t
    let f : F2 := ⟨0, 8, 4, 2, 0, 0, false, g0⟩
    let x := fmtOf (f.b.extractLsb' 0 3).toNat
    let y := fmtOf f.mod.toNat
    let h : F2 := ⟨0, 8, 4, 0, 0, 0, false, g0⟩
    e.legal [a] && e.vOk f2.d (t.width == 64) && e.quiet [a] && e.convOk f (max x.count y.count) x.width y.width true
      && e.convOk h (fmtOf 0).count (fmtOf 0).width (intWidth 0) true
      && e.convOk h (fmtOf 0).count (intWidth 0) (fmtOf 0).width false) := meets_of (by decide +kernel)

/-- FREDW into w5 of lanes that hold +0, FSETMODE from v3, FGETMODE and the FFLAGS forms into v5. -/
theorem witness_FloatModeFlagReduceResults : Meets warpState g0 (fun e =>
    let f : F2 := ⟨0, 389, 3, 0, 0, 0, false, g0⟩
    let t := fmtOf f.mod.toNat
    let a := fpOpnd 0 1 f.amod f.a t
    let r := treeNodes (fredNode e t (f.b.extractLsb' 0 3).toNat (if e.rm f.rnd = 6 then 1 else e.rm f.rnd)) 5
      ((List.range e.size).map (fun i =>
        if e.act.getLsbD (e.base + i) then some (a.val e (e.base + i)).toNat else none))
    !e.inLane && e.legal [a] && wOk f.d (t.width == 64) && e.quiet [a] && r.1 == some 0
      && e.legal [f.srcA 1 false false] && e.quiet [f.srcA 1 false false] && lowest e.act == some 0
      && e.vwOk f2.d false && e.act != 0 && e.vOk f2.d false && e.floatLanded) := meets_of (by decide +kernel)

theorem witness_SpecialFunctionResults : Meets warpState f2.g (fun e =>
    let t := fmtOf f2.mod.toNat
    let a := fpOpnd 0 2 f2.amod f2.a t
    let b := fpOpnd 1 2 0 f2.b t
    e.legal [a] && e.vOk f2.d (t.width == 64) && e.quiet [a] && e.legal [a, b] && e.quiet [a, b]) :=
  meets_of (by decide +kernel)

theorem witness_DivisionByTheRule : Meets warpState f2.g (fun e =>
    let a := f2.srcA 0 (tyWide f2.mod) false
    let b := f2.srcB 0 (tyWide f2.mod) false
    let c := fI.srcA 0 (tyWide fI.mod) false
    [0, 1, 6, 7].contains f2.mod && e.legal [a, b] && e.vOk f2.d (tyWide f2.mod) && e.quiet [a, b]
      && [0, 1, 6, 7].contains fI.mod && e.legal [c] && e.vOk fI.d (tyWide fI.mod) && e.quiet [c]) :=
  meets_of (by decide +kernel)

/-- The corners of division: a divisor of 0, and -1 under the most negative number. -/
theorem witness_DivisionByTheRule_corners : Meets (withV 3 0x80000000 (withV 4 0xFFFFFFFF warpState)) f2.g (fun e =>
    let a := f2.srcA 0 false false
    let b := f2.srcB 0 false false
    tySigned 0 && tyVal 0 (a.val e 0) 0 == -(2 ^ (tyWidth 0 - 1)) && tyVal 0 (b.val e 0) 0 == -1
      && tyVal 0 ((f2.srcB 0 false false).val { e with warp := { e.warp with v := [] } } 0) 0 == 0) :=
  meets_of (by decide +kernel)

theorem witness_FunnelByTheRule : Meets warpState f3.g (fun e =>
    let a := f3.srcA 0 false false
    let b := f3.srcB 0 false false
    let c := f3.srcC 0 false false
    e.legal [a, b, c] && e.vOk f3.d false && e.quiet [a, b, c] && a.val e 0 == c.val e 0) := meets_of (by decide +kernel)

/-! ## Hypotheses of the statements: memory -/

/-- The warp, with a writable 64 KiB page of the module at address 0 in its core's translations, and 16 in v4. -/
def pageState : State :=
  withV 4 16
    (onCore (fun k => { k with tlb := [⟨0, 0, 16, 0, 0, false, false, false, false, false, true, true⟩] }) warpState)

/-- The warp, with a barrier object that expects one arrival at offset 16 of its window, 16 in v4 and 1 in v6. -/
def barState : State :=
  onBlock (fun b => { b with scratch := SMap.setMany 0 b.scratch 16 (Bar.write ⟨false, 1, 1, 0, 0, 0, 0⟩) })
    (withV 4 16 (withV 6 1 warpState))

/-- A barrier object that expects one arrival at offset 0 of the window. -/
def withBar : State → State :=
  onBlock (fun b => { b with scratch := SMap.setMany 0 b.scratch 0 (Bar.write ⟨false, 1, 1, 0, 0, 0, 0⟩) })

/-- Loads of 4 bytes by each lane from global address 16. -/
theorem witness_LoadsArePerformed : Meets pageState g0 (fun e =>
    let f : L2 := ⟨2, 8, 4, 12, 0, 5, 0, g0⟩
    let f' : LI := ⟨2, 8, 4, 16, 0, 5, g0⟩
    let ad := lsAddr f.space 0 f.a
    let k := regsOf (2 ^ f.mod.toNat)
    lanesOf e.act != [] && addrClass f.space f.a && e.legal (ad :: idxOpnd f.b) && e.groupOk f.d k
      && e.quiet (ad :: idxOpnd f.b) && e.legal [ad] && e.quiet [ad] && [false, true].all (fun q =>
        e.lsNow (accessOf .load f.space f.scope.toNat (2 ^ f.mod.toNat) q false f.hint.toNat (lanesOf e.act)
          (fun l => effAddr f.space (ad.val e l) (idxOff f.b e l)) (fun _ => []) (fun _ => [])) (e.enter pageState)
        && e.lsNow (accessOf .load f'.space f'.scope.toNat (2 ^ f'.mod.toNat) q false 0 (lanesOf e.act)
          (fun l => effAddr f'.space (ad.val e l) (f'.imm.signExtend 64)) (fun _ => []) (fun _ => [])) (e.enter pageState)))
     := meets_of (by decide +kernel)

/-- Loads of the last word of the scratchpad window. -/
theorem witness_LoadsArePerformed_window : Meets warpState g0 (fun e =>
    let f : LI := ⟨2, 8, 3, 131068, 1, 0, g0⟩
    let ad := lsAddr f.space 0 f.a
    lanesOf e.act != [] && addrClass f.space f.a && e.legal [ad] && e.groupOk f.d 1 && e.quiet [ad]
      && decide (e.blk.window = 131072)
      && e.lsNow (accessOf .load f.space f.scope.toNat (2 ^ f.mod.toNat) false false 0 (lanesOf e.act)
          (fun l => effAddr f.space (ad.val e l) (f.imm.signExtend 64)) (fun _ => []) (fun _ => [])) (e.enter warpState))
     := meets_of (by decide +kernel)

/-- LDW of 4 and 8 bytes into w8, and LD.RACQ from core 0 itself. -/
theorem witness_UniformAndRemoteAcquireLoads : Meets pageState g0 (fun e =>
    let f : L2 := ⟨2, 392, 4, 480, 0, 5, 0, g0⟩
    let f' : LI := ⟨3, 392, 4, 16, 0, 5, g0⟩
    let h : L2 := ⟨2, 8, 4, 390, 0, 5, 0, g0⟩
    let ad := lsAddr f.space 0 f.a
    let b : Opnd := ⟨3, 1, 0, h.b, false, false⟩
    !e.inVector && lowest e.act == some 0 && lanesOf e.act != [] && addrClass f.space f.a
      && e.legal (ad :: idxOpnd f.b) && wOk f.d false && wOk f'.d true && e.quiet (ad :: idxOpnd f.b) && e.legal [ad]
      && e.quiet [ad]
      && e.lsNow (accessOf .load f.space f.scope.toNat 4 false false f.hint.toNat [0]
          (fun l => effAddr f.space (ad.val e l) (idxOff f.b e l)) (fun _ => []) (fun _ => [])) (e.enter pageState)
      && e.lsNow (accessOf .load f'.space f'.scope.toNat 8 false false 0 [0]
          (fun l => effAddr f'.space (ad.val e l) (f'.imm.signExtend 64)) (fun _ => []) (fun _ => [])) (e.enter pageState)
      && isW h.b && e.legal [ad, b] && e.groupOk h.d 1 && e.quiet [ad, b] && decide ((b.val32 e 0).toNat < 576)
      && e.lsNow (accessOf .load 0 h.scope.toNat 4 true false h.hint.toNat (lanesOf e.act)
          (fun l => effAddr h.space (ad.val e l) 0) (fun _ => []) (fun _ => [])) (e.enter pageState)
      && (b.val32 e 0).toNat == e.c) := meets_of (by decide +kernel)

/-- Stores of 4 bytes by each lane to global address 16 and beyond. -/
theorem witness_StoresArePerformed : Meets pageState g0 (fun e =>
    let f : L2 := ⟨2, 4, 8, 12, 0, 5, 0, g0⟩
    let f' : LI := ⟨2, 4, 8, 16, 0, 5, g0⟩
    let ad := lsAddr f.space noPort f.d
    let k := regsOf (2 ^ f.mod.toNat)
    let o := storeRelData f.mod f.a
    let data (rel : Bool) (l : Nat) : List W32 := if rel then o.wordsOf e l (2 ^ f.mod.toNat) else e.dataWords f.a k l
    lanesOf e.act != [] && addrClass f.space f.d && e.legal (ad :: idxOpnd f.b) && e.dataOk f.a k
      && e.quiet (ad :: idxOpnd f.b) && e.dataQuiet f.a k && e.legal [ad] && e.quiet [ad]
      && e.legal (ad :: o :: idxOpnd f.b) && e.quiet (ad :: o :: idxOpnd f.b) && e.legal [ad, o] && e.quiet [ad, o]
      && [false, true].all (fun q =>
        e.lsNow (accessOf .store f.space f.scope.toNat (2 ^ f.mod.toNat) false q f.hint.toNat (lanesOf e.act)
          (fun l => effAddr f.space (ad.val e l) (idxOff f.b e l)) (data q) (fun _ => [])) (e.enter pageState)
        && e.lsNow (accessOf .store f'.space f'.scope.toNat (2 ^ f'.mod.toNat) false q 0 (lanesOf e.act)
          (fun l => effAddr f'.space (ad.val e l) (f'.imm.signExtend 64)) (data q) (fun _ => []))
          (e.enter pageState))) := meets_of (by decide +kernel)

/-- Atomics of 4 and 8 bytes on global address 16. -/
theorem witness_AtomicsArePerformed : Meets pageState g0 (fun e =>
    let f : L2 := ⟨0, 8, 4, 12, 0, 5, 0, g0⟩
    let h : L3 := ⟨0, 8, 4, 12, 0, 5, 14, g0⟩
    let r : L2 := ⟨0, 4, 12, 0, 0, 5, 0, g0⟩
    let ad := lsAddr 0 0 4
    let ad' := lsAddr 0 noPort 4
    let o : Opnd := ⟨3, 0, 0, r.a, false, false⟩
    lanesOf e.act != [] && addrClass 0 4 && [(4, false), (8, true)].all (fun q =>
      let b : Opnd := ⟨3, 1, 0, f.b, q.2, false⟩
      let c : Opnd := ⟨3, 2, 0, h.c, q.2, false⟩
      e.legal [ad, b] && e.groupOk f.d (regsOf q.1) && e.quiet [ad, b] && e.legal [ad, b, c] && e.quiet [ad, b, c]
        && e.lsNow (accessOf (.atom 0) 0 5 q.1 false false 0 (lanesOf e.act)
          (fun l => effAddr 0 (ad.val e l) 0) (fun l => b.wordsOf e l q.1) (fun _ => [])) (e.enter pageState)
        && e.lsNow (accessOf .cas 0 5 q.1 false false 0 (lanesOf e.act)
          (fun l => effAddr 0 (ad.val e l) 0) (fun l => b.wordsOf e l q.1) (fun l => c.wordsOf e l q.1)) (e.enter pageState))
      && e.legal [ad', o] && e.quiet [ad', o]
      && e.lsNow (accessOf (.red 0) 0 5 4 false false 0 (lanesOf e.act)
          (fun l => effAddr 0 (ad'.val e l) 0) (fun l => [o.val32 e l]) (fun _ => [])) (e.enter pageState)) :=
  meets_of (by decide +kernel)

theorem witness_FencesComplete : Meets warpState g0 (fun e =>
    let u := e.enter warpState
    !e.inVector && e.settledNow u (u.drains e.c 5) && e.settledNow u false && (u.core e.c).enginesDone e.w e.path.mask) :=
  meets_of (by decide +kernel)

theorem witness_CacheControlsComplete : Meets pageState g0 (fun e =>
    let ad := lsAddr 0 0 4
    addrClass 0 4 && e.legal [ad] && e.quiet [ad] && e.act != 0 && e.cctlPa (e.enter pageState) ad 0 == some 16) :=
  meets_of (by decide +kernel)

/-- ARRIVE, TRYPH and BARINIT with count and token 1 in v6; the object's phase is 0. -/
theorem witness_BarriersComplete : Meets barState g0 (fun e =>
    let f : L2 := ⟨0, 392, 4, 6, 1, 2, 0, g0⟩
    let u := e.enter barState
    let p : Nat × Nat × Nat := (0, 0, 16)
    let ad := lsAddr f.space 0 f.a
    let b : Opnd := ⟨3, 1, 0, f.b, false, false⟩
    let at_ (w i : Bool) : Bool := match e.barPlace u f.space ad 0 w i with | .ok q => q == p | .error _ => false
    lowest e.act == some 0 && !e.inVector && e.legal [ad, b] && e.quiet [ad, b] && wOk f.d false
      && [false, true].all (fun w => match e.barOrder w u with | .ok _ => true | .error _ => false)
      && countOk (b.val32 e 0).toNat && at_ true false && at_ false false && at_ true true
      && (Bar.read (u.scratchRead p.1 p.2.1 p.2.2 16)).1.ph != (b.val32 e 0).getLsbD 0 && qOk 1
      && e.legal [ad] && e.quiet [ad] && (lanesOf e.act).all (fun l => (e.presPlace u f.space ad l).isSome)) :=
  meets_of (by decide +kernel)

/-! ## Hypotheses of the statements: the sequencer -/

/-- The folio holds four words, of which the second is a landing point and a loop of two may start at the first. -/
def folioState (s : State) : State :=
  onBlock (fun b => { b with folios := [(0, ⟨0, 32, [0, 0, 0, 0], [(0, 8)], [8], 0⟩)] }) s

/-- The warp in its folio, with q0 true in its lower 16 lanes, 8 in v3 and in w5, and inside a loop. -/
def flowState : State :=
  onWarp (fun w => { w with q := SMap.set 0 w.q 0 0xFFFF, loops := [⟨0, 3, 2, false, 2⟩] })
    (withV 3 8 (withW 5 8 (folioState warpState)))

/-- A strand at such a folio. -/
def strandFlow (who : Who) : State := withW 5 8 (folioState (slotState who))

/-- Guard q0. -/
def gq : Guard := ⟨0, false, 0⟩

/-- A branch to the second word, taken by every lane. -/
theorem witness_DirectBranches : Meets flowState g0 (fun e =>
    let f : FC := ⟨0, 0, 8, g0⟩
    e.midLoop && e.inFolio (e.pc + f.imm) && f.imm.extractLsb' 0 3 == 0 && e.act != 0 && e.path.mask &&& ~~~e.act == 0
      && e.wholePath != 0) := meets_of (by decide +kernel)

/-- The same by the lower 16 lanes: the path splits. -/
theorem witness_DirectBranches_split : Meets flowState gq (fun e =>
    let r := e.blk.reconv e.pc
    e.midLoop && e.inFolio (e.pc + 8) && e.act != 0 && !e.strand && e.path.mask &&& ~~~e.act != 0
      && e.loops.head?.all (fun l => r != noReconv && l.inside r) && decide (e.warp.allRecs.length < 256)) :=
  meets_of (by decide +kernel)

/-- The same with q1, which no lane holds. -/
theorem witness_DirectBranches_none : Meets flowState ⟨1, false, 0⟩ (fun e =>
    e.midLoop && e.act == 0 && e.wholePath == 0) := meets_of (by decide +kernel)

/-- CALL with its link in v5, whole and split. -/
theorem witness_Calls : Meets flowState g0 (fun e =>
    e.midLoop && e.jumpOk 5 false && e.inFolio (e.pc + 8) && e.act != 0 && e.path.mask &&& ~~~e.act == 0) :=
  meets_of (by decide +kernel)

@[inherit_doc witness_Calls] theorem witness_Calls_split : Meets flowState gq (fun e =>
    let r := if e.blk.reconv e.pc == noReconv then e.pc + 8 else e.blk.reconv e.pc
    e.midLoop && e.jumpOk 5 false && e.inFolio (e.pc + 8) && e.act != 0 && !e.strand && e.path.mask &&& ~~~e.act != 0
      && e.loops.head?.all (fun l => r != noReconv && l.inside r) && decide (e.warp.allRecs.length < 256)) :=
  meets_of (by decide +kernel)

/-- Targets in v4 (CALLX links in v5): to the landing point at 8, by every lane. -/
theorem witness_IndirectTransfers : Meets (withV 4 8 flowState) g0 (fun e =>
    e.midLoop && (e.group 4).1 != 0 && [false, true].all (fun wide => e.jumpOk 4 wide) && e.jumpQuiet 4
      && e.targetsOk 4 true && e.targetsOk 4 false && e.path.mask &&& ~~~(e.group 4).1 == 0) := meets_of (by decide +kernel)

@[inherit_doc witness_IndirectTransfers]
theorem witness_IndirectTransfers_split : Meets (withV 4 8 flowState) gq (fun e =>
    let at_ := if e.blk.reconv e.pc == noReconv then e.pc + 8 else e.blk.reconv e.pc
    e.midLoop && (e.group 4).1 != 0 && [false, true].all (fun wide => e.jumpOk 4 wide) && e.jumpQuiet 4
      && e.targetsOk 4 true && e.targetsOk 4 false && !e.strand && e.path.mask &&& ~~~(e.group 4).1 != 0
      && e.loops.head?.all (fun l => at_ != noReconv && l.inside at_) && decide (e.warp.allRecs.length < 256)) :=
  meets_of (by decide +kernel)

/-- BRK 8 with eight open records, and EXIT. -/
theorem witness_BreakAndExit :
    Meets (onWarp (fun w => { w with recs := List.replicate 8 ⟨8, 0xFFFFFFFF, 8, 0⟩ }) flowState) gq (fun e =>
      e.midLoop && e.act != 0 && !e.strand && [1, 2, 3, 4, 5, 6, 7, 8].all e.breakOk) := meets_of (by decide +kernel)

theorem witness_BreakAndExit_strand : Meets (strandFlow .control) g0 (fun e => e.midLoop && e.act != 0 && e.strand) :=
  meets_of (by decide +kernel)

/-- A loop of 3 of the immediate, and one of the 8 in w5, in the last free place of the loop stack; ROTSET of the last 8
registers. -/
theorem witness_LoopsAndRotation :
    Meets (onWarp (fun w => { w with loops := List.replicate 3 ⟨0, 3, 2, false, 4⟩ }) flowState) g0 (fun e =>
      let r : W32 := (376 : W32) <<< 23 ||| (8 : W32) <<< 14
      e.midLoop && e.single && isW 389 && !e.blocked [] [5] && decide (e.loops.length < (if e.strand then 16 else 4))
        && decide ((r.extractLsb' 23 9).toNat % 8 = 0) && decide ((r.extractLsb' 14 9).toNat % 8 = 0)
        && decide ((r.extractLsb' 23 9).toNat + (r.extractLsb' 14 9).toNat ≤ 8 * e.role.regs)) := meets_of (by decide +kernel)

/-- MODE.COLLAPSE to offset 8, and SYNC at level 3 in a core whose domain register joins it. -/
theorem witness_ModeChangesAndSync :
    Meets (onCore (fun k => { k with domain := 7 }) (onWarp (fun w => { w with loops := [] }) flowState)) g0 (fun e =>
      let u := e.enter (onCore (fun k => { k with domain := 7 }) (onWarp (fun w => { w with loops := [] }) flowState))
      !e.strand && e.inFolio (e.pc + (10 &&& 0xFFFFFFF8)) && e.midLoop && e.single && e.path.mask == ~~~e.warp.exited
        && e.warp.loops == [] && e.warp.hand == none && [1, 2, 3].all (fun l => e.core.domain.getLsbD (l - 1)
          && e.settledNow u (u.drains e.c (l + 2))) && e.warp.results == []) := meets_of (by decide +kernel)

theorem witness_ModeChangesAndSync_strand : Meets (strandFlow .control) g0 (fun e =>
    e.strand && e.inFolio (e.pc + 24) && e.loops == []) := meets_of (by decide +kernel)

/-- TRAP 0x80 and 0xFF, NOP, YIELD and ELECT. -/
theorem witness_SmallSequencing : Meets flowState g0 (fun e =>
    e.midLoop && [0x80, 0xFF].all (fun i : W32 => decide (0x80 ≤ i.toNat ∧ i.toNat ≤ 0xFF)) && e.act != 0 && !e.strand && qOk 1
      && lowest e.act == some 0) := meets_of (by decide +kernel)

/-- The warp's handler starts at offset 16. -/
def handled (s : State) : State :=
  onBlock (fun b => { b with lr := { b.lr with roles := [⟨0, 16, 1, 48⟩] } }) s

/-- The same warp with a handler, after a trap: ERET returns. -/
def inHandler : State := (handled flowState).takeTrap 0 0 false 0x80 0 0xFFFFFFFF

theorem witness_SmallSequencing_eret : Meets inHandler g0 (fun e =>
    e.midLoop && !e.strand && e.single && e.warp.hand.any (fun h => e.path.mask == h.mask &&& ~~~(e.warp.exited &&& ~~~h.gone))
      && e.warp.results == [] && e.warp.keepsPc e.core) := meets_of (by decide +kernel)

/-- FOLLD of slot 0 from the address 64 in w6 and w7, FOLFREE, and DOMSET of the 8 in w5. -/
theorem witness_FoliosAndDomain : Meets (withW 6 64 flowState) g0 (fun e =>
    let u := e.enter (withW 6 64 flowState)
    let va : W64 := e.wread 7 ++ e.wread 6
    e.midLoop && wOk 390 true && decide (0 < e.blk.slots) && !e.blocked [] [6, 7] && va.extractLsb' 0 6 == 0
      && canonical va.toNat && e.warp.priv && wOk 389 false && !e.blocked [] [5] && e.single
      && !(domainStore (e.wread 5)).getLsbD 7 && !(u.core e.c).syncWaiting) := meets_of (by decide +kernel)

/-- The clause of DOMSET that names a resident block. -/
theorem witness_FoliosAndDomain_block : Meets (withW 5 0x80 flowState) g0 (fun e =>
    (domainStore (e.wread 5)).getLsbD 7
      && (e.core.blocks.find? ((domainStore (e.wread 5)).extractLsb' 8 3).toNat).isSome) := meets_of (by decide +kernel)

/-- A program without handler. -/
theorem witness_TrapEntryAndReturn :
    ((flowState.core 0).warps.find? 0).any (fun x => x.results == [] && x.hand == none && !x.strand
      && ((flowState.core 0).blocks.find? x.rix).any (fun b =>
        (b.lr.roles.getD x.role ⟨0, 0xFFFFFFFF, 0, 0⟩).handler == 0xFFFFFFFF)) = true := by decide +kernel

/-- A program with one. -/
theorem witness_TrapEntryAndReturn_entry :
    (((handled flowState).core 0).warps.find? 0).any (fun x => x.results == [] && x.hand == none && !x.strand
      && (((handled flowState).core 0).blocks.find? x.rix).any (fun b =>
        (b.lr.roles.getD x.role ⟨0, 0xFFFFFFFF, 0, 0⟩).handler == 16)) = true := by decide +kernel

/-- In the handler: a second trap ends the block, and ERET returns. -/
theorem witness_TrapEntryAndReturn_return : Meets inHandler g0 (fun e =>
    e.c == 0 && e.w == 0 && !e.strand && e.warp.hand.any (fun h => !h.strand && e.path.mask == h.mask &&& ~~~(e.warp.exited &&& ~~~h.gone))
      && e.warp.results == [] && (match e.notLast with | .ok _ => true | _ => false)
      && (match e.conv with | .ok _ => true | _ => false)) := meets_of (by decide +kernel)

/-- With a result in flight. -/
theorem witness_TrapEntryAndReturn_waits :
    ((((onWarp (fun w => { w with results := [⟨1, false, 0, .v, [5], 1, [7], 0, 0, 0, [], []⟩] }) flowState).core 0).warps.find? 0).any
      (fun x => !x.strand && x.results != [])) = true := by decide +kernel

/-- Without privilege, and without permission for OPSEL. -/
theorem witness_PrivilegeTraps : Meets (onWarp (fun w => { w with priv := false }) flowState) g0 (fun e =>
    !e.warp.priv && !e.opPerm) := meets_of (by decide +kernel)

/-! ## Hypotheses of the statements: the engines -/

/-- The warp holds accumulator banks 0 and 1, 0 in v and w registers but w5, which holds 64, and a barrier object. -/
def bankState : State :=
  withBar (withW 5 64 (onBlock (fun b => { b with banks := [(0, 2), (1, 3)] }) warpState))

/-- A BF16 step without scales: bank 0 by the fragments in v32 and v48. -/
theorem witness_MatrixStepsStart : Meets bankState g0 (fun e =>
    let f : F2 := ⟨0, 0, 32, 48, 0, 0, false, g0⟩
    let v := SMap.get 0 e.blk.ft 0
    let na := fragRegs (fmtStep v).1 (eltBits (fmtA v))
    let nb := fragRegs (fmtStep v).1 (eltBits (fmtB v))
    e.size == 32 && (match e.bank f.d with | .ok b => b == 2 | .error _ => false) && decide (f.a.toNat < 384)
      && f.a.toNat % 4 == 0 && decide (f.b.toNat < 384) && f.b.toNat % 4 == 0 && e.elected == some 0
      && (match e.entryIndex e.blk f.mod 1 with | .ok i => i == 0 | .error _ => false)
      && e.fragsNow f (e.enter bankState) && e.regRange f.a na 4 && e.regRange f.b nb 4 && !e.blocked (e.phys f.a.toNat na) []
      && !e.blocked (e.phys f.b.toNat nb) [] && [Instr.mms f, .mmsz f].all (fun i =>
        let x := e.entry i true [f.d.toNat] (e.enter bankState)
        let u := e.mxTake x (e.enter bankState)
        e.mxReady x (e.enter bankState) && ((u.core e.c).stepScales e.blk 0 false).isSome
          && ((u.core e.c).stepScales e.blk 0 true).isSome)) := meets_of (by decide +kernel)

/-- MMSG with the record at offset 64, whose address is in w5. -/
theorem witness_MarbledStepReadsItsRecord : Meets bankState g0 (fun e =>
    let f : F2 := ⟨0, 0, 32, 389, 0, 0, false, g0⟩
    let val := e.wread 5
    let off := (val &&& 0xFFFFFFC0).toNat
    let v := SMap.get 0 e.blk.ft 0
    e.size == 32 && (match e.bank f.d with | .ok b => b == 2 | .error _ => false) && decide (f.a.toNat < 384)
      && f.a.toNat % 4 == 0 && isW f.b && e.regRange f.a 16 4 && e.elected == some 0 && !e.blocked [] [f.b.toNat - 384]
      && val.extractLsb' 2 4 == 0 && decide (off + 64 ≤ e.blk.window)
      && !(e.enter bankState).recordClasped e.c e.warp.rix off
      && e.mxReady (e.entry (.mmsg f) true [f.d.toNat] (e.enter bankState)) (e.enter bankState)
      && (match e.entryIndex e.blk f.mod 1 with | .ok i => i == 0 | .error _ => false) && fmtA v == 0 && fmtB v == 0
      && v.extractLsb' 8 2 == 0 && !e.blocked (e.phys f.a.toNat 16) []) := meets_of (by decide +kernel)

/-- ACCRD from bank 0 into v32, ACCWR from v32 to bank 0, ACCCLR of bank 0, ACCADD of bank 1 to bank 0. -/
theorem witness_AccumulatorTransfersStart : Meets bankState g0 (fun e =>
    let f : F2 := ⟨0, 32, 0, 480, 0, 0, false, g0⟩
    let h : F2 := ⟨0, 0, 32, 480, 0, 0, false, g0⟩
    let n := tileRegs f.mod.toNat
    let sel := plainOpnd 5 f.b
    let v := sel.val32 e 0
    let u := e.enter bankState
    let has (c : Code) (b : Nat) : Bool := match e.bank c with | .ok x => x == b | .error _ => false
    e.elected == some 0 && e.size == 32 && e.plainOk 5 f.b && e.quiet [sel] && has 0 2 && has 1 3 && e.regRange 32 n n
      && selLegal v false && selLegal v true && !e.blocked (e.phys 32 n) []
      && e.mxReady (e.entry (.accrd f) false [0] u) u && e.mxReady (e.entry (.accwr h) false [0] u) u
      && e.mxReady (e.entry (.accclr h) false [0] u) u && e.mxReady (e.entry (.accadd ⟨0, 0, 1, 0, 0, 0, false, g0⟩) false [0, 1] u) u)
     := meets_of (by decide +kernel)

/-- FMTSET of entry 0 to BF16 and of the loop map to zeros, from the pair w6 and w7 and from the immediate. -/
theorem witness_FormatTableWrites : Meets bankState g0 (fun e =>
    let f : F2 := ⟨0, 0, 390, 0, 0, 0, false, g0⟩
    let h : FI := ⟨7, 0, 0, 0, false, g0⟩
    let o : Opnd := ⟨5, 9, 0, f.a, true, false⟩
    let u := e.enter bankState
    e.elected == some 0 && decide (f.a.toNat < 448) && f.a.toNat % 2 == 0 && o.ok e && e.quiet [o] && fmtLegal (o.val e 0)
      && mapLegal (o.val e 0) && e.mxReady (e.entry (.fmtset f) false [] u) u && mapLegal (h.imm.setWidth 64)
      && e.mxReady (e.entry (.fmtsetI h) false [] u) u) := meets_of (by decide +kernel)

/-- What the instruction waited for has come. -/
def granted (p : Park) (s : State) : State :=
  onWarp (fun w => { w with pri := { w.pri with granted := [p] } }) s

/-- ACCALLOC of 1 and of 14 banks, the most that are free, ACCFREE of banks 0 and 1. -/
theorem witness_AccumulatorAllocation : Meets (withW 5 1 (withW 6 2 bankState)) g0 (fun e =>
    let u := e.enter (withW 5 1 (withW 6 2 bankState))
    let mxOpen : Bool := match e.mxOpen u with | .ok _ => true | .error _ => false
    let allocNow (n base : Nat) : Bool := !e.path.granted.contains .banks && mxOpen && decide (1 ≤ n ∧ n ≤ 16)
      && e.blk.freeRun n == some base && (u.core e.c).mx.allocq == [] && decide (n ≤ (u.core e.c).freeBanks.length)
    let freeNow (a n : Nat) : Bool := mxOpen && decide (1 ≤ n ∧ n ≤ 16) && decide (a + n ≤ 16)
      && ((List.range n).map (a + ·)).all (fun b => (KMap.find? e.blk.banks b).isSome)
      && (u.core e.c).banksQuiet e.warp.rix u.nonce ((List.range n).map (a + ·))
    e.elected == some 0 && wOk 392 false && e.plainOk 5 389 && e.quiet [plainOpnd 5 389] && e.plainOk 5 390
      && e.quiet [plainOpnd 5 390] && allocNow ((plainOpnd 5 389).val32 e 0).toNat 2 && allocNow 14 2
      && freeNow 0 ((plainOpnd 5 390).val32 e 0).toNat && freeNow 1 1) := meets_of (by decide +kernel)

/-- Both when they repeat, ACCALLOC after its grant and ACCFREE of 1 bank after its wait. -/
theorem witness_AccumulatorAllocation_granted : [Park.banks, .accfree].all (fun p =>
    ((granted p (withW 5 1 bankState)).env g0).any (fun e => !e.edgeMissed && e.elected == some 0 && wOk 392 false
      && e.plainOk 5 389 && e.quiet [plainOpnd 5 389] && e.path.granted.contains p && decide (1 ≤ (1 : BitVec 24).toNat))) = true := by
  decide +kernel

/-- The bytes of a shape record of four 32-bit elements in module memory at address 0, moved in direction dir. -/
def shapeBytes (dir : Nat) : List Byte :=
  natBytes 8 0 ++ natBytes 1 2 ++ natBytes 1 1 ++ natBytes 1 0 ++ natBytes 1 (4 * dir) ++ natBytes 4 4 ++ natBytes 32 0
    ++ natBytes 2 4 ++ natBytes 14 0

/-- A barrier object at offset 0, records at addresses 0x100 (to the core) and 0x200 (from it), the page of module memory at address 0, addresses of
them in the pairs v8 and v10, and 1 in w9 (an element count). -/
def copyState : State :=
  { withBar (withV 8 0x100 (withV 10 0x200 (withW 9 1 pageState))) with
    mem := SMap.setMany 0 (SMap.setMany 0 [] 0x100 (shapeBytes 0)) 0x200 (shapeBytes 1) }

theorem witness_CopyRequestsAccepted : Meets copyState g0 (fun e =>
    let u := e.enter copyState
    let ok (op : CopyOp) (a : Code) (q : CReq → CReq) : Bool :=
      let r := q { (CReq.init op e.warp.rix e.w e.alt e.path.mask) with
        loc := ((plainOpnd 6 480).val32 e 0).toNat, raddr := ((pairOpnd 6 a).val e 0).toNat
        bar := barArg ((plainOpnd 6 480).val32 e 0) }
      match u.prep e.c r e.path.faults with
      | .ok p => u.acceptable e.c p
      | _ => false
    let lst (r : CReq) : CReq := { r with list := (e.wread 8).toNat, n := (e.wread 9).toNat }
    e.settledNow u false && e.elected == some 0 && e.plainOk 6 480 && e.pairOk 6 8 && e.pairOk 6 10
      && e.quiet [plainOpnd 6 480, pairOpnd 6 8, plainOpnd 6 480] && !e.path.granted.contains .engine
      && (u.core e.c).caccept.isEmpty && isW 396 && isW 392 && !e.blocked [] ((List.range 4).map (396 - 384 + ·))
      && !e.blocked [] [8, 9]
      && ok .copy 8 (fun r => { r with coord := coordsOf [] })
      && ok .copy 10 (fun r => { r with coord := coordsOf ((List.range 4).map (fun i => e.wread (12 + i))) })
      && ok .gather 8 lst && ok .scatter 10 lst && ok .scatterAdd 10 lst) := meets_of (by decide +kernel)

theorem witness_CopyRequestsAccepted_granted : Meets (granted .engine copyState) g0 (fun e =>
    e.elected == some 0 && e.plainOk 6 480 && e.pairOk 6 8 && e.quiet [plainOpnd 6 480, pairOpnd 6 8, plainOpnd 6 480]
      && e.path.granted.contains .engine) := meets_of (by decide +kernel)

/-! ## Hypotheses of the statements: lists, marbling, translation, the governor and queues -/

/-- KICK of 1 and of 64 entries at offset 0; PFL2 of 1 and of 2^28 bytes at 0x100 in v8 and v9, with no barrier object and
with one; PFL2.TOK with token 0; CSTAT and MSTAT with selectors 0 to 4. -/
theorem witness_ListsPrefetchesAndStatus : Meets copyState g0 (fun e =>
    let u := e.enter copyState
    let a := plainOpnd 6 480
    let b := plainOpnd 6 393
    let kick (n : Nat) : Bool := decide (1 ≤ n ∧ n ≤ 64 ∧ 0 + 48 * n ≤ e.blk.window)
    e.settledNow u false && e.elected == some 0 && lowest e.act == some 0 && e.plainOk 6 480 && e.plainOk 6 393
      && e.quiet [a, b]
      && (u.core e.c).kick.extractLsb' 25 7 == 0 && decide ((u.core e.c).clasp.length < 64)
      && (a.val32 e 0).toNat % 16 == 0 && kick (b.val32 e 0).toNat && kick 64 && e.pairOk 6 8
      && !e.path.granted.contains .engine && (u.core e.c).caccept.isEmpty
      && e.quiet [plainOpnd 6 480, pairOpnd 6 8, b] && e.quiet [pairOpnd 6 8, b] && wOk 392 false
      && [(1, none), (2 ^ 28, some 0)].all (fun p => (p.2.all (fun x => x % 16 == 0 && decide (x + 16 ≤ e.blk.window)))
        && u.objectOk e.c e.warp.rix e.blk.grid 0 p.2
        && u.acceptable e.c (pflReq e ((pairOpnd 6 8).val e 0).toNat p.1 p.2 none 0))
      && lowest (~~~e.blk.cs.tokens) == some 0 && u.acceptable e.c (pflReq e ((pairOpnd 6 8).val e 0).toNat 1 none (some 0) 8)
      && e.quiet [a] && e.vwOk 392 false && a.val32 e 0 == 0) := meets_of (by decide +kernel)

/-- The other selectors, in w9. -/
theorem witness_ListsPrefetchesAndStatus_selectors :
    ([1, 2, 3, 4] : List W32).all (fun n => ((withW 9 n copyState).env g0).any (fun e => !e.edgeMissed
      && lowest e.act == some 0 && e.plainOk 6 393 && e.quiet [plainOpnd 6 393] && e.vwOk 392 false
      && (plainOpnd 6 393).val32 e 0 == n)) = true := by decide +kernel

/-- SEEDTRY and PROJ in bank 0, SEEDSCAN, FIT, with all addresses 0 but the control word C = 1 in w9; MGEN of seed 1. -/
theorem witness_MarblingRequestsAccepted : Meets (withW 9 16 bankState) g0 (fun e =>
    let u := e.enter (withW 9 16 bankState)
    let val (c : Code) : W32 := (plainOpnd 6 c).val32 e 0
    let fits (q : MReq) : Bool := q.aligned && q.inside e.blk.window && (u.core e.c).marbleWaiting.isEmpty
      && u.objectOk e.c e.warp.rix e.blk.grid 0 q.bar && e.settledNow u false
      && (u.core e.c).marbleFits q
    let q (op : Nat) : MReq := { (MReq.init e op) with
      dst := (val 480).toNat, c := (val 393).toNat / 16 % 32, bank := (val 393).toNat % 16, bar := barArg (val 480)
      target := true }
    let p (op : Nat) : MReq := { (MReq.init e op) with
      dst := (val 480).toNat / 64 * 64, src := (val 480).toNat, bar := barArg (val 480) }
    e.elected == some 0 && !e.path.granted.contains .engine && [480, 393].all (e.plainOk 6)
      && e.quiet [plainOpnd 6 480, plainOpnd 6 393, plainOpnd 6 393, plainOpnd 6 480]
      && e.quiet [plainOpnd 6 480, plainOpnd 6 480, plainOpnd 6 480] && e.ctlOk (val 393) && val 393 != 0
      && fits { q 0 with seed := val 393 } && fits { q 1 with src := (val 480).toNat }
      && (val 480).extractLsb' 1 5 == 0 && fits { p 2 with cfmt := (val 480).getLsbD 0 } && (val 480).extractLsb' 4 2 == 0
      && e.holds ((val 480).toNat % 16) && fits { p 3 with bank := (val 480).toNat % 16, target := true } && wOk 392 false
      && e.quiet [plainOpnd 6 393, plainOpnd 6 480]) := meets_of (by decide +kernel)

theorem witness_MarblingRequestsAccepted_granted : Meets (granted .engine (withW 9 16 bankState)) g0 (fun e =>
    let val (c : Code) : W32 := (plainOpnd 6 c).val32 e 0
    e.elected == some 0 && e.path.granted.contains .engine && [480, 393].all (e.plainOk 6)
      && e.quiet [plainOpnd 6 480, plainOpnd 6 393, plainOpnd 6 393, plainOpnd 6 480]
      && e.quiet [plainOpnd 6 480, plainOpnd 6 480, plainOpnd 6 480] && e.ctlOk (val 393) && val 393 != 0
      && e.holds ((val 480).toNat % 16)) := meets_of (by decide +kernel)

/-- XLATE of addresses that the core holds, and XPROBE; the invalidations and XFLUSH, of the page at 0x10 in v4 and v5, of
1 and of 2^24 units, and of PASID 16. -/
theorem witness_TranslationInstructions : Meets copyState g0 (fun e =>
    let u := e.enter copyState
    let a := pairOpnd 7 4
    let at_ := (lanesOf e.act).map (fun l => (l, (a.val e l).toNat))
    e.vOk 12 false && e.pairOk 7 4 && e.quiet [a] && lanesOf e.act != [] && e.act != 0
      && at_.filter (fun p => (u.xstatus e.c e.blk.pasid p.1 p.2).isNone) == [] && e.elected == some 0 && e.warp.priv
      && !e.path.granted.contains .inval && e.plainOk 7 393 && e.quiet [a, plainOpnd 7 393]
      && decide (1 ≤ ((plainOpnd 7 393).val32 e 0).toNat ∧ ((plainOpnd 7 393).val32 e 0).toNat ≤ 2 ^ 24)
      && e.plainOk 7 4 && e.quiet [plainOpnd 7 4] && ((plainOpnd 7 4).val32 e 0).extractLsb' 20 12 == 0) :=
  meets_of (by decide +kernel)

/-- The largest range. -/
theorem witness_TranslationInstructions_range : Meets (withW 9 0x1000000 copyState) g0 (fun e =>
    decide (1 ≤ ((plainOpnd 7 393).val32 e 0).toNat ∧ ((plainOpnd 7 393).val32 e 0).toNat ≤ 2 ^ 24)) :=
  meets_of (by decide +kernel)

/-- XLATE of an address that no translation covers, and invalidations whose sweep is over. -/
theorem witness_TranslationInstructions_miss : Meets (granted .inval (withV 4 0x20000 copyState)) g0 (fun e =>
    let u := e.enter (granted .inval (withV 4 0x20000 copyState))
    let at_ := (lanesOf e.act).map (fun l => (l, ((pairOpnd 7 4).val e l).toNat))
    e.vOk 12 false && e.pairOk 7 4 && e.quiet [pairOpnd 7 4]
      && at_.filter (fun p => (u.xstatus e.c e.blk.pasid p.1 p.2).isNone) != [] && e.elected == some 0 && e.warp.priv
      && e.path.granted.contains .inval) := meets_of (by decide +kernel)

/-- Points 0 and 7 (w9); a core that is observed and stops at breakpoints; a granted SHASH; configuration word 0 of the
block map; SLIM unchanged; slice 7. -/
def observed : State := granted .shash (withW 9 7 (warpState.setCtl (offObs 0) 0xFFFFFFFF))

theorem witness_GovernorAndObservation : Meets observed g0 (fun e =>
    let u := e.enter observed
    let x := (plainOpnd 7 393).val32 e 0
    e.elected == some 0 && e.plainOk 7 393 && e.quiet [plainOpnd 7 393] && decide (x.toNat < 8) && e.opPerm && u.obsBit e.c 6
      && e.vwOk 8 true && e.path.granted.contains .shash && e.vwOk 392 false && (u.confValue e.c x).isSome && e.warp.priv
      && slimOk x && x.extractLsb' 9 23 == 0 && decide ((7 : BitVec 24).toNat < 8)) := meets_of (by decide +kernel)

/-- BKPT where breakpoints do not stop the core. -/
theorem witness_GovernorAndObservation_trap : Meets (withW 9 7 warpState) g0 (fun e =>
    e.elected == some 0 && e.plainOk 7 393 && e.quiet [plainOpnd 7 393] && !(e.enter (withW 9 7 warpState)).obsBit e.c 6
      && e.who == .path false) := meets_of (by decide +kernel)

/-- The clause of SHASH at issue, where the hash is recorded and where it is only written. -/
theorem witness_GovernorAndObservation_hash : ([0, 0x1FF] : List W32).all (fun o =>
    let s := (warpState.setCtl (offObs 0) o).setCtl offHbctl 3
    (s.env g0).any (fun e => !e.edgeMissed && e.elected == some 0 && e.vwOk 8 true && !e.path.granted.contains .shash
      && e.hashFree (e.enter s))) = true := by decide +kernel

/-- GETSP of every special register, in v8 and (those that no lane has its own of) in w8, SETSP of every one that a
program may write, from v4. -/
theorem witness_SpecialRegistersAndQueues : Meets copyState g0 (fun e =>
    (List.range 0x1B).all (fun c => e.vwOk 8 (spWide c) && (spPerLane c || e.vwOk 392 (spWide c))) && e.act != 0
      && lowest e.act == some 0 && [0x0B, 0x0C, 0x0D, 0x0E, 0x0F, 0x10, 0x11, 0x12, 0x14, 0x15, 0x16].all (fun c =>
        (spPriv c || spUser c) && e.legal [⟨7, 9, 0, 4, spWide c, false⟩] && e.quiet [⟨7, 9, 0, 4, spWide c, false⟩])
      && e.warp.priv && (match e.flagsQuiet with | .ok _ => true | .error _ => false)) := meets_of (by decide +kernel)

/-- Queue q, open to any PASID 0 program, of 1024 records. -/
def queueState (q : Nat) : State := (withW 9 (BitVec.ofNat 32 q) warpState).setCtl (offQueue q + 8) 0x11

theorem witness_SpecialRegistersAndQueues_qsub : ([0, 63] : List Nat).all (fun q =>
    ((queueState q).env g0).any (fun e =>
      let u := e.enter (queueState q)
      let off := ((plainOpnd 7 480).val32 e 0).toNat
      let t := u.bankWords e.c e.warp.rix off 128 (e.bankPort 0).1 0 e.c 0
      let rec_ := u.scratchRead e.c e.warp.rix off 128
      !e.edgeMissed && e.elected == some 0 && wOk 392 false && e.plainOk 7 480 && e.plainOk 7 393
        && e.quiet [plainOpnd 7 480, plainOpnd 7 393] && ((plainOpnd 7 393).val32 e 0).toNat == q
        && off % 128 == 0 && decide (off + 128 ≤ e.blk.window) && (u.qctl q).getLsbD 0 && (u.qctl q).getLsbD 4
        && u.qpasid q == e.blk.pasid && !u.claspHit e.c false off 128 (.scr e.c e.warp.rix off)
        && u.linePresent e.c e.warp.rix (off / 128) && !(rec_.getD 36 0).getLsbD 0 && !t.qfull q)) = true := by
  decide +kernel

/-- The same with the queue full. -/
theorem witness_SpecialRegistersAndQueues_full :
    ({ (queueState 0) with tickets := [(0, (queueState 0).qsize 0)] } : State).qfull 0 = true := by decide +kernel

/-- The hypotheses about a bundle of slots ws with header h. -/
def bundleMeets (s : State) (h : W64) (ws : List W64) : Bool :=
  (s.core 0).strand.any (fun t => ((s.core 0).warps.find? t.warp).any (fun x =>
    ((s.core 0).blocks.find? x.rix).any (fun b =>
      match (decodeSlots ws).bind (assign h t.clusters) with
      | some l =>
        let s0 := { s with sel := ⟨0, t.warp, .core⟩ }
        let next := x.pri.pc + BitVec.ofNat 32 (8 * (1 + ws.length))
        let r := s0.slotStops next l
        hdrOk h ws.length && !wClash l && resourcesOk l && decide (slotsClass l ≤ (h.extractLsb' 56 2).toNat) && r.1.isEmpty && r.2.isEmpty
          && lendCheck t b h next l == none && (!h.getLsbD 43 || t.synced)
          && (!h.getLsbD 43 || (s.core 0).domain.getLsbD ((h.extractLsb' 40 3).toNat - 1))
          && x.pri.done == 0 && (match runSlots s0 next false l (s0.bundleHead 0 t x b h next) with
            | (s4, none) => ((s4.core 0).warps.find? t.warp).any (fun y => decide (y.strandGroups.length ≤ 6272))
            | _ => false)
      | none => false)))

/-- Chapter 2's example: FFMA over cluster 0, IADD in lane 10, MMS (R46), with its bank held and its loop open. -/
theorem witness_BundlesIssueWhole :
    bundleMeets (onCore (fun k => { k with strand := k.strand.map (fun t => { t with loops := [⟨0, 3, 2, false, 16⟩] }) })
      (onBlock (fun b => { b with banks := [(3, 2)] }) (slotState .core)))
      0x0C12_0040_0000_0400 [0x4860_140B_E0FF_C079, 0x8000_0804_0000_0178, 0x6800_0620_1800_0078] = true := by decide +kernel

/-- A bundle of a NOP, with SYNC of level 3, after the line has been released. -/
theorem witness_BundlesIssueWhole_sync :
    bundleMeets (onCore (fun k => { k with domain := 7, strand := k.strand.map (fun t => { t with synced := true }) })
      (strandFlow .core)) 0x0400_0B00_0000_0000 (encode (.nop ⟨0, 0, 0, g0⟩)) = true := by decide +kernel

/-! ## Hypotheses of the statements: events that are due

Each of the following states, of one warp or one strand, has one event due. -/

/-- Core 0 stands at the beginning of a cycle. -/
def beginning (s : State) : State := onCore (fun k => { k with ck := { k.ck with stage := .start } }) s

/-- The warp's path waits. -/
def parked (p : Park) (s : State) : State := onWarp (fun w => { w with pri := { w.pri with park := some p } }) s

/-- A change of the strand. -/
def onStrand (f : Strand → Strand) (s : State) : State := s.modStrand 0 f

/-- A change of the matrix engine, of the copy engine's slot 0, of the marbling engine. -/
def onMx (f : Mx → Mx) (s : State) : State := s.modMx 0 f

@[inherit_doc onMx] def withCopy (q : CReq) (s : State) : State := onCore (fun k => { k with copy := [(0, q)], corder := [0] }) s

@[inherit_doc onMx] def onMarble (f : Marble → Marble) (s : State) : State := onCore (fun k => { k with mar := f k.mar }) s

/-- A result that has its value now. -/
def landed (lock : Bool) : Result := ⟨0, lock, 0, .v, [5], 1, [7], 0, 0, 0, [], []⟩

/-- The warp at the beginning of a cycle; a strand at the beginning of one. -/
def warp0 : State := beginning flowState

@[inherit_doc warp0] def strand0 : State := strandFlow .core

/-- A load of 4 bytes by lane 0 from address 0x5000. -/
def deferredLoad : Access := ⟨.load, 0, 5, 4, false, false, 0, 1, [⟨0, 0x5000, [], []⟩]⟩

theorem witness_WarpEventsTakeEffect :
    (onWarp (fun w => { w with results := [landed false] }) warp0).resultDue 0 ∧
    (onWarp (fun w => { w with results := [landed true] }) warp0).interlockedDue 0 ∧
    (parked .presence warp0).lineDue 0 ∧ (parked (.requests 1) warp0).entryDue 0 ∧ (parked (.nop 0) warp0).readyDue 0 ∧
    (onWarp (fun w => { w with edge := some false }) warp0).edgeDue 0 ∧
    (onWarp (fun w => { w with recs := [⟨0, 0xFFFFFFFF, 8, 0⟩] }) warp0).mergeDue 0 ∧
    (onCore (fun k => { k with floads := [⟨0, false, 0, 0x40, 0, none, 0, none⟩] }) warp0).folldDue 0 ∧
    (parked (.collapse 4 8) warp0).collapseDue 0 ∧ (onStrand (fun t => { t with st := .expand false }) strand0).expandDue 0 ∧
    (onStrand (fun t => { t with deferred := [⟨deferredLoad, 0, 0, false⟩], faults := [(5, 1)] }) strand0).faultDue 0 ∧
    (onStrand (fun t => { t with st := .resume }) strand0).snapDue 0 ∧ (parked (.trap 2 0 1) warp0).trapDue 0 ∧
    (onWarp (fun w => { w with pend := [.mxReset] }) warp0).asyncDue 0 ∧
    (onCore (fun k => { k with domain := 1 }) (parked (.sync 1) warp0)).riseDue 0 ∧
    ({ warp0 with kettles := [(76, ⟨some 0⟩)] } : State).releaseDue 76 := by decide +kernel

/-- The clauses about a result that lands and a loop that goes back. -/
theorem witness_WarpEventsTakeEffect_result :
    (((onWarp (fun w => { w with results := [landed false] }) warp0).core 0).landing false).isSome = true ∧
    (let k := (onWarp (fun w => { w with results := [{ landed false with dest := .accFree, regs := [0] }] }) warp0).core 0
     (k.landing false).any (fun x => x.2.dest == .accFree && (k.warps.find? x.1).any (fun y => (k.blocks.find? y.rix).isSome))) = true ∧
    (((onWarp (fun w => { w with edge := some false }) warp0).core 0).edgeWarp).any (fun p =>
      !p.2.1.bundled && p.2.1.loops.head?.any (fun m => !m.pipe && decide (1 < m.e))) = true := by decide +kernel

/-- The clause about the entry of a trap. -/
theorem witness_WarpEventsTakeEffect_trap : warp0.begun 0 ∧
    (((parked (.trap 2 0 1) warp0).core 0).trapPath).any (fun p => p.1 == 0 && p.2.2.2.park == some (.trap 2 0 1)) = true := by
  decide +kernel

/-- A prefetch of one line, not yet taken; a copy in slot 0 to the window. -/
def prefetch : CReq := { (CReq.init .pfl2 0 0 false 0xFFFFFFFF) with total := 1, todo := [(0, 1)] }

@[inherit_doc prefetch] def copying : CReq := { (CReq.init .copy 0 0 false 0xFFFFFFFF) with total := 4, todo := [(0, 4)] }

/-- A marbling request of operation op. -/
def marbling (op : Nat) : MReq := ⟨op, 0, 0, false, 0xFFFFFFFF, 0, 0, 0, 1, 1, 0, false, none, false, true⟩

/-- An entry of the engine's queue. -/
def mxEntry (i : Option Instr) : MxEntry := ⟨0, i, 0, 0, 0, false, false, false, []⟩

/-- The marbling engine runs the request in slot 0, a search over ten seeds, with a deadline of d cycles. -/
def scanning (since d : Nat) : State :=
  onMarble (fun m => { m with
    slots := [(0, marbling 1)], order := [0]
    run := some ⟨0, .run, [], natBytes 4 1 ++ natBytes 4 10 ++ natBytes 4 d ++ natBytes 4 0, 100, 500, none, 0, 0, since, none⟩ }) warp0

theorem witness_EngineEventsTakeEffect :
    (onCore (fun k => { k with caccept := [prefetch] }) warp0).acceptDue 0 ∧
    (onCore (fun k => { k with kickBy := some (0, 0, 0xFFFFFFFF), kick := 0x2000000 }) warp0).kickDue 0 ∧
    (withCopy copying warp0).moveDue 0 ∧ (withCopy { copying with parts := [⟨0, [], [], .fetch 0⟩] } warp0).returnDue 0 ∧
    (withCopy { copying with parts := [⟨0, [], [], .adds 0⟩] } warp0).landDue 0 ∧
    (withCopy { copying with err := some (0x12, 0) } warp0).errorDue 0 ∧ (withCopy prefetch warp0).pflDue 0 ∧
    (withCopy { copying with paged := true } warp0).pageDue 0 ∧
    (onMx (fun m => { m with queue := [mxEntry (some (.accclr ⟨0, 0, 0, 0, 0, 0, false, g0⟩))] }) (parked .mx flowState)).mxDue 0 ∧
    (onMx (fun m => { m with cur := some ⟨.accclr 0, mxEntry none, 0, 0, 0⟩ }) warp0).occupancyDue 0 ∧
    (onMx (fun m => { m with reading := some ⟨mxEntry none, 0, 0, 0, 0, 0, 1, 1, false, true⟩ }) warp0).recordDue 0 ∧
    (onMx (fun m => { m with allocq := [⟨0, 0, false, 16, 0, 8, 0⟩] }) warp0).allocDue 0 ∧
    (onMx (fun m => { m with freeq := [⟨0, 0, 0, false, [0]⟩] }) warp0).freeDue 0 ∧
    (onMx (fun m => { m with dead := 1024 }) warp0).deadlockDue 0 ∧ (onMx (fun m => { m with reset := 1 }) warp0).resetOver 0 ∧
    (onMx (fun m => { m with queue := [mxEntry none] }) (onMarble (fun m => { m with slots := [(0, marbling 1)] }) warp0)).transferDue 0 ∧
    (onMarble (fun m => { m with accepting := [marbling 2] }) warp0).marbleAcceptDue 0 ∧
    (onMarble (fun m => { m with slots := [(0, marbling 2)], order := [0] }) warp0).marbleStartDue 0 ∧
    (onMarble (fun m => { m with slots := [(0, marbling 2)], order := [0], run := some ⟨0, .run, [], [], 10, 10, none, 0, 0, 0, none⟩ })
      warp0).marbleEndDue 0 ∧
    (scanning 0 0).candidateDue 0 ∧ (scanning 100 50).deadlineDue 0 := by decide +kernel

/-- The clauses that give each event's effect, where the engine may act: requests that fit, a KICK entry of zeros, a part
ready for its line, data that is back, a part that lands in memory, marbling requests that start, run and end. -/
theorem witness_EngineEventsTakeEffect_copies :
    warp0.enginesGo 0 ∧ warp0.begun 0 ∧ warp0.goes ∧ (warp0.core 0).rixRuns 0 ∧ warp0.acceptable 0 prefetch ∧
    (withCopy prefetch warp0).pflNext 0 = some (0, prefetch) ∧
    ((onCore (fun k => { k with kickBy := some (0, 0, 0xFFFFFFFF), kick := 0x2000000 }) warp0).kickDue 0) ∧
    (kickEntry 0 0 0xFFFFFFFF (zeros 48)).isSome ∧ kickEntry 0 0 0xFFFFFFFF (natBytes 48 255) = none ∧
    (withCopy { copying with parts := [⟨0, [], [], .fetch 0⟩] } warp0).returned 0 =
      some (0, { copying with parts := [⟨0, [], [], .fetch 0⟩] }, ⟨0, [], [], .fetch 0⟩) ∧
    (withCopy { copying with parts := [⟨0, [], [], .store 0⟩] } warp0).landable 0 =
      some (0, { copying with parts := [⟨0, [], [], .store 0⟩] }, ⟨0, [], [], .store 0⟩) ∧
    (withCopy { copying with todo := [], parts := [⟨0, [], [], .ready⟩] } warp0).lineFreeNow 0 := by decide +kernel

theorem witness_EngineEventsTakeEffect_matrix :
    ((onMx (fun m => { m with allocq := [⟨0, 0, false, 16, 0, 8, 0⟩] }) warp0).core 0).allocNext.isSome ∧
    ((onMx (fun m => { m with freeq := [⟨0, 0, 0, false, [0]⟩] }) warp0).core 0).freeNext.isSome ∧
    (warp0.core 0).evictee = some 0 ∧ (warp0.core 0).mx.reset = 0 ∧
    (onMx (fun m => { m with reading := some ⟨mxEntry none, 0, 0, 0, 0, 0, 1, 1, false, true⟩ }) warp0).recordNext 0 ≠ none ∧
    (onMx (fun m => { m with reading := some ⟨mxEntry none, 0, 0, 0, 0, 0, 1, 1, false, false⟩ }) warp0).recordStart 0 ≠ none ∧
    (onMx (fun m => { m with queue := [mxEntry none] }) (onMarble (fun m => { m with slots := [(0, marbling 1)] })
      warp0)).transferNext 0 = some (mxEntry none, marbling 1) := by decide +kernel

/-- The engine at the end of an occupancy. -/
def ending (j : MxJob) : State :=
  onMx (fun m => { m with cur := some ⟨j, mxEntry none, 0, 0, 0⟩ }) (onMarble (fun m => { m with slots := [(0, marbling 3)] }) warp0)

theorem witness_EngineEventsTakeEffect_ends :
    [MxJob.step false 0 0 0 0 0 [] [], .step true 15 7 0 0 0 [] [], .accwr 15 15 [], .accclr 15, .accadd 0 15, .fmtset 6 0,
      .fmtset 7 0, .transfer 0 15].all (fun j => (ending j).begun 0
        && ((ending j).core 0).mx.cur.any (fun r => r.left == 0 && r.job == j && (((ending j).core 0).blocks.find? r.entry.rix).isSome)
        && (((ending j).core 0).mar.slots.find? 0).isSome) = true := by decide +kernel

/-- A warp's and a strand's entry whose turn has come. -/
def waits (x : MxEntry) (s : State) : State := onMx (fun m => { m with queue := [x] }) (parked .mx s)

theorem witness_EngineEventsTakeEffect_start :
    (let i : Instr := .accclr ⟨0, 0, 0, 0, 0, 0, false, g0⟩
     let s := waits (mxEntry (some i)) bankState
     s.mxDue 0 && (s.mxStarts 0).any (fun x => !x.strand && x.instr == some i && goesOn
       (exec i { (s.modMx 0 (fun m => m.toFront x)).wake 0 x.warp x.alt with sel := ⟨0, x.warp, .path x.alt⟩ }))) = true ∧
    (let s := waits { mxEntry (some (.accclr ⟨0, 0, 0, 0, 0, 0, false, g0⟩)) with strand := true } strand0
     s.mxDue 0 && (s.mxStarts 0).any (fun x => x.strand)) = true := by decide +kernel

/-- A scatter of one element, which goes out by the order of its list. -/
def outward : CReq :=
  { copying with
    op := .scatter, n := 1, idx := [0]
    shape := { copying.shape with dir := 1, esz := 4, dim := [4], box := [4] } }

/-- It has its turn, and n of its parts go out. -/
def outMoves (n : Nat) (s : State) : Bool :=
  s.moveDue 0 && s.moveNext 0 == some (.out 0 outward)
    && (s.within (s.copyTake 0 0 outward (s.rixPasid 0 outward.rix)) 0 |>.core 0).copy.any (fun r =>
      r.1 == 0 && r.2.parts.length == n)

/-- A list's indices; a part on its way in; nothing but a fetch; a part on its way out that waits for its translation, and
one of a page that the core knows. -/
theorem witness_EngineEventsTakeEffect_moves :
    (let q := { copying with op := .gather, n := 1 }
     (withCopy q warp0).moveDue 0 && (withCopy q warp0).moveNext 0 == some (.index 0 q)) = true ∧
    (let p : CPart := ⟨0, [⟨0, 0, 32, true, 7⟩], [(0, 3)], .ready⟩
     let q := { copying with todo := [], parts := [p] }
     (withCopy q warp0).moveDue 0 && (withCopy q warp0).moveNext 0 == some (.into 0 q p)) = true ∧
    (withCopy copying warp0).moveNext 0 = none ∧ outMoves 0 (withCopy outward warp0) = true ∧
    outMoves 1 (onCore (fun k => { k with tlb := [⟨0, 0, 16, 0, 0, false, false, false, false, false, true, true⟩] })
      (withCopy outward warp0)) = true := by decide +kernel

theorem witness_EngineEventsTakeEffect_marbles :
    (warp0.core 0).marbleFits (marbling 2) ∧
    ((onMarble (fun m => { m with accepting := [marbling 2] }) warp0).core 0).marbleWaiting = [marbling 2] ∧
    (onMarble (fun m => { m with slots := [(0, marbling 2)], order := [0] }) warp0).marbleReady 0 = some (0, marbling 2) ∧
    (warp0.core 0).rixKept 0 ∧ ((scanning 0 0).core 0).running.any (fun p =>
      decide (p.1.stage = .run) && (scanDesc p.1.src).isSome && p.1.candidateDue p.2 ((scanning 0 0).core 0).mar.elems) ∧
    ((scanning 100 50).core 0).running.any (fun p => p.1.deadlineDue p.2 ((scanning 100 50).core 0).mar.elems
      && !p.1.candidateDue p.2 ((scanning 100 50).core 0).mar.elems) := by decide +kernel

/-- A walk in a stage. -/
def walking (stage : Nat) : State :=
  onCore (fun k => { k with walks := [⟨0, 0x5000, false, false, [.path 0 false], stage, 0, false, false, false, false, false, false, false, []⟩] })
    warp0

/-- Grid 0 of the block on core 0, with n blocks left. -/
def gridState (n : Nat) : State :=
  { warp0 with grids := [(0, ⟨0, 0, (placedBlock [0]).lr, 0, 0, 0, [], false, false, 0, 0, none, n, []⟩)] }

/-- An atomic at a slice. -/
def atomicReq : SliceReq := ⟨0, 0, false, 0x100, .atom 0, 4, 0, 0, [1], [], 0, 0x100⟩

/-- Slice 0 replays a log at address 0 of one chunk: three atomics of core 1's warp 0; an atomic of core 0 waits. -/
def replaying : State :=
  { ((warp0.setCtl (offReplay 0) 2).setCtl (offReplay 0 + 0x10) 1) with
    mem := SMap.setMany 0 [] 0 (natBytes 4 (Chunk.word ⟨1, 0, false, 3⟩).toNat)
    slices := [(0, { Slice.init with reqs := [atomicReq] })], time := 2 ^ 60 }

theorem witness_ModuleEventsTakeEffect :
    (onCore (fun k => { k with wb := [⟨0, 0, 0x100, .store [1], false, 0⟩] }) warp0).drainDue 0 ∧
    (onCore (fun k => { k with promo := [⟨1, 0, false, 0⟩] }) warp0).promoDue 0 ∧
    ({ warp0 with slices := [(0, { Slice.init with reqs := [atomicReq] })] } : State).sliceDue 0 ∧
    (onCore (fun k => { k with remote := [⟨1, 0, 0, 0, .load, 4, 0, 0, 0, [], []⟩] }) warp0).remoteDue 0 ∧
    ({ warp0 with admits := [(0, 0)] } : State).admitDue ∧
    ({ (gridState 1) with waiting := [(0, [⟨0, 1, 0, none⟩])] } : State).placeDue 0 ∧
    (onWarp (fun w => { w with exited := 0xFFFFFFFF }) warp0).endDue 0 ∧ (gridState 0).gridDue := by decide +kernel

theorem witness_ModuleEventsTakeEffect_walks :
    (onBlock (fun b => { b with halt := 1 }) warp0).haltDue 0 ∧ (walking 0).walkDue 0 ∧ (walking 1).atsLate 0 ∧
    (walking 2).prgLate 0 ∧ ({ warp0 with invals := [⟨3, none, 0, 0, 0, none, 0⟩] } : State).invalDue := by decide +kernel

theorem witness_ModuleEventsTakeEffect_governor :
    (onCore (fun k => { k with gov := { k.gov with pending := true } }) warp0).settleDue 0 ∧
    (onCore (fun k => { k with gov := { k.gov with blim := 1 }, ck := { k.ck with window := [(5, 0)] } }) warp0).stallDue 0 ∧
    (onCore (fun k => { k with mx := { k.mx with lit := true } }) { warp0 with time := 40 }).slewStepDue ∧
    (onMx (fun m => { m with queue := [{ mxEntry none with heavy := true }] }) { warp0 with slew := [(0, 8)] }).slewDue 0 ∧
    (onMx (fun m => { m with lit := true }) warp0).fillerDue 0 ∧
    (onCore (fun k => { k with gov := { k.gov with hang := 0x80000000 } }) warp0).hangDue 0 ∧
    (onCore (fun k => { k with gov := { k.gov with mxhang := 0x01000000 } }) warp0).mxhangDue 0 := by decide +kernel

theorem witness_ModuleEventsTakeEffect_observation :
    (onCore (fun k => { k with obs := { k.obs with bkpt := some 5 } }) warp0).stopDue 0 ∧
    (onCore (fun k => { k with ck := { k.ck with stage := .done } })
      ((warp0.setCtl (offObs 0) 3).setCtl (offObs 0 + 4) 1)).sampleDue 0 ∧
    ({ (warp0.setCtl offHbctl 3) with hb := ⟨[], [], 0, [], true, [], none⟩ } : State).dropDue ∧
    ({ (warp0.setCtl offHbctl 3) with hb := ⟨[], [], 0, [], false, [(0, [1])], none⟩ } : State).roomDue ∧
    (warp0.setCtl offHbctl 1).syncDue ∧
    ({ warp0 with slices := [(0, { Slice.init with closed := [⟨0, 0, false, 1⟩] })], time := 2 ^ 24 } : State).rlogDue 0 ∧
    (onCore (fun k => { k with hashes := [(0, false, 8, 0, 0)] }) warp0).shashDue 0 := by decide +kernel

theorem witness_ModuleEventsTakeEffect_module :
    ({ warp0 with press := ⟨some 0, false, false, false, false⟩ } : State).pressDue ∧
    ({ warp0 with press := ⟨none, false, false, true, true⟩ } : State).releaseEdgeDue ∧
    ({ warp0 with boot := { warp0.boot with signing := some 0 } } : State).attestDue ∧
    ({ warp0 with qsubs := [⟨3, 0, [], 0, 0, 0⟩] } : State).qsubDue 3 := by decide +kernel

theorem witness_ModuleEventsTakeEffect_gate : replaying.gateDue 0 := by decide +kernel

/-- The block on core 0 takes all registers and is not the highest priority; a preempting grid of priority 3 waits. -/
theorem witness_ModuleEventsTakeEffect_preempt :
    (onBlock (fun b => { b with lr := { b.lr with roles := [⟨0, 16, 32, 48⟩] } })
      { (gridState 1) with
        grids := [(1, ⟨0, 1, { (placedBlock [0]).lr with preempt := true }, 0, 3, 0, [], false, false, 0, 0, none, 1, []⟩)]
        waiting := [(0, [⟨1, 0, 3, none⟩])] }).preemptDue 0 := by decide +kernel

/-- An atomic of a kind at its slice, of a core or (from 576 on) of a peer. -/
def atomicState (k : AccKind) (core : Nat) : State :=
  { warp0 with slices := [(0, { Slice.init with reqs := [{ atomicReq with kind := k, core := core }] })] }

theorem witness_ModuleEventsTakeEffect_atomic :
    ((List.range 8).map AccKind.atom ++ (List.range 8).map AccKind.red ++ [AccKind.cas]).all (fun k => [0, 577].all (fun c =>
      (atomicState k c).sliceDue 0 && ((atomicState k c).nextAtomic 0).any (fun r => !r.eng && r.kind == k && r.core == c
        && (decide (576 ≤ r.core) || (((atomicState k c).core r.core).warps.find? r.warp).isSome)))) = true := by decide +kernel

/-- A grid with one block to place; a block whose warps have all exited, with and without a status word. -/
def placing : State := { (gridState 1) with waiting := [(0, [⟨0, 1, 0, none⟩])] }

@[inherit_doc placing] def exited (bstat : Bool) : State :=
  onBlock (fun b => { b with lr := { b.lr with bstat := bstat, compl := 0x4000 } })
    (onCore (fun k => { k with tlb := [⟨0, 0, 16, 0, 0, false, false, false, false, false, true, true⟩] })
      (onWarp (fun w => { w with exited := 0xFFFFFFFF }) (gridState 1)))

theorem witness_ModuleEventsTakeEffect_blocks :
    (placing.placeDue 0 && (placing.waitList 0).head?.any (fun x => x.saved.isNone && (placing.grids.find? x.grid).any (fun g =>
      !g.lr.fuse && (match placing.loadImages g.pasid ((g.images.zipIdx).map (fun p => (p.2, p.1))) [] with
        | .ok _ => true | .error _ => false)))) = true ∧
    [false, true].all (fun bs => (exited bs).endDue 0 && ((exited bs).endNext 0).any (fun p => p.2.lr.bstat == bs
      && ((exited bs).core 0).blocks.find? p.1 == some p.2 && ((exited bs).grids.find? p.2.grid).any (fun g =>
        match (exited bs).schedPlan g.pasid (p.2.lr.compl + 64 + 4 * p.2.bno) 4 true with | .ok _ => true | _ => false))) = true := by
  decide +kernel

/-- A walk of the page at 0 by tables at 0x10000 and beyond, for nobody; without them, one for a warp. -/
def tabled : State :=
  (({ (onCore (fun k => { k with walks := [⟨0, 0x5000, false, false, [], 0, 0, false, false, false, false, false, false, false, []⟩] })
      warp0) with
    mem := [(0x10000, 0x11001), (0x11000, 0x12001), (0x12000, 0x13001), (0x13000, 0x14001), (0x14000, 0x15001), (0x15000, 3)].foldl
      (fun m p => SMap.setMany 0 m p.1 (natBytes 8 p.2)) [] } : State).setCtl 0xE000 0x10000).setCtl 0xE008 1

theorem witness_ModuleEventsTakeEffect_tables :
    (tabled.goes && (tabled.walkNow 0 0).any (fun w => ((tabled.core 0).tlbHit w.pasid w.va w.write).isNone
      && (tabled.qtlbHit (quireOf 0) w.pasid w.va w.write).isNone && w.who == []
      && (match tabled.walkTables (quireOf 0) w.pasid w.va with
        | .ok f => f.leaf.extractLsb' 6 2 != 1 && !(w.swept (f.tlb w.pasid w.va)).nocache
        | .error _ => false))) = true ∧
    ((walking 0).goes && ((walking 0).walkNow 0 0).any (fun w => (((walking 0).core 0).tlbHit w.pasid w.va w.write).isNone
      && ((walking 0).qtlbHit (quireOf 0) w.pasid w.va w.write).isNone && w.who == [.path 0 false]
      && (match (walking 0).walkTables (quireOf 0) w.pasid w.va with | .ok _ => false | .error _ => true))) = true := by
  decide +kernel

theorem witness_OutsideEventsTakeEffect :
    State.reset.open_ ∧ State.reset.goes ∧ State.reset.boot.powered ∧ (walking 1).atsDue 0 ∧ (walking 2).prgDue 0 := by
  decide +kernel

/-- A load of the warp has its value from host memory, and has not landed. -/
def hostRead : State :=
  onWarp (fun w => { w with results := [⟨1, true, 3, .v, [5], 1, [7], 0, 0, 4, [(0, hostBase, 4)], []⟩] }) warp0

/-- The clauses that give each event's effect: a queue that is enabled, one that is not, one that the host writes; no
invalidation under way; module memory; a stopped core; a slice that records; answers that are waited for; a lost read; a
register; a press asked for, none asked for, one under way; no power. -/
theorem witness_OutsideEventsTakeEffect_clauses :
    ((State.reset.setCtl (offQueue 3 + 8) 1).qctl 3).getLsbD 0 ∧ (State.reset.qctl 63).getLsbD 0 = false ∧
    (State.reset.qctl 0).getLsbD 4 = false ∧ State.reset.tinvBusy = false ∧ isModule 0 ∧ isModule (2 ^ 40 - 1) ≠ isModule hostBase ∧
    ((onCore (fun k => { k with obs := { k.obs with stopped := true } }) warp0).core 0).obs.stopped ∧
    State.reset.rpmode 287 ≠ 1 ∧ (walking 1).awaits 0 1 ≠ none ∧ (walking 2).awaits 0 2 ≠ none ∧
    (hostRead.core 0).outerRead false = some (0, 4, 0, hostBase, 4) ∧ State.reset.boot.signing = none ∧
    State.reset.recovery = false ∧ State.reset.storedBits 0xF000 = some 0xFFFFFFFF ∧
    State.reset.storedBits (offObs 575 + 4) = some 0xFFFFFFFF ∧
    State.reset.press.at_ = none ∧ State.reset.press.pressed = false ∧ State.reset.losePower.boot.powered = false := by
  decide +kernel

/-- A read from a peer's memory that has not landed. -/
def peerRead : State :=
  onWarp (fun w => { w with results := [⟨1, true, 3, .v, [5], 1, [7], 0, 0, 4, [], [(0, peerBase, 4)]⟩] }) warp0

/-- A slice that records, with an open chunk. -/
def recording : State :=
  { (warp0.setCtl (offReplay 3) 1) with slices := [(3, { Slice.init with chunk := some ⟨0, 0, false, 1⟩ })] }

/-- A boot whose next step is n, and which fails with cause err (0: it does not). -/
def boots (n err : Nat) : State := { State.reset with boot := { State.reset.boot with booting := some ⟨n, err, false⟩ } }

/-- A read lost at a peer; a slice in record mode; the pin's own press, before and after its edge; a boot that ends, one
that fails for each cause. -/
theorem witness_OutsideEventsTakeEffect_more :
    (peerRead.core 0).outerRead true = some (0, 4, 0, peerBase, 4) ∧
    (recording.open_ && recording.rpmode 3 == 1 && (recording.slice 3).chunk.isSome && decide ((recording.slice 3).closed.length < 16)
      && recording.slices == [(3, recording.slice 3)] && recording.hb.drops.isEmpty) = true ∧
    [true, false].all (fun pressed =>
      let s : State := { State.reset with press := ⟨some 36, true, true, pressed, false⟩ }
      s.boot.powered && s.press.byPin && s.press.pressed == pressed) = true ∧
    (State.reset.boot.booting.isNone && (boots 1 0).boot.powered && !(boots 7 0).press.pressed && (boots 7 0).inboxNext.isNone
      && SMap.rising 0 (boots 1 1).ctl && [1, 2, 3, 4, 5, 6].all (fun err => (boots (bootFails err) err).inboxNext.isNone)) = true := by
  decide +kernel

/-! ## Hypotheses of the statements: decoding, memory, steps -/

theorem witness_DecodeEncodeRoundTrip : (Instr.iadd f2).wf = true ∧ encode (.iadd f2) ≠ [] ∧
    (Instr.bundle 0x0400_0000_0000_0000 [0]).wf = true ∧ (Instr.bundle 0x8800_0000_0000_0000 (List.replicate 34 0)).wf = true ∧
    Instr.pressCmd.wf = true ∧ encode .pressCmd = [] := by decide

theorem witness_DecodedIsWellFormed : decode 0x4800_0202_0180_0678 = .ok (.fadd ⟨0, 1, 2, 3, 0, 6, false, g0⟩) ∧
    decodeBundle 0x0400_0000_0000_0000 (encode (.nop ⟨0, 0, 0, g0⟩)) =
      .ok (.bundle 0x0400_0000_0000_0000 (encode (.nop ⟨0, 0, 0, g0⟩))) := by decide

/-- It is enough that no place computed holds the address. -/
theorem outside_of {e : Env} {a : Access} {s : State} {x : Nat} (h : (meetsPlaces (e.lsMeets a s)).all (fun p =>
    match p.2 with | .glob pa _ => decide (x < pa ∨ pa + a.n ≤ x) | _ => true) = true) : e.Outside a s x := by
  intro p hp pa t hq
  have := List.all_eq_true.1 h p hp
  simpa [hq] using this

/-- Instructions that store nothing, transfers with few records, stores of 4 bytes at address
16, and the drain of a write buffer. -/
theorem witness_MemoryFrame : goesOn (exec (.iadd f2) warpState) = true ∧ storesNothing (.iadd f2) = true ∧
    nextHas (exec (.bra ⟨0, 0, 8, gq⟩) flowState) (fun t =>
      ((t.core 0).warps.find? 0).any (fun y => decide (y.allRecs.length ≤ 16))) = true ∧
    goesOn (exec (.bundle 0x0400_0000_0000_0000 (encode (.nop ⟨0, 0, 0, g0⟩))) (strandFlow .core)) = true ∧
    goesOn (exec (.st ⟨2, 4, 8, 12, 0, 5, 0, g0⟩) pageState) = true ∧
    goesOn (exec (.stI ⟨2, 4, 8, 0, 0, 5, g0⟩) pageState) = true ∧
    goesOn (exec (.stRel ⟨2, 4, 8, 12, 0, 5, 0, g0⟩) pageState) = true ∧
    goesOn (exec (.stRelI ⟨2, 4, 8, 0, 0, 5, g0⟩) pageState) = true ∧
    goesOn (exec (.writeBufferDrain 0) (onCore (fun k => { k with wb := [⟨0, 0, 0x100, .store [1], false, 0⟩] }) warp0)) = true := by
  decide +kernel

/-- The bytes on both sides of such a store. -/
theorem witness_MemoryFrame_outside : Meets pageState g0 (fun e => [15, 20].all (fun x =>
    let a := accessOf .store 0 5 4 false false 0 (lanesOf e.act) (fun l => effAddr 0 ((lsAddr 0 noPort 4).val e l) (idxOff 12 e l))
      (e.dataWords 8 1) (fun _ => [])
    (meetsPlaces (e.lsMeets a (e.enter pageState))).length == 32
      && (meetsPlaces (e.lsMeets a (e.enter pageState))).all (fun p =>
        match p.2 with | .glob pa _ => decide (x < pa ∨ pa + a.n ≤ x) | _ => true))) := meets_of (by decide +kernel)

theorem witness_MemoryStaysCanonical : State.reset.Canonical ∧ goesOn (step State.reset) = true ∧
    State.Canonical copyState ∧ goesOn (step copyState) = true :=
  ⟨(by decide +kernel : Memory.wf State.reset.mem = true), by decide +kernel, (by decide +kernel : Memory.wf copyState.mem = true), by decide +kernel⟩

/-- The state after the reset with an IADD placed at the next step: the turn is core 0's, which is about to select. -/
def placed (nbits w : Nat) : State := State.reset.withFetchWord nbits w

theorem witness_StepRunsDecoded :
    let s := placed 64 0x4000_0A03_022C_0812
    s.inboxNext.isNone = true ∧ s.dueEvent.isNone = true ∧
    s.turn.any (fun p => p.1 == 0 && p.2.ck.stage == .simt) = true ∧ (s.core 0).ck.align.isNone = true ∧
    ((s.core 0).warps.find? 0).any (fun x => ((s.core 0).blocks.find? x.rix).any (fun b =>
      !x.bundled && (match b.fetchWords (x.path false) with | .ok l => l == [0x4000_0A03_022C_0812] | .error _ => false))) = true ∧
    (s.core 0).ck.span.isEmpty = true ∧ (s.core 0).obs.bkpt.isNone = true ∧
    (s.select 0).any (fun y => y.warp == 0 && !y.alt) = true := by decide +kernel

/-- The same of a bundle. -/
theorem witness_StepRunsDecoded_bundle :
    let s := placed 128 (0x0400_0000_0000_0000 + 2 ^ 64 * ((encode (.nop ⟨0, 0, 0, g0⟩)).headD 0).toNat)
    s.inboxNext.isNone = true ∧ s.dueEvent.isNone = true ∧
    s.turn.any (fun p => p.1 == 0 && p.2.ck.stage == .start) = true ∧ (s.core 0).ck.align.isNone = true ∧
    s.frozen 0 = false ∧ (s.core 0).strand.any (fun t => t.warp == 0 && ((s.core 0).warps.find? 0).any (fun x =>
      s.strandMay 0 t x && x.bundled && ((s.core 0).blocks.find? x.rix).any (fun b =>
        match b.fetchWords x.pri with
        | .ok (h :: l) => h == 0x0400_0000_0000_0000 && decide (hdrSlots h ≤ l.length)
        | _ => false))) = true := by decide +kernel

/-! ## Words that the spec works out

Each instruction is written out from the fields that the spec's own table beside the word names. -/

/-- The guard of a line marked !sw: TAIL 10. -/
def sw : Guard := ⟨15, false, 2⟩

theorem test_decode_integer : decode 0x4000_0A03_022C_0812 = .ok (.iadd ⟨0, 5, 3, 4, 0x581, 0, false, ⟨2, false, 2⟩⟩) ∧
    decode 0x84A4_0E00_FFFF_FD78 = .ok (.movi ⟨1, 7, 0, 0xFFFFFD, false, g0⟩) ∧
    decode 0x4428_2804_0380_007A = .ok (.lea ⟨2, 20, 4, 7, 0, 0, false, sw⟩) ∧
    decode 0x4440_0203_01D4_097A = .ok (.icmp ⟨0, 1, 3, 3, 0xA81, 1, false, sw⟩) ∧
    decode 0x44CB_0401_0000_007A = .ok (.vote ⟨2, 386, 1, 0, 0, 0, false, sw⟩) ∧
    decode 0x8000_140A_0000_0478 = .ok (.iaddI ⟨0, 10, 10, 4, false, g0⟩) := by decide

theorem test_decode_float : decode 0x4860_1402_0182_8078 = .ok (.ffma ⟨0, 10, 2, 3, 10, 0, false, g0⟩) ∧
    decode 0x4800_0202_0180_0678 = .ok (.fadd ⟨0, 1, 2, 3, 0, 6, false, g0⟩) ∧
    decode 0x4990_1000_0000_0078 = .ok (.fcvt ⟨4, 8, 0, 0, 0, 0, false, g0⟩) ∧
    decode 0x5000_0A04_0000_0078 = .ok (.rcp ⟨0, 5, 4, 0, 0, 0, false, g0⟩) := by decide

theorem test_decode_loadStore : decode 0x9828_1804_0002_0478 = .ok (.stI ⟨2, 12, 4, 32, 1, 0, g0⟩) ∧
    decode 0x5808_0E0A_F020_0040 = .ok (.ld ⟨2, 7, 10, 480, 1, 0, 0, ⟨8, false, 0⟩⟩) ∧
    decode 0x9868_0604_0000_82FA = .ok (.ldAcqI ⟨2, 3, 4, 8, 0, 5, sw⟩) ∧
    decode 0x58B8_0C04_0494_007A = .ok (.atom ⟨6, 6, 4, 9, 0, 5, 0, sw⟩) ∧
    decode 0x5810_1804_F000_0078 = .ok (.ld ⟨4, 12, 4, 480, 0, 0, 0, g0⟩) := by decide

theorem test_decode_control : decode 0xE100_0000_0000_1478 = .ok (.modeCollapse ⟨0, 0, 0x0000000A, g0⟩) ∧
    decode 0xE0C7_C000_14C0_2E78 = .ok (.loopPipe ⟨1, 480, 0x000A6017, g0⟩) ∧
    decode 0xE0C3_C000_0400_4E78 = .ok (.loop ⟨0, 480, 0x00020027, g0⟩) ∧
    decode 0xE0C3_1400_0000_1478 = .ok (.loop ⟨0, 394, 10, g0⟩) ∧
    decode 0xE120_0000_0000_0278 = .ok (.sync ⟨0, 0, 1, g0⟩) := by decide

theorem test_decode_matrix : decode 0x6800_0620_1800_0078 = .ok (.mms ⟨0, 3, 32, 48, 0, 0, false, g0⟩) ∧
    decode 0x6900_0028_0000_0078 = .ok (.fmtset ⟨0, 0, 40, 0, 0, 0, false, g0⟩) ∧
    decode 0xA91C_0000_0000_0A78 = .ok (.fmtsetI ⟨7, 0, 0, 0x00000A, false, g0⟩) ∧
    decode 0xA863_0A00_0000_0478 = .ok (.accallocI ⟨0, 389, 0, 4, false, g0⟩) ∧
    decode 0x68A0_1000_F000_007A = .ok (.accrd ⟨0, 8, 0, 480, 0, 0, false, sw⟩) ∧
    decode 0x6840_0220_C380_0078 = .ok (.mmsg ⟨0, 1, 32, 391, 0, 0, false, g0⟩) := by decide

theorem test_decode_engines : decode 0x7000_5018_F000_0078 = .ok (.copy ⟨0, 40, 24, 480, 0, 0, false, g0⟩) ∧
    decode 0x7040_561E_CB00_0078 = .ok (.gather ⟨0, 43, 30, 406, 0, 0, false, g0⟩) ∧
    decode 0x70A0_1FE0_0000_007A = .ok (.cstat ⟨0, 15, 480, 0, 0, 0, false, sw⟩) ∧
    decode 0x7420_2815_0B78_0078 = .ok (.seedscan ⟨0, 20, 21, 22, 480, 0, false, g0⟩) ∧
    decode 0x7440_2E19_F000_0078 = .ok (.fit ⟨0, 23, 25, 480, 0, 0, false, g0⟩) ∧
    decode 0x7483_0B84_F000_0078 = .ok (.mgen ⟨0, 389, 388, 480, 0, 0, false, g0⟩) := by decide

theorem test_decode_system : decode 0x7E03_1214_C400_0078 = .ok (.qsub ⟨0, 393, 20, 392, 0, 0, false, g0⟩) ∧
    decode 0x7800_1404_0000_0078 = .ok (.xlate ⟨0, 10, 4, 0, 0, 0, false, g0⟩) ∧
    decode 0x7820_1604_0000_007A = .ok (.xprobe ⟨0, 11, 4, 0, 0, 0, false, sw⟩) ∧
    decode 0x7840_0004_0000_0078 = .ok (.xinvPage ⟨0, 0, 4, 0, 0, 0, false, g0⟩) ∧
    decode 0xBA00_0000_0000_0778 = .ok (.pclassI ⟨0, 0, 0, 7, false, g0⟩) ∧
    decode 0xBA20_0000_0000_0578 = .ok (.opselI ⟨0, 0, 0, 5, false, g0⟩) ∧
    decode 0xBC00_0000_0000_5578 = .ok (.tmarkI ⟨0, 0, 0, 0x55, false, g0⟩) ∧
    decode 0xBC20_0000_0000_0778 = .ok (.bkptI ⟨0, 0, 0, 7, false, g0⟩) ∧
    decode 0x7C40_11E1_0000_007A = .ok (.shash ⟨0, 8, 481, 0, 0, 0, false, sw⟩) ∧
    decode 0x7C60_07E0_0000_0078 = .ok (.confrd ⟨0, 3, 480, 0, 0, 0, false, g0⟩) ∧
    decode 0x7C84_0784_0000_0078 = .ok (.rpctlRec ⟨1, 3, 388, 0, 0, 0, false, g0⟩) := by decide

/-- Chapter 2's bundle: a vector slot of cluster 0, a slot of lane 10, a core slot. -/
theorem test_decode_bundle : (decodeSlots [0x4860_140B_E0FF_C079, 0x8000_0804_0000_0178, 0x6800_0620_1800_0078]).bind
      (fun l => (assign 0x0C12_0040_0000_0400 4 l).map (fun r => r.map (fun p => (p.1, p.2.instr)))) =
    some [(.vector 0 1, .ffma ⟨0, 10, 11, 449, 511, 0, false, ⟨15, false, 1⟩⟩), (.lane 10, .iaddI ⟨0, 4, 4, 1, false, g0⟩),
      (.core, .mms ⟨0, 3, 32, 48, 0, 0, false, g0⟩)] := by decide

/-- The move form, from R27's table: KIND 00, XC 1, SCL 01, SLN 010, DPORT 0, D 5, A 3, PRED 1111. And the three-source
form of the LS unit: `CAS.dev v6, [v4:v5+0], v9, v10` with KIND 01, UNIT 3, OP 06, D 6, A 4, B 9, SCOPE 5, C 10. -/
theorem test_decode_forms : decode 0x2A00_0A03_0000_0078 = .ok (.mov ⟨true, 1, 2, 0, 5, 3, 0, g0⟩) ∧
    decode 0x58C0_0C04_0494_1478 = .ok (.cas ⟨0, 6, 4, 9, 0, 5, 10, g0⟩) := by decide

/-! ## Ill-formed terms -/

/-- Every term of the list is refused. -/
def refused (l : List Instr) : Bool := l.all (fun i => !i.wf)

/-- The same fields with another guard. -/
def badGuard : Guard := ⟨15, true, 0⟩

/-- R44, R40, R65, R28: the guard 1111 with PN 1, a source modifier without a class, one with LOGS 6, a predicate field with
bits above its number, unused fields that are not zero, AMOD where there is none, PLOP's table of nine bits. -/
theorem test_illFormed_fields : refused [.iadd { f2 with g := badGuard }, .iadd { f2 with amod := 1 },
    .iadd { f2 with amod := 0x700 }, .icmp { f2 with d := 16 }, .not { f2 with b := 1 }, .vote { f2 with d := 384, a := 1, b := 1 },
    .fsetmode { f2 with d := 1, b := 0 }, .fgetmode { f2 with a := 1, b := 0 }, .vote { f2 with d := 384, a := 1, b := 0, amod := 0x400 },
    .plop { f2 with d := 1, a := 1, b := 1, amod := 0x100 }] = true := by decide

/-- MOD, RND and NF of every form (R27, R50). -/
theorem test_illFormed_forms : refused [.and { f2 with mod := 1 }, .iadd { f2 with rnd := 1 }, .iadd { f2 with nf := true },
    .fadd { f2 with mod := 4 }, .fadd { f2 with rnd := 7 }, .imad { f3 with mod := 2 }, .imad { f3 with rnd := 1 },
    .imad { f3 with nf := true }, .imad { f3 with g := badGuard }, .ffma { f3 with rnd := 7 }, .movi { fI with mod := 0, a := 0 },
    .movi { fI with mod := 1 }, .iaddI { fI with nf := true }, .iaddI { fI with g := badGuard }, .pclassI { fI with d := 1, a := 0 },
    .rcp { f2 with b := 0, rnd := 1 }] = true := by decide

/-- SPACE, SCOPE and HINT (R172, R177). -/
theorem test_illFormed_loadStore : refused [.ld ⟨6, 5, 4, 480, 0, 0, 0, g0⟩, .ld ⟨2, 5, 4, 480, 3, 0, 0, g0⟩, .ld ⟨2, 5, 4, 480, 0, 7, 0, g0⟩,
    .ld ⟨2, 5, 4, 480, 1, 4, 0, g0⟩, .ld ⟨2, 5, 4, 480, 2, 1, 0, g0⟩, .ld ⟨2, 5, 4, 480, 0, 0, 5, g0⟩, .ld ⟨2, 5, 4, 480, 1, 0, 1, g0⟩,
    .ld ⟨2, 5, 4, 480, 0, 0, 0, badGuard⟩, .ldAcq ⟨2, 5, 4, 480, 0, 0, 0, g0⟩, .ldRacq ⟨2, 5, 4, 480, 0, 4, 0, g0⟩,
    .fenceFull ⟨0, 0, 0, 0, 1, 1, 0, g0⟩, .fenceFull ⟨0, 0, 0, 0, 0, 0, 0, g0⟩, .fenceFull ⟨0, 0, 0, 0, 0, 1, 1, g0⟩,
    .arrive ⟨0, 392, 4, 5, 1, 1, 0, g0⟩, .barinit ⟨0, 0, 4, 5, 1, 1, 0, g0⟩, .cctlInvl ⟨0, 0, 4, 0, 1, 0, 0, g0⟩,
    .tryph ⟨0, 16, 4, 5, 1, 2, 0, g0⟩, .pres ⟨0, 16, 4, 0, 1, 0, 0, g0⟩, .red ⟨0, 4, 5, 1, 0, 5, 0, g0⟩,
    .cas ⟨1, 5, 4, 6, 0, 5, 7, g0⟩, .cas ⟨0, 5, 4, 6, 0, 0, 7, g0⟩, .cas ⟨0, 5, 4, 6, 0, 5, 7, badGuard⟩,
    .ldI ⟨6, 5, 4, 0, 0, 0, g0⟩, .ldI ⟨2, 5, 4, 0, 3, 0, g0⟩, .ldI ⟨2, 5, 4, 0, 0, 0, badGuard⟩] = true := by decide

/-- The control form: MOD, A, the guard of lanes and its absence, and what each immediate admits (R116 to R148). -/
theorem test_illFormed_control : refused [.bra ⟨1, 0, 8, g0⟩, .bra ⟨0, 1, 8, g0⟩, .bra ⟨0, 0, 8, badGuard⟩, .loop ⟨0, 480, 1, gq⟩,
    .brx ⟨0, 4, 8, g0⟩, .callx ⟨0, 4, 8, g0⟩, .ret ⟨0, 4, 8, g0⟩, .brk ⟨0, 0, 8, g0⟩, .loop ⟨0, 480, 0, g0⟩, .loop ⟨0, 480, 0x1001, g0⟩,
    .loopPipe ⟨1, 480, 0xE001, g0⟩, .loopPipe ⟨1, 480, 0x1001, g0⟩, .loopPipe ⟨1, 480, 0x2000, g0⟩, .rotset ⟨0, 0, 1, g0⟩,
    .modeCollapse ⟨0, 0, 3, g0⟩, .modeCollapse ⟨0, 0, 4, g0⟩, .modeExpand ⟨1, 0, 1, g0⟩, .sync ⟨0, 0, 0, g0⟩, .sync ⟨0, 0, 4, g0⟩,
    .exit ⟨0, 0, 1, g0⟩, .eret ⟨0, 0, 1, g0⟩, .nop ⟨0, 0, 0x10000, g0⟩, .yield ⟨0, 0, 1, g0⟩, .folld ⟨0, 384, 16, g0⟩,
    .folfree ⟨0, 0, 16, g0⟩, .domset ⟨0, 384, 1, g0⟩, .elect ⟨0, 16, 0, 0, 0, 0, false, g0⟩] = true := by decide

/-- What single instructions check: ICMP's condition, ISEL's and PLOP's predicates, conversions, reductions (R65, R77 to
R79, R81, R85, R107, R109, R111), moves to ports (R31), and a header whose count is not that of its slots (R46). -/
theorem test_illFormed_instructions : refused [.icmp { f2 with d := 1, rnd := 6 }, .icmpI { fI with d := 0x61 }, .icmpI { fI with d := 0x81 },
    .isel { f3 with c := 16 }, .plop { f2 with d := 16, a := 1, b := 1 }, .plop { f2 with d := 1, a := 16, b := 1 },
    .plop { f2 with d := 1, a := 1, b := 16 }, .cvti { f2 with b := 0 }, .cvti { f2 with b := 2 }, .cvti { f2 with b := 8 },
    .iredw { f2 with b := 6 }, .fcmp { f2 with d := 16 }, .fcmpI { fI with d := 16 }, .fcvt { f2 with b := 0 }, .fcvt { f2 with mod := 3, b := 1 },
    .f2i { f2 with b := 2 }, .f2i { f2 with mod := 1, b := 6 }, .i2f { f2 with b := 2 }, .fredw { f2 with b := 3 },
    .fredw { f2 with b := 1, rnd := 1 }, .fredw { f2 with b := 0, rnd := 6 }, .mov ⟨false, 0, 0, 12, 0, 3, 0, g0⟩, .mov ⟨false, 0, 0, 1, 5, 3, 0, g0⟩,
    .mov ⟨false, 0, 0, 0, 5, 3, 1, g0⟩, .mov ⟨false, 0, 0, 0, 5, 3, 0, badGuard⟩, .bundle 0x0400_0000_0000_0000 [0, 0],
    .bundle 0x8C00_0000_0000_0000 (List.replicate 35 0), .bundle 0 []] = true := by decide

/-- Events name a core, a queue, a slice, a kettle line, a gathering, a stack, a PASID, an address that exists. -/
theorem test_illFormed_events : refused [.resultLands 576, .warpReady 576, .mxStart 576, .marbleStart 576, .copyAccept 576, .walk 576,
    .sample 576, .preciseStop 576, .qwpWrite 64 0, .qctlWrite 64 0, .qsubRecordWritten 64, .sliceAtomic 512, .rpmodeRecord 512,
    .gateTimeout 512, .kettleLineRise 77, .kettleRelease 77, .slewWrite 72 false false 0, .dramRefresh 8, .eccScrubForced 8,
    .hostInvPage (2 ^ 20), .hostInvPasid (2 ^ 20), .powerOn 7, .warmReset false 7, .controlRegisterWrite (2 ^ 20) ⟨0, true⟩] = true := by
  decide

/-! ## Single steps whose results the spec works out -/

/-- v register r holds x lane by lane. -/
def withLanes (r : Nat) (x : Nat → W32) : State → State :=
  onWarp (fun w => { w with v := (List.range 32).foldl (fun m l => SMap.set 0 m (32 * r + l) (x l)) w.v })

/-- What the warp of the next state holds. -/
def warpHas (o : Host.Outcome State Fault Refusal) (p : Warp → Bool) : Bool :=
  nextHas o (fun t => ((t.core 0).warps.find? 0).any p)

/-- The values of the first result in flight, lanes ascending; of a pair, low and high word in turn. -/
def vals (w : Warp) : List W32 := match w.results with | r :: _ => r.vals | [] => []

/-- MOVI v7, -3: every active lane receives 0xFFFFFFFD (chapter 2). -/
theorem test_movi : warpHas (exec (.movi ⟨1, 7, 0, 0xFFFFFD, false, g0⟩) warpState)
    (fun w => vals w == List.replicate 32 0xFFFFFFFD) = true := by decide +kernel

/-- The IADD of chapter 2: lane 7 reads lane 0 of its segment, and lane 15 lane 8. -/
theorem test_iadd_rotates : warpHas (exec (.iadd ⟨0, 5, 3, 4, 0x581, 0, false, sw⟩)
      (withLanes 3 (fun l => BitVec.ofNat 32 l) (withV 4 100 warpState)))
    (fun w => (vals w)[7]? == some 100 && (vals w)[15]? == some 108 && (vals w)[0]? == some 101) = true := by decide +kernel

/-- The LEA of chapter 3, lane 1: the index -1 is extended, and the borrow reaches the high register. -/
theorem test_lea_borrows : warpHas (exec (.lea ⟨2, 20, 4, 7, 0, 0, false, sw⟩)
      (withV 5 0x7F01 (withLanes 7 (fun l => if l = 0 then 1507 else 0xFFFFFFFF) warpState)))
    (fun w => (vals w).take 4 == [0x178C, 0x7F01, 0xFFFFFFFC, 0x7F00]) = true := by decide +kernel

/-- IDOT4 of chapter 3: -16,236 is added to C. -/
theorem test_idot4 : (fnDot4 4 0x80FF0302 0x7F020405 9).setWidth 32 = BitVec.ofInt 32 (9 - 16236) := by decide

/-- The corners of division, from the table of R69. -/
theorem test_division_corners : (onElements (fun x y => if y = 0 then -1 else x.tdiv y) 0 5 0).setWidth 32 = (0xFFFFFFFF : W32) ∧
    (onElements (fun x y => if y = 0 then x else x.tmod y) 0 5 0).setWidth 32 = (5 : W32) ∧
    (onElements (fun x y => if y = 0 then -1 else x.tdiv y) 0 0x80000000 0xFFFFFFFF).setWidth 32 = (0x80000000 : W32) := by decide

/-- The ballot of chapter 3: lanes 12, 13 and 28 differ from their neighbours; lane 29 is inactive. -/
theorem test_icmp_neighbours : warpHas (exec (.icmp ⟨0, 1, 3, 3, 0xA81, 1, false, sw⟩)
      (onWarp (fun w => { w with pri := { w.pri with mask := 0xDFFFFFFF } })
        (withLanes 3 (fun l => if l = 29 then 50 else if l = 13 then 99 else BitVec.ofNat 32 (l / 2)) warpState)))
    (fun w => vals w == [0x10003000]) = true := by decide +kernel

/-- VOTE.BALLOT leaves the inactive lane out. -/
theorem test_vote_ballot : warpHas (exec (.vote ⟨2, 386, 1, 0, 0, 0, false, sw⟩)
      (onWarp (fun w => { w with q := SMap.set 0 w.q 1 0x30003000, pri := { w.pri with mask := 0xDFFFFFFF } }) warpState))
    (fun w => vals w == [0x10003000]) = true := by decide +kernel

/-- FADD.f32.rs of chapter 4: seed 5 draws 0x6DB7, the sum is cut to 1.0, and the generator is left at 0x6DAC6DC1. -/
theorem test_fadd_stochastic : warpHas (exec (.fadd ⟨0, 1, 2, 3, 0, 6, false, g0⟩)
      (withV 2 0x3F800000 (withV 3 0x33900000 (onWarp (fun w => { w with
        seed := SMap.set 0 w.seed 0 5, pri := { w.pri with mask := 1 } }) warpState))))
    (fun w => (w.results.map (fun r => r.vals)).contains [0x3F800000] && SMap.get 0 w.seed 0 == 0x6DAC6DC1) = true := by
  decide +kernel

/-- FCVT.e4m3x4.f32 of chapter 4: 0x7F007F38, with the flags OF, UF and IX. -/
theorem test_fcvt_e4m3 : warpHas (exec (.fcvt ⟨4, 8, 0, 0, 0, 0, false, g0⟩)
      (withV 0 0x3F800000 (withV 1 0x43FA0000 (withV 2 0x3A800000 (withV 3 0x7FC00000
        (onWarp (fun w => { w with pri := { w.pri with mask := 1 } }) warpState))))))
    (fun w => (w.results.map (·.vals)).contains [0x7F007F38] && (w.results.map (·.vals)).contains [0x07]) = true := by
  decide +kernel

/-- MGEN w5, w4, $zero with w4 = 5: w5[15:0] = 0x6DB7 (R313). -/
theorem test_mgen : warpHas (exec (.mgen ⟨0, 389, 388, 480, 0, 0, false, g0⟩) (withW 4 5 warpState))
    (fun w => (vals w).map (fun x => x.extractLsb' 0 16) == [0x6DB7]) = true := by decide +kernel

/-- LOOP.PIPE 10, 4, end=last of chapter 5, at offset 0: the loop starts after it, runs 13 times, and q8 is set. -/
theorem test_loopPipe : warpHas (exec (.loopPipe ⟨1, 480, 0x000A6017, g0⟩) warpState)
    (fun w => w.loops.map (fun l => (l.q, l.e, l.pipe, l.len)) == [(8, 13, true, 23)] && SMap.get 0 w.q 8 == 0xFFFFFFFF) = true := by
  decide +kernel

/-- A split branch (R132): the lanes that take it stand at the target, the others after the branch. -/
theorem test_bra_splits : warpHas (exec (.bra ⟨0, 0, 16, gq⟩) (onWarp (fun w => { w with loops := [] }) flowState))
    (fun w => [(w.pri.pc, w.pri.mask), (w.alt.pc, w.alt.mask)].contains (16, 0xFFFF)
      && [(w.pri.pc, w.pri.mask), (w.alt.pc, w.alt.mask)].contains (8, 0xFFFF0000)) = true := by decide +kernel

/-- TRAP 0x80 at offset 0 with a handler at 16 (R159, R160): its path waits with the cause, the next instruction and the lanes;
the entry then sets them, gives privilege and goes to the handler. -/
theorem test_trap_enters : (match exec (.trap ⟨0, 0, 0x80, g0⟩) (handled flowState) with
    | .next t => warpHas (exec (.trapEntry 0) (beginning t)) (fun w => w.trapcause == 0x80 && w.trappc == 8
        && w.traplanes == 0xFFFFFFFF && w.priv && w.pri.pc == 16 && w.hand.isSome)
    | _ => false) = true := by decide +kernel

/-- ERET (R161) goes back to %trappc with the program's state. -/
theorem test_eret_returns : warpHas (exec (.eret ⟨0, 0, 0, g0⟩) inHandler) (fun w => w.hand.isNone && w.pri.pc == 0) = true := by
  decide +kernel

/-- A store, when its buffer entry drains, writes its bytes at its address, least significant first. -/
theorem test_store_drains : nextHas (exec (.writeBufferDrain 0)
      (onCore (fun k => { k with wb := [⟨0, 0, 0x100, .store [0x78, 0x56, 0x34, 0x12], false, 0⟩] }) warp0))
    (fun t => t.readNat 0x100 4 == 0x12345678 && (t.core 0).wb == []) = true := by decide +kernel

/-- A result lands in its register (R128). -/
theorem test_result_lands : warpHas (exec (.resultLands 0) (onWarp (fun w => { w with results := [landed false] }) warp0))
    (fun w => SMap.get 0 w.v (32 * 5) == 7 && w.results == []) = true := by decide +kernel

/-- A step runs the word at the pc: chapter 2's MOVI. -/
theorem test_step_runs : warpHas (step (placed 64 0x84A4_0E00_FFFF_FD78))
    (fun w => vals w == List.replicate 32 0xFFFFFFFD && w.pri.pc == 8) = true := by decide +kernel

/-- A step runs the bundle at the strand's pc. -/
theorem test_step_runs_bundle : warpHas
    (step (placed 128 (0x0400_0000_0000_0000 + 2 ^ 64 * ((encode (.nop ⟨0, 0, 0, g0⟩)).headD 0).toNat)))
    (fun w => w.pri.pc == 16) = true := by decide +kernel

end Sys2Proof.Tests
end

section
/-! SUPPORT. Lane instructions from issue to the state after, with their frame. -/

namespace Sys2Proof.Machine

/-- A lane instruction with legal operands that have landed has its result in flight, and nothing else changes but what an
issue changes: the one shape of every statement about a result in v registers. -/
theorem exec_laneOp {i : Instr} {s : State} {e : Env} {g : Guard} {unit lat : Nat} {src : List Opnd} {d : Code} {w : Bool}
    {f : Env → Nat → W64} (hi : exec i s = issue (costOf i) g (laneOp unit lat src d w f) s) (h : s.Issues g e)
    (hl : e.legal src = true) (hd : e.vOk d w = true) (hq : e.quiet src = true) :
    exec i s = .next (e.complete (costOf i) g (e.vResult unit lat d w (f e) (e.enter s))) ∧
      s.SameBut Warp.SameButIssue (e.complete (costOf i) g (e.vResult unit lat d w (f e) (e.enter s))) e.c e.w :=
  ⟨hi.trans (issue_laneOp h hl hd hq), e.complete_vResult_same ..⟩

end Sys2Proof.Machine
end

section
/-! SUPPORT. The numbers that a type's elements hold (R62, R63): an element computed by `elemwise` reads back as the number
itself when the type holds it. -/

namespace Sys2Proof.Machine

/-- The numbers that an element of the type can have as its value. -/
def InType (mod : BitVec 3) (n : Int) : Prop :=
  if tySigned mod then -(2 ^ (tyWidth mod - 1)) ≤ n ∧ n < 2 ^ (tyWidth mod - 1) else 0 ≤ n ∧ n < 2 ^ tyWidth mod

theorem inType_signed {mod : BitVec 3} {n : Int} (h : tySigned mod = true) :
    InType mod n ↔ -(2 ^ (tyWidth mod - 1)) ≤ n ∧ n < 2 ^ (tyWidth mod - 1) := by simp [InType, h]

theorem inType_unsigned {mod : BitVec 3} {n : Int} (h : tySigned mod = false) :
    InType mod n ↔ 0 ≤ n ∧ n < 2 ^ tyWidth mod := by simp [InType, h]

theorem tyWidth_cases (mod : BitVec 3) : tyWidth mod = 8 ∨ tyWidth mod = 16 ∨ tyWidth mod = 32 ∨ tyWidth mod = 64 := by
  unfold tyWidth
  split_ifs <;> simp

/-- The range of a type is twice its half. -/
theorem two_pow_tyWidth (mod : BitVec 3) : (2 : Int) ^ tyWidth mod = 2 * 2 ^ (tyWidth mod - 1) := by
  rcases tyWidth_cases mod with h | h | h | h <;> rw [h] <;> norm_num

theorem two_pow_tyWidth_pred_pos (mod : BitVec 3) : (0 : Int) < 2 ^ (tyWidth mod - 1) := by positivity

theorem tyWidth_dvd (mod : BitVec 3) : 2 ^ tyWidth mod ∣ 2 ^ 64 :=
  Nat.pow_dvd_pow 2 (by rcases tyWidth_cases mod with h | h | h | h <;> omega)

/-- Reading a pattern below 2^w gives a number of the type. -/
theorem asInt_inType {mod : BitVec 3} {x : Nat} (h : (x : Int) < 2 ^ tyWidth mod) :
    InType mod (asInt (tyWidth mod) (tySigned mod) x) := by
  have hw := two_pow_tyWidth mod
  have hx : ((2 ^ (tyWidth mod - 1) : Nat) : Int) = 2 ^ (tyWidth mod - 1) := by push_cast; rfl
  cases hs : tySigned mod with
  | true =>
    rw [inType_signed hs]
    simp only [asInt, Bool.true_and, decide_eq_true_eq]
    split_ifs <;> omega
  | false =>
    rw [inType_unsigned hs]
    simpa [asInt] using h

/-- A number of the type is read back from its pattern. -/
theorem asInt_emod {mod : BitVec 3} {n : Int} (h : InType mod n) :
    asInt (tyWidth mod) (tySigned mod) (n % 2 ^ tyWidth mod).toNat = n := by
  have hw := two_pow_tyWidth mod
  have hx : ((2 ^ (tyWidth mod - 1) : Nat) : Int) = 2 ^ (tyWidth mod - 1) := by push_cast; rfl
  have hp := two_pow_tyWidth_pred_pos mod
  cases hs : tySigned mod with
  | true =>
    obtain ⟨hlo, hhi⟩ := (inType_signed hs).mp h
    have hm : n % 2 ^ tyWidth mod = if n < 0 then n + 2 ^ tyWidth mod else n := by
      split_ifs
      · rw [← Int.add_emod_right, Int.emod_eq_of_lt (by omega) (by omega)]
      · exact Int.emod_eq_of_lt (by omega) (by omega)
    rw [hm]
    simp only [asInt, Bool.true_and, decide_eq_true_eq]
    split_ifs <;> omega
  | false =>
    obtain ⟨hlo, hhi⟩ := (inType_unsigned hs).mp h
    rw [Int.emod_eq_of_lt hlo hhi]
    simp [asInt, hlo]

/-- The value of an element is a number of its type. -/
theorem tyVal_inType (mod : BitVec 3) (x : W64) (i : Nat) : InType mod (tyVal mod x i) :=
  asInt_inType (by exact_mod_cast Nat.mod_lt _ (Nat.two_pow_pos _))

/-- The first element of a packed list is the first number of the list, modulo its width. -/
theorem packInts_mod (w : Nat) (x : Int) (l : List Int) : packInts w (x :: l) % 2 ^ w = (x % 2 ^ w).toNat := by
  have hlt : (x % 2 ^ w).toNat < 2 ^ w := by
    have := Int.emod_lt_of_pos x (show (0 : Int) < 2 ^ w by positivity)
    have hx : ((2 ^ w : Nat) : Int) = 2 ^ w := by push_cast; rfl
    omega
  rw [packInts, Nat.add_mul_mod_self_left, Nat.mod_eq_of_lt hlt]

/-- The elements of a type are listed from element 0. -/
theorem range_tyCount (mod : BitVec 3) : ∃ l, List.range (tyCount mod) = 0 :: l := by
  have : 0 < tyCount mod := by
    unfold tyCount
    rcases tyWidth_cases mod with h | h | h | h <;> rw [h] <;> decide
  obtain ⟨n, hn⟩ := Nat.exists_eq_succ_of_ne_zero this.ne'
  rw [hn]
  exact ⟨_, List.range_succ_eq_map⟩

/-- Element 0 of a result by elements is what F gives, when it agrees with a number of the type modulo 2^w. -/
theorem tyVal_elemwise {mod : BitVec 3} {F : Int → Int → Int → Int} {a b c : W64} {n : Int} (hn : InType mod n)
    (h : F (tyVal mod a 0) (tyVal mod b 0) (tyVal mod c 0) ≡ n [ZMOD 2 ^ tyWidth mod]) :
    tyVal mod (elemwise mod F a b c) 0 = n := by
  obtain ⟨l, hl⟩ := range_tyCount mod
  rw [tyVal, elemwise, hl, List.map_cons, BitVec.toNat_ofNat, Nat.mul_zero, Nat.pow_zero, Nat.div_one,
    Nat.mod_mod_of_dvd _ (tyWidth_dvd mod), packInts_mod, h.eq, asInt_emod hn]

end Sys2Proof.Machine
end

section
/-! SUPPORT. Division (R69): the model's quotient and remainder stay in the type but for the two corners of the rule's table,
and are what that table gives. -/

namespace Sys2Proof.Machine

/-- A positive remainder has a positive dividend. -/
theorem pos_of_tmod_pos {a b : Int} (h : 0 < a.tmod b) : 0 < a := by
  by_contra ha
  have := Int.tmod_nonneg b (show 0 ≤ -a by omega)
  rw [Int.neg_tmod] at this
  omega

/-- A negative remainder has a negative dividend. -/
theorem neg_of_tmod_neg {a b : Int} (h : a.tmod b < 0) : a < 0 := by
  by_contra ha
  have := Int.tmod_nonneg b (show 0 ≤ a by omega)
  omega

/-- The remainder is a number of the dividend's type. -/
theorem InType.tmod {mod : BitVec 3} {a : Int} (ha : InType mod a) (b : Int) : InType mod (a.tmod b) := by
  have hle : (a.tmod b).natAbs ≤ a.natAbs := by rw [Int.natAbs_tmod]; exact Nat.mod_le _ _
  have hpos := @pos_of_tmod_pos a b
  have hneg := @neg_of_tmod_neg a b
  unfold InType at *
  split_ifs at * <;> omega

/-- A quotient by neither 0 nor 1 nor -1 is nearer to 0 than its dividend. -/
theorem natAbs_tdiv_lt {a b : Int} (ha : a ≠ 0) (hb : 1 < b.natAbs) : (a.tdiv b).natAbs < a.natAbs := by
  rw [Int.natAbs_tdiv]
  exact Nat.div_lt_self (by omega) hb

/-- The quotient is a number of the type, but for the most negative number by -1. -/
theorem InType.tdiv {mod : BitVec 3} {a b : Int} (ha : InType mod a) (hb : InType mod b)
    (hc : ¬ (tySigned mod = true ∧ a = -(2 ^ (tyWidth mod - 1)) ∧ b = -1)) : InType mod (a.tdiv b) := by
  cases hs : tySigned mod with
  | true =>
    rw [inType_signed hs] at *
    rcases (by omega : a = 0 ∨ b = 0 ∨ b = 1 ∨ b = -1 ∨ a ≠ 0 ∧ 1 < b.natAbs) with rfl | rfl | rfl | rfl | ⟨h0, h1⟩
    · simp
    · simp
    · simpa using ha
    · have : a ≠ -(2 ^ (tyWidth mod - 1)) := fun h => hc ⟨hs, h, rfl⟩
      rw [Int.tdiv_neg, Int.tdiv_one]
      omega
    · have := natAbs_tdiv_lt h0 h1
      omega
  | false =>
    rw [inType_unsigned hs] at *
    exact ⟨Int.tdiv_nonneg ha.1 hb.1, (Int.tdiv_le_self b ha.1).trans_lt ha.2⟩

/-- All ones is the number that a quotient by 0 reads as. -/
theorem inType_allOnes (mod : BitVec 3) : InType mod (if tySigned mod then -1 else 2 ^ tyWidth mod - 1) := by
  have := two_pow_tyWidth_pred_pos mod
  have := two_pow_tyWidth mod
  unfold InType
  split_ifs <;> omega

theorem neg_one_modEq_allOnes (mod : BitVec 3) :
    -1 ≡ (if tySigned mod then -1 else 2 ^ tyWidth mod - 1) [ZMOD 2 ^ tyWidth mod] := by
  split_ifs
  · rfl
  · exact Int.modEq_iff_dvd.mpr ⟨1, by ring⟩

/-- The model's quotient and remainder are those of the rule's table (R69), for every type by its element 0. -/
theorem divides_fnDiv_fnRem (mod : BitVec 3) (x y : W64) : Divides mod x y (fnDiv mod x y) (fnRem mod x y) := by
  have hx := tyVal_inType mod x 0
  have hy := tyVal_inType mod y 0
  have hr : tyVal mod y 0 ≠ 0 → tyVal mod (fnRem mod x y) 0 = (tyVal mod x 0).tmod (tyVal mod y 0) :=
    fun h0 => tyVal_elemwise (hx.tmod _) (by rw [if_neg h0])
  refine ⟨fun h0 hc => ?_, fun h0 => ⟨?_, ?_⟩, fun hs ha hb => ⟨?_, ?_⟩⟩
  · rw [hr h0]
    exact ⟨tyVal_elemwise (hx.tdiv hy hc) (by rw [if_neg h0]), Int.tmod_def _ _, pos_of_tmod_pos, neg_of_tmod_neg⟩
  · exact tyVal_elemwise (inType_allOnes mod) (by rw [if_pos h0]; exact neg_one_modEq_allOnes mod)
  · exact tyVal_elemwise hx (by rw [if_pos h0])
  · have hlo : InType mod (-(2 ^ (tyWidth mod - 1))) := ha ▸ hx
    refine tyVal_elemwise hlo ?_
    rw [ha, hb, if_neg (by decide), Int.tdiv_neg, Int.tdiv_one]
    exact Int.modEq_iff_dvd.mpr ⟨-1, by rw [two_pow_tyWidth]; ring⟩
  · rw [hr (by rw [hb]; decide), hb, Int.tmod_neg, Int.tmod_one]

/-- Settles O51: by `divides_fnDiv_fnRem` the model's quotient and remainder are the table's, and the issue is a lane instruction's. -/
theorem divisionByTheRule : Obligations.DivisionByTheRule := by
  intro s e
  constructor
  · intro f h _ a b hl hd hq
    have hdiv := exec_laneOp (exec_idiv f s) h hl hd hq
    have hrem := exec_laneOp (exec_irem f s) h hl hd hq
    refine ⟨fun l => fnDiv f.mod (a.val e l) (b.val e l), fun l => fnRem f.mod (a.val e l) (b.val e l),
      fun l => divides_fnDiv_fnRem _ _ _, ?_⟩
    simp only [List.forall_mem_cons]
    exact ⟨⟨hdiv.1, hdiv.2, rfl⟩, ⟨hrem.1, hrem.2, rfl⟩, List.forall_mem_nil _⟩
  · intro f h _ a hl hd hq
    have hdiv := exec_laneOp (exec_idivI f s) h hl hd hq
    have hrem := exec_laneOp (exec_iremI f s) h hl hd hq
    refine ⟨fun l => fnDiv f.mod (a.val e l) (immIU f.mod f.imm), fun l => fnRem f.mod (a.val e l) (immIU f.mod f.imm),
      fun l => divides_fnDiv_fnRem _ _ _, ?_⟩
    simp only [List.forall_mem_cons]
    exact ⟨⟨hdiv.1, hdiv.2, rfl⟩, ⟨hrem.1, hrem.2, rfl⟩, List.forall_mem_nil _⟩

end Sys2Proof.Machine
end

section
/-! SUPPORT. The integer unit's addresses, selection and conversion (R76, R78, R81), and its funnel shift (R72). -/

namespace Sys2Proof.Machine

/-- Settles O5: each is a lane instruction whose value is the one stated. -/
theorem addressSelectConvertResults : Obligations.AddressSelectConvertResults :=
  ⟨fun s _ f h hl hd hq => (exec_laneOp (exec_lea f s) h hl hd hq :),
    fun s _ f h hl hd hq => (exec_laneOp (exec_leaI f s) h hl hd hq :),
    fun s _ f h hl hd hq => (exec_laneOp (exec_isel f s) h hl hd hq :),
    fun s _ f h hl hd hq => (exec_laneOp (exec_cvti f s) h hl hd hq :)⟩

/-- The word that FUNNEL gives for A, B and C. -/
def funnelWord (a b c : W64) : W32 :=
  ((((c.setWidth 32 : W32) ++ (a.setWidth 32 : W32) : W64) >>> (b.toNat % 64)).setWidth 32 : W32)

theorem fnFunnel_eq (a b c : W64) : fnFunnel a b c = (funnelWord a b c).setWidth 64 := rfl

/-- Bit i of FUNNEL's result is bit i + n of C over A. -/
theorem funnelWord_getLsbD (a b c : W64) {i : Nat} (hi : i < 32) :
    (funnelWord a b c).getLsbD i =
      if i + b.toNat % 64 < 32 then a.getLsbD (i + b.toNat % 64)
      else if i + b.toNat % 64 < 64 then c.getLsbD (i + b.toNat % 64 - 32) else false := by
  rw [Nat.add_comm i]
  simp only [funnelWord, BitVec.getLsbD_setWidth, BitVec.getLsbD_ushiftRight, BitVec.getLsbD_append, hi, decide_true,
    Bool.true_and]
  split_ifs with h1 h2
  · simp [h1]
  · simp [show b.toNat % 64 + i - 32 < 32 by omega]
  · simp [show ¬ b.toNat % 64 + i - 32 < 32 by omega]

/-- With one value in C and A, FUNNEL rotates for counts below 32 and shifts from there on. -/
theorem funnelWord_self (a b : W64) : funnelWord a b a =
    if b.toNat % 64 < 32 then (a.setWidth 32 : W32).rotateRight (b.toNat % 64)
    else (a.setWidth 32 : W32) >>> (b.toNat % 64 - 32) := by
  refine BitVec.eq_of_getLsbD_eq fun i hi => ?_
  rw [funnelWord_getLsbD a b a hi]
  have hn : b.toNat % 64 < 64 := Nat.mod_lt _ (by decide)
  generalize b.toNat % 64 = n at *
  by_cases h : n < 32
  · rw [if_pos h, BitVec.getLsbD_rotateRight, Nat.mod_eq_of_lt h]
    by_cases hin : i + n < 32
    · simp [hin, show i < 32 - n by omega, Nat.add_comm]
    · simp [hin, hi, show ¬ i < 32 - n by omega, show i + n < 64 by omega, show i + n - 32 < 32 by omega,
        show i - (32 - n) = i + n - 32 by omega]
  · rw [if_neg h, BitVec.getLsbD_ushiftRight, BitVec.getLsbD_setWidth, if_neg (by omega)]
    by_cases hin : i + n < 64
    · simp [hin, show n - 32 + i = i + n - 32 by omega, show i + n - 32 < 32 by omega]
    · simp [hin, show ¬ n - 32 + i < 32 by omega]

/-- Settles O52: the word is read bit by bit, which gives the rotation and the shift of one value. -/
theorem funnelByTheRule : Obligations.FunnelByTheRule := by
  intro s e f h a b c hl hd hq
  have hx := exec_laneOp (exec_funnel f s) h hl hd hq
  simp only [fnFunnel_eq] at hx
  refine ⟨fun l => funnelWord (a.val e l) (b.val e l) (c.val e l), hx, fun l => ?_⟩
  have hn : ((b.val e l).extractLsb' 0 6).toNat = (b.val e l).toNat % 64 := by simp [BitVec.extractLsb'_toNat]
  rw [hn]
  exact ⟨fun i hi => funnelWord_getLsbD _ _ _ hi, fun hac =>
    (congrArg (funnelWord (a.val e l) (b.val e l)) hac.symm).trans (funnelWord_self _ _)⟩

end Sys2Proof.Machine
end

section
/-! SUPPORT. The float unit's sign operations and classification (R103, R105). -/

namespace Sys2Proof.Machine

/-- Settles O12: FABS, FNEG and FCLASS are lane instructions, which put no flags and draw from no generator, and their bodies
read each element as it stands, with no flush. -/
theorem floatSignClassResults : Obligations.FloatSignClassResults := by
  intro s e f h t a hl hq
  refine ⟨fun hd => ?signOps, fun hd => (exec_laneOp (exec_fclass f s) h hl hd hq :)⟩
  case signOps =>
    have habs := exec_laneOp (exec_fabs f s) h hl hd hq
    have hneg := exec_laneOp (exec_fneg f s) h hl hd hq
    simp only [List.forall_mem_cons]
    exact ⟨habs, hneg, List.forall_mem_nil _⟩

end Sys2Proof.Machine
end

section
/-! SUPPORT. Encoding and decoding are inverse (R26 to R28, R50): the round trip collected over the constructors, and the
tables read backwards. -/

namespace Sys2Proof

namespace Laws.RoundTrip

/-- The round trip of every constructor. -/
theorem statement : ∀ i : Instr, Statement i
  | .mov f => mov f
  | .bundle hdr slots => bundle hdr slots
  | .iadd f => iadd f
  | .iaddI f => iaddI f
  | .isub f => isub f
  | .isubI f => isubI f
  | .imul f => imul f
  | .imulI f => imulI f
  | .imulh f => imulh f
  | .imulhI f => imulhI f
  | .imad f => imad f
  | .idiv f => idiv f
  | .idivI f => idivI f
  | .irem f => irem f
  | .iremI f => iremI f
  | .imin f => imin f
  | .iminI f => iminI f
  | .imax f => imax f
  | .imaxI f => imaxI f
  | .iabs f => iabs f
  | .ineg f => ineg f
  | .iadds f => iadds f
  | .iaddsI f => iaddsI f
  | .isad f => isad f
  | .idot4 f => idot4 f
  | .and f => and f
  | .andI f => andI f
  | .or f => or f
  | .orI f => orI f
  | .xor f => xor f
  | .xorI f => xorI f
  | .andn f => andn f
  | .andnI f => andnI f
  | .not f => not f
  | .shl f => shl f
  | .shlI f => shlI f
  | .shr f => shr f
  | .shrI f => shrI f
  | .sar f => sar f
  | .sarI f => sarI f
  | .rotl f => rotl f
  | .rotlI f => rotlI f
  | .funnel f => funnel f
  | .bfx f => bfx f
  | .bfi f => bfi f
  | .popc f => popc f
  | .clz f => clz f
  | .ctz f => ctz f
  | .brev f => brev f
  | .bshuf f => bshuf f
  | .lea f => lea f
  | .leaI f => leaI f
  | .icmp f => icmp f
  | .icmpI f => icmpI f
  | .isel f => isel f
  | .plop f => plop f
  | .movh f => movh f
  | .movhI f => movhI f
  | .movi f => movi f
  | .vote f => vote f
  | .rdlane f => rdlane f
  | .rdlaneI f => rdlaneI f
  | .find1 f => find1 f
  | .cvti f => cvti f
  | .iredw f => iredw f
  | .clamp f => clamp f
  | .fadd f => fadd f
  | .faddI f => faddI f
  | .fsub f => fsub f
  | .fsubI f => fsubI f
  | .fmul f => fmul f
  | .fmulI f => fmulI f
  | .ffma f => ffma f
  | .fnma f => fnma f
  | .fmin f => fmin f
  | .fminI f => fminI f
  | .fmax f => fmax f
  | .fmaxI f => fmaxI f
  | .fabs f => fabs f
  | .fneg f => fneg f
  | .fcmp f => fcmp f
  | .fcmpI f => fcmpI f
  | .fclass f => fclass f
  | .frint f => frint f
  | .fcvt f => fcvt f
  | .f2i f => f2i f
  | .i2f f => i2f f
  | .fdot2 f => fdot2 f
  | .fredw f => fredw f
  | .fsetmode f => fsetmode f
  | .fgetmode f => fgetmode f
  | .fflags f => fflags f
  | .fflagsClr f => fflagsClr f
  | .fscale f => fscale f
  | .fscaleI f => fscaleI f
  | .rcp f => rcp f
  | .rsq f => rsq f
  | .sqrt f => sqrt f
  | .ex2 f => ex2 f
  | .lg2 f => lg2 f
  | .sinpi f => sinpi f
  | .cospi f => cospi f
  | .tanh f => tanh f
  | .sigm f => sigm f
  | .fdiv f => fdiv f
  | .ld f => ld f
  | .ldI f => ldI f
  | .st f => st f
  | .stI f => stI f
  | .ldw f => ldw f
  | .ldwI f => ldwI f
  | .ldAcq f => ldAcq f
  | .ldAcqI f => ldAcqI f
  | .stRel f => stRel f
  | .stRelI f => stRelI f
  | .atom f => atom f
  | .cas f => cas f
  | .red f => red f
  | .atomX f => atomX f
  | .casX f => casX f
  | .fenceFull f => fenceFull f
  | .fenceAcq f => fenceAcq f
  | .fenceRel f => fenceRel f
  | .fenceEng f => fenceEng f
  | .ldRacq f => ldRacq f
  | .arrive f => arrive f
  | .waitph f => waitph f
  | .tryph f => tryph f
  | .barinit f => barinit f
  | .pres f => pres f
  | .cctlInvl f => cctlInvl f
  | .cctlInvall f => cctlInvall f
  | .cctlPref f => cctlPref f
  | .cctlEvf f => cctlEvf f
  | .bra f => bra f
  | .braU f => braU f
  | .brx f => brx f
  | .call f => call f
  | .callx f => callx f
  | .ret f => ret f
  | .brk f => brk f
  | .loop f => loop f
  | .loopPipe f => loopPipe f
  | .rotset f => rotset f
  | .modeCollapse f => modeCollapse f
  | .modeExpand f => modeExpand f
  | .sync f => sync f
  | .exit f => exit f
  | .trap f => trap f
  | .eret f => eret f
  | .nop f => nop f
  | .yield f => yield f
  | .elect f => elect f
  | .folld f => folld f
  | .folfree f => folfree f
  | .domset f => domset f
  | .mms f => mms f
  | .mmsz f => mmsz f
  | .mmsg f => mmsg f
  | .accalloc f => accalloc f
  | .accallocI f => accallocI f
  | .accfree f => accfree f
  | .accfreeI f => accfreeI f
  | .accrd f => accrd f
  | .accwr f => accwr f
  | .accclr f => accclr f
  | .fmtset f => fmtset f
  | .fmtsetI f => fmtsetI f
  | .accadd f => accadd f
  | .copy f => copy f
  | .kick f => kick f
  | .gather f => gather f
  | .scatter f => scatter f
  | .scatterAdd f => scatterAdd f
  | .pfl2 f => pfl2 f
  | .pfl2Tok f => pfl2Tok f
  | .cstat f => cstat f
  | .seedtry f => seedtry f
  | .seedscan f => seedscan f
  | .fit f => fit f
  | .proj f => proj f
  | .mgen f => mgen f
  | .mstat f => mstat f
  | .xlate f => xlate f
  | .xprobe f => xprobe f
  | .xinvPage f => xinvPage f
  | .xinvRange f => xinvRange f
  | .xinvPasid f => xinvPasid f
  | .xinvAll f => xinvAll f
  | .xflush f => xflush f
  | .pclass f => pclass f
  | .pclassI f => pclassI f
  | .opsel f => opsel f
  | .opselI f => opselI f
  | .grant f => grant f
  | .tmark f => tmark f
  | .tmarkI f => tmarkI f
  | .bkpt f => bkpt f
  | .bkptI f => bkptI f
  | .shash f => shash f
  | .confrd f => confrd f
  | .rpctlOff f => rpctlOff f
  | .rpctlRec f => rpctlRec f
  | .rpctlReplay f => rpctlReplay f
  | .rpctlQuery f => rpctlQuery f
  | .qsub f => qsub f
  | .getsp f => getsp f
  | .setsp f => setsp f
  | .resultLands c => resultLands c
  | .interlockedResultReturn c => interlockedResultReturn c
  | .linePresent c => linePresent c
  | .requestEntryFree c => requestEntryFree c
  | .writeBufferDrain c => writeBufferDrain c
  | .promotionRequest c => promotionRequest c
  | .sliceAtomic sl => sliceAtomic sl
  | .remoteScratchAccess c => remoteScratchAccess c
  | .warpReady c => warpReady c
  | .loopBackEdge c => loopBackEdge c
  | .reconvergeMerge c => reconvergeMerge c
  | .folldComplete c => folldComplete c
  | .collapseComplete c => collapseComplete c
  | .expandComplete c => expandComplete c
  | .strandFaultFreeze c => strandFaultFreeze c
  | .strandSnapshotResume c => strandSnapshotResume c
  | .trapEntry c => trapEntry c
  | .asyncTrapDelivery c => asyncTrapDelivery c
  | .kettleLineRise l => kettleLineRise l
  | .kettleRelease l => kettleRelease l
  | .copyAccept c => copyAccept c
  | .kickEntryAccept c => kickEntryAccept c
  | .copyLineMove c => copyLineMove c
  | .copyGlobalReturn c => copyGlobalReturn c
  | .copyBytesLand c => copyBytesLand c
  | .requestError c => requestError c
  | .pfl2LineDone c => pfl2LineDone c
  | .pageWaitResume c => pageWaitResume c
  | .mxStart c => mxStart c
  | .mxOccupancyEnd c => mxOccupancyEnd c
  | .mmsgRecordRead c => mmsgRecordRead c
  | .accallocGrant c => accallocGrant c
  | .accfreeRelease c => accfreeRelease c
  | .accDeadlock c => accDeadlock c
  | .mxResetEnd c => mxResetEnd c
  | .bankTransfer c => bankTransfer c
  | .marbleAccept c => marbleAccept c
  | .marbleStart c => marbleStart c
  | .marbleComplete c => marbleComplete c
  | .candidateComplete c => candidateComplete c
  | .scanDeadline c => scanDeadline c
  | .qwpWrite q v => qwpWrite q v
  | .qctlWrite q v => qctlWrite q v
  | .qstatClear q v => qstatClear q v
  | .recordAdmit => recordAdmit
  | .blockPlace c => blockPlace c
  | .blockEnd c => blockEnd c
  | .gridComplete => gridComplete
  | .preempt c => preempt c
  | .preemptHaltDone c => preemptHaltDone c
  | .mxResetCmd c => mxResetCmd c
  | .coreResetCmd c => coreResetCmd c
  | .walk c => walk c
  | .atsCompletion c r => atsCompletion c r
  | .atsTimeout c => atsTimeout c
  | .prgResponse c r => prgResponse c r
  | .pageRequestTimeout c => pageRequestTimeout c
  | .hostAtsInvalidate pasid va pages => hostAtsInvalidate pasid va pages
  | .invalidationComplete => invalidationComplete
  | .hostInvPage pasid => hostInvPage pasid
  | .hostInvRange pasid => hostInvRange pasid
  | .hostInvPasid pasid => hostInvPasid pasid
  | .hostInvAll => hostInvAll
  | .hostHostAccess peer op pa => hostHostAccess peer op pa
  | .hostCompletionError c => hostCompletionError c
  | .peerLoss c => peerLoss c
  | .cgrantWrite c v => cgrantWrite c v
  | .settleComplete c => settleComplete c
  | .governedStall c => governedStall c
  | .slewStep => slewStep
  | .slewGrant c => slewGrant c
  | .fillerEnd c => fillerEnd c
  | .slewWrite g hi isCtl v => slewWrite g hi isCtl v
  | .hangTimeout c => hangTimeout c
  | .mxhangTimeout c => mxhangTimeout c
  | .wstatClear c v => wstatClear c v
  | .stopArmCycle c v => stopArmCycle c v
  | .stopArmCount c v => stopArmCount c v
  | .stopDisarm c v => stopDisarm c v
  | .stopResume c => stopResume c
  | .preciseStop c => preciseStop c
  | .sample c => sample c
  | .bcmClear c => bcmClear c
  | .divergedClear c => divergedClear c
  | .obsctlWrite c v => obsctlWrite c v
  | .headbandFlush => headbandFlush
  | .headbandEnable en => headbandEnable en
  | .dropCountEmit => dropCountEmit
  | .losslessRoom => losslessRoom
  | .timeSync => timeSync
  | .rpmodeOff sl => rpmodeOff sl
  | .rpmodeRecord sl => rpmodeRecord sl
  | .rpmodeReplay sl => rpmodeReplay sl
  | .rlogPartialFlush sl => rlogPartialFlush sl
  | .gateTimeout sl => gateTimeout sl
  | .shashRetire c => shashRetire c
  | .pressPinAssert => pressPinAssert
  | .pressPinDeassert => pressPinDeassert
  | .pressCmd => pressCmd
  | .pressReleaseCmd => pressReleaseCmd
  | .pressEdge => pressEdge
  | .pressReleaseEdge => pressReleaseEdge
  | .dramRefresh stk => dramRefresh stk
  | .eccScrubForced stk => eccScrubForced stk
  | .powerOn err => powerOn err
  | .warmReset memKept err => warmReset memKept err
  | .attestGo => attestGo
  | .attestDone => attestDone
  | .controlRegisterWrite off v => controlRegisterWrite off v
  | .qsubRecordWritten q => qsubRecordWritten q
  | .configurationSpaceWrite pasidEn atsEn priEn => configurationSpaceWrite pasidEn atsEn priEn
  | .powerLoss => powerLoss

end Laws.RoundTrip

/-! ## The tables of the decoder, read backwards -/

/-- A named answer is legal as it stands. -/
theorem checked_eq_ok {x : Option Instr} {i : Instr} : checked x = .ok i ↔ x = some i ∧ i.wf = true := by
  cases x with
  | none => simp [checked]
  | some j =>
    by_cases hj : j.wf = true
    · simp only [checked, hj, if_true, Except.ok.injEq, Option.some.injEq]
      exact ⟨fun h => ⟨h, h ▸ hj⟩, fun h => h.1⟩
    · simp only [checked, hj, Option.some.injEq]
      exact ⟨fun h => (nomatch h), fun h => absurd (h.1 ▸ h.2) hj⟩

theorem encode_of_iuF2 {o : Nat} {f : F2} {i : Instr} (h : iuF2 o f = some i) :
    encode i = [f.word 0 (BitVec.ofNat 6 o)] := by
  unfold iuF2 at h
  split at h
  all_goals cases h
  all_goals rfl

theorem encode_of_fuF2 {o : Nat} {f : F2} {i : Instr} (h : fuF2 o f = some i) :
    encode i = [f.word 1 (BitVec.ofNat 6 o)] := by
  unfold fuF2 at h
  repeat' split at h
  all_goals cases h
  all_goals rfl

theorem encode_of_sfF2 {o : Nat} {f : F2} {i : Instr} (h : sfF2 o f = some i) :
    encode i = [f.word 2 (BitVec.ofNat 6 o)] := by
  unfold sfF2 at h
  split at h
  all_goals cases h
  all_goals rfl

theorem encode_of_sqF2 {o : Nat} {f : F2} {i : Instr} (h : sqF2 o f = some i) :
    encode i = [f.word 4 (BitVec.ofNat 6 o)] := by
  unfold sqF2 at h
  split at h
  all_goals cases h
  all_goals rfl

theorem encode_of_mxF2 {o : Nat} {f : F2} {i : Instr} (h : mxF2 o f = some i) :
    encode i = [f.word 5 (BitVec.ofNat 6 o)] := by
  unfold mxF2 at h
  split at h
  all_goals cases h
  all_goals rfl

theorem encode_of_aeF2 {o : Nat} {f : F2} {i : Instr} (h : aeF2 o f = some i) :
    encode i = [f.word 6 (BitVec.ofNat 6 o)] := by
  unfold aeF2 at h
  repeat' split at h
  all_goals cases h
  all_goals rfl

theorem encode_of_syF2 {o : Nat} {f : F2} {i : Instr} (h : syF2 o f = some i) :
    encode i = [f.word 7 (BitVec.ofNat 6 o)] := by
  unfold syF2 at h
  repeat' split at h
  all_goals cases h
  all_goals rfl

theorem encode_of_iuF3 {o : Nat} {f : F3} {i : Instr} (h : iuF3 o f = some i) :
    encode i = [f.word 0 (BitVec.ofNat 6 o)] := by
  unfold iuF3 at h
  split at h
  all_goals cases h
  all_goals rfl

theorem encode_of_fuF3 {o : Nat} {f : F3} {i : Instr} (h : fuF3 o f = some i) :
    encode i = [f.word 1 (BitVec.ofNat 6 o)] := by
  unfold fuF3 at h
  split at h
  all_goals cases h
  all_goals rfl

theorem encode_of_aeF3 {o : Nat} {f : F3} {i : Instr} (h : aeF3 o f = some i) :
    encode i = [f.word 6 (BitVec.ofNat 6 o)] := by
  unfold aeF3 at h
  repeat' split at h
  all_goals cases h
  all_goals rfl

theorem encode_of_iuFI {o : Nat} {f : FI} {i : Instr} (h : iuFI o f = some i) :
    encode i = [f.word 0 (BitVec.ofNat 6 o)] := by
  unfold iuFI at h
  repeat' split at h
  all_goals cases h
  all_goals rfl

theorem encode_of_fuFI {o : Nat} {f : FI} {i : Instr} (h : fuFI o f = some i) :
    encode i = [f.word 1 (BitVec.ofNat 6 o)] := by
  unfold fuFI at h
  split at h
  all_goals cases h
  all_goals rfl

theorem encode_of_mxFI {o : Nat} {f : FI} {i : Instr} (h : mxFI o f = some i) :
    encode i = [f.word 5 (BitVec.ofNat 6 o)] := by
  unfold mxFI at h
  split at h
  all_goals cases h
  all_goals rfl

theorem encode_of_syFI {o : Nat} {f : FI} {i : Instr} (h : syFI o f = some i) :
    encode i = [f.word 7 (BitVec.ofNat 6 o)] := by
  unfold syFI at h
  split at h
  all_goals cases h
  all_goals rfl

theorem encode_of_lsL2 {o : Nat} {f : L2} {i : Instr} (h : lsL2 o f = some i) :
    encode i = [f.word 3 (BitVec.ofNat 6 o)] := by
  unfold lsL2 at h
  repeat' split at h
  all_goals cases h
  all_goals rfl

theorem encode_of_lsL3 {o : Nat} {f : L3} {i : Instr} (h : lsL3 o f = some i) :
    encode i = [f.word 3 (BitVec.ofNat 6 o)] := by
  unfold lsL3 at h
  split at h
  all_goals cases h
  all_goals rfl

theorem encode_of_lsLI {o : Nat} {f : LI} {i : Instr} (h : lsLI o f = some i) :
    encode i = [f.word 3 (BitVec.ofNat 6 o)] := by
  unfold lsLI at h
  split at h
  all_goals cases h
  all_goals rfl

theorem encode_of_sqFC {o : Nat} {f : FC} {i : Instr} (h : sqFC o f = some i) :
    encode i = [f.word 4 (BitVec.ofNat 6 o)] := by
  unfold sqFC at h
  repeat' split at h
  all_goals cases h
  all_goals rfl

theorem encode_of_trig2 {u o : Nat} {f : F2} {i : Instr} (h : trig2 u o f = some i) :
    encode i = [f.word (BitVec.ofNat 3 u) (BitVec.ofNat 6 o)] := by
  unfold trig2 at h
  split at h
  · exact encode_of_iuF2 h
  · exact encode_of_fuF2 h
  · exact encode_of_sfF2 h
  · exact encode_of_sqF2 h
  · exact encode_of_mxF2 h
  · exact encode_of_aeF2 h
  · exact encode_of_syF2 h
  · cases h

theorem encode_of_trig3 {u o : Nat} {f : F3} {i : Instr} (h : trig3 u o f = some i) :
    encode i = [f.word (BitVec.ofNat 3 u) (BitVec.ofNat 6 o)] := by
  unfold trig3 at h
  split at h
  · exact encode_of_iuF3 h
  · exact encode_of_fuF3 h
  · exact encode_of_aeF3 h
  · cases h

theorem encode_of_imm {u o : Nat} {f : FI} {i : Instr} (h : imm u o f = some i) :
    encode i = [f.word (BitVec.ofNat 3 u) (BitVec.ofNat 6 o)] := by
  unfold imm at h
  split at h
  · exact encode_of_iuFI h
  · exact encode_of_fuFI h
  · exact encode_of_mxFI h
  · exact encode_of_syFI h
  · cases h

/-- The number of a field stands for the field. -/
theorem ofNat_toNat_field {n : Nat} (x : BitVec n) : BitVec.ofNat n x.toNat = x := by simp

/-- A trigger word that decodes is the word of what it decodes to. -/
theorem decodeTrigger_ok {w : W64} {i : Instr} (hk : w.extractLsb' 62 2 = 1#2) (h : decodeTrigger w = .ok i) :
    i.wf = true ∧ encode i = [w] := by
  have hu {n : Nat} (hn : ((w.extractLsb' 59 3).toNat == n) = true) : BitVec.ofNat 3 n = w.extractLsb' 59 3 := by
    rw [← beq_iff_eq.mp hn, ofNat_toNat_field]
  unfold decodeTrigger at h
  dsimp only at h
  split at h
  · next h3 =>
    split at h
    · split at h
      · next hz =>
        obtain ⟨hi, hw⟩ := checked_eq_ok.mp h
        refine ⟨hw, ?_⟩
        rw [encode_of_lsL3 hi, ofNat_toNat_field, show (3 : BitVec 3) = w.extractLsb' 59 3 from hu h3,
          L3.word_of w hk (beq_iff_eq.mp hz)]
      · cases h
    · split at h
      · next hz =>
        obtain ⟨hi, hw⟩ := checked_eq_ok.mp h
        refine ⟨hw, ?_⟩
        rw [encode_of_lsL2 hi, ofNat_toNat_field, show (3 : BitVec 3) = w.extractLsb' 59 3 from hu h3,
          L2.word_of w hk (beq_iff_eq.mp hz)]
      · cases h
  · split at h
    · split at h
      · next hz =>
        obtain ⟨hi, hw⟩ := checked_eq_ok.mp h
        refine ⟨hw, ?_⟩
        rw [encode_of_trig3 hi, ofNat_toNat_field, ofNat_toNat_field, F3.word_of w hk (beq_iff_eq.mp hz)]
      · cases h
    · obtain ⟨hi, hw⟩ := checked_eq_ok.mp h
      refine ⟨hw, ?_⟩
      rw [encode_of_trig2 hi, ofNat_toNat_field, ofNat_toNat_field, F2.word_of w hk]

/-- A slot word that decodes is the word of what it decodes to. -/
theorem decode_ok {w : W64} {i : Instr} (h : decode w = .ok i) : i.wf = true ∧ encode i = [w] := by
  unfold decode at h
  split at h
  case h_1 hk =>
    have hk : w.extractLsb' 62 2 = 0#2 := BitVec.eq_of_toNat_eq hk
    split at h
    · next hz =>
      obtain ⟨hz1, hz2⟩ := Bool.and_eq_true_iff.mp hz
      obtain ⟨hi, hw⟩ := checked_eq_ok.mp h
      cases hi
      exact ⟨hw, congrArg (fun x => [x]) (MV.word_of w hk (beq_iff_eq.mp hz1) (beq_iff_eq.mp hz2))⟩
    · cases h
  case h_2 hk => exact decodeTrigger_ok (BitVec.eq_of_toNat_eq hk) h
  case h_3 hk =>
    have hk : w.extractLsb' 62 2 = 2#2 := BitVec.eq_of_toNat_eq hk
    dsimp only at h
    split at h
    · next h3 =>
      obtain ⟨hi, hw⟩ := checked_eq_ok.mp h
      refine ⟨hw, ?_⟩
      have h3 : (3 : BitVec 3) = w.extractLsb' 59 3 := BitVec.eq_of_toNat_eq (beq_iff_eq.mp h3).symm
      rw [encode_of_lsLI hi, ofNat_toNat_field, h3, LI.word_of w hk]
    · obtain ⟨hi, hw⟩ := checked_eq_ok.mp h
      refine ⟨hw, ?_⟩
      rw [encode_of_imm hi, ofNat_toNat_field, ofNat_toNat_field, FI.word_of w hk]
  case h_4 h0 h1 h2 =>
    have hlt : (w.extractLsb' 62 2).toNat < 4 := (w.extractLsb' 62 2).isLt
    have hk : w.extractLsb' 62 2 = 3#2 :=
      BitVec.eq_of_toNat_eq (show (w.extractLsb' 62 2).toNat = 3 by
        have h0 : (w.extractLsb' 62 2).toNat ≠ 0 := h0
        have h1 : (w.extractLsb' 62 2).toNat ≠ 1 := h1
        have h2 : (w.extractLsb' 62 2).toNat ≠ 2 := h2
        omega)
    split at h
    · next h4 =>
      split at h
      · next hz =>
        obtain ⟨hi, hw⟩ := checked_eq_ok.mp h
        refine ⟨hw, ?_⟩
        rw [encode_of_sqFC hi, ofNat_toNat_field, ← beq_iff_eq.mp h4, FC.word_of w hk (beq_iff_eq.mp hz)]
      · cases h
    · cases h

/-- Settles O48: by `Laws.RoundTrip.statement`, the round trip of each constructor, with the encoding known to have no word,
one word or more. -/
theorem decodeEncodeRoundTrip : Obligations.DecodeEncodeRoundTrip := by
  intro i hw
  have hi := Laws.RoundTrip.statement i hw
  refine ⟨fun w hw => ?_, fun h x sl hb => ?_, ?_⟩
  · rwa [hw] at hi
  · rwa [hb] at hi
  · simp [Instr.isInstruction, bne]

/-- Settles O49: a word is read back by the tables from what it decodes to (`decode_ok`), and a bundle is not taken apart. -/
theorem decodedIsWellFormed : Obligations.DecodedIsWellFormed := by
  refine ⟨fun w i h => decode_ok h, fun h sl i hd => ?_⟩
  unfold decodeBundle at hd
  split at hd
  · next hw =>
    cases hd
    exact ⟨rfl, hw, rfl⟩
  · cases hd

/-- Settles O50: each word is evaluated. -/
theorem decodeSpecWords : Obligations.DecodeSpecWords := by
  unfold Obligations.DecodeSpecWords
  decide

end Sys2Proof
end

section
/-! SUPPORT. What a step keeps: a property that every event, every decoder's act and the passing of time keep, and the
canonical form of memory as one. -/

namespace Sys2Proof.Machine

/-! ## The event that is taken next -/

/-- A property of what an event makes of the state holds of what is taken. -/
theorem taken_keeps {P : State → Prop} {due : Bool} {eff : Unit → State} (h : P (eff ())) :
    ∀ t, taken due eff = some t → P t := by
  intro t ht
  unfold taken at ht
  split at ht
  · cases ht
    exact h
  · cases ht

/-- A property of what each event of a list makes of the state holds of what the first that is due makes of it. -/
theorem firstTaken_keeps {P : State → Prop} {l : List (Unit → Option State)} (h : ∀ f ∈ l, ∀ t, f () = some t → P t) :
    ∀ t, firstTaken l = some t → P t := by
  induction l with
  | nil => exact fun t ht => nomatch ht
  | cons f l ih =>
    intro t ht
    unfold firstTaken at ht
    split at ht
    · next u hu =>
      cases ht
      exact h f List.mem_cons_self _ hu
    · exact ih (fun g hg => h g (List.mem_cons_of_mem f hg)) t ht

theorem State.dueModule_canon {s : State} (hs : s.Canonical) : ∀ t, s.dueModule = some t → t.Canonical := by
  refine firstTaken_keeps ?_
  simp only [List.forall_mem_cons]
  exact ⟨taken_keeps (hs.of_mem (State.bootStep_mem s)), taken_keeps (hs.of_mem (State.pressBegin_mem s)),
    taken_keeps (hs.of_mem (State.pressEnd_mem s)), taken_keeps (hs.of_mem (State.slewStep_mem s)),
    taken_keeps (hs.of_mem (State.attestEnd_mem s)), taken_keeps (hs.of_mem (State.syncStep_mem s)),
    taken_keeps (hs.of_mem (State.placeWaiting_mem s)), taken_keeps (hs.of_mem (State.dropCounts_mem s)),
    taken_keeps (hs.of_mem (State.invalStep_mem s)), List.forall_mem_nil _⟩

theorem State.dueLine_canon {s : State} (hs : s.Canonical) : ∀ t, s.dueLine = some t → t.Canonical := by
  refine firstTaken_keeps (List.forall_mem_append.mpr ⟨?_, ?_⟩)
  · exact List.forall_mem_map.mpr fun l _ => taken_keeps (hs.of_mem (State.lineRelease_mem s l))
  · exact List.forall_mem_map.mpr fun l _ => taken_keeps (hs.of_mem (State.lineRise_mem s l))

theorem State.dueSlice_canon {s : State} (hs : s.Canonical) : ∀ t, s.dueSlice = some t → t.Canonical := by
  refine firstTaken_keeps (List.forall_mem_append.mpr ⟨?_, ?_⟩)
  · simp only [List.forall_mem_flatMap, List.forall_mem_cons]
    exact fun p _ => ⟨taken_keeps (hs.of_mem (State.gateGive_mem s _)), taken_keeps (State.sliceStep_canon hs _),
      taken_keeps (hs.of_mem (State.rlogFlush_mem s _)), List.forall_mem_nil _⟩
  · exact List.forall_mem_map.mpr fun q _ => taken_keeps (State.qsubStep_canon hs _)

theorem State.dueCore_canon {s : State} (hs : s.Canonical) : ∀ t, s.dueCore = some t → t.Canonical := by
  refine firstTaken_keeps ?_
  simp only [List.forall_mem_flatMap, List.forall_mem_map]
  exact fun p _ e he => taken_keeps (orderedEvents_canon hs p.1 e he)

theorem State.dueLaunch_canon {s : State} (hs : s.Canonical) : ∀ t, s.dueLaunch = some t → t.Canonical := by
  refine firstTaken_keeps ?_
  simp only [List.forall_mem_append, List.forall_mem_flatMap, List.forall_mem_cons]
  exact ⟨⟨fun p _ => ⟨taken_keeps (State.haltStep_canon hs _), taken_keeps (State.endStep_canon hs _), List.forall_mem_nil _⟩,
    taken_keeps (State.gridStep_canon hs), taken_keeps (hs.of_mem (State.admit_mem s)), List.forall_mem_nil _⟩,
    fun p _ => ⟨taken_keeps (hs.of_mem (State.placeFirst_mem s _)), taken_keeps (hs.of_mem (State.preempt_mem s _)),
      List.forall_mem_nil _⟩⟩

/-- The event that is taken next keeps the canonical form. -/
theorem State.dueEvent_canon {s : State} (hs : s.Canonical) : ∀ t, s.dueEvent = some t → t.Canonical := by
  refine firstTaken_keeps ?_
  simp only [List.forall_mem_cons]
  exact ⟨State.dueModule_canon hs, State.dueLine_canon hs, State.dueSlice_canon hs, State.dueCore_canon hs,
    State.dueLaunch_canon hs, List.forall_mem_nil _⟩

/-! ## The cores' turn -/

/-- An act whose state is canonical answers a canonical one. -/
theorem Act.perform_canon {a : Act} {t : State} (hm : ∀ u, a = .move u → u.Canonical)
    (hr : ∀ i u, a = .run i u → u.Canonical) (h : a.perform = .next t) : t.Canonical := by
  cases a with
  | move u =>
    cases h
    exact hm _ rfl
  | run i u =>
    unfold Act.perform at h
    dsimp only at h
    split at h
    · next v hv =>
      cases h
      exact (exec_canon (hr i u rfl) hv).of_mem (State.hazAfter_mem ..)
    · cases h
    · cases h

theorem coreTurn_canon {s t : State} {c : Nat} {stage : Stage} (hs : s.Canonical) (h : coreTurn s c stage = .next t) :
    t.Canonical := by
  cases stage with
  | start =>
    exact Act.perform_canon (fun u hu => hs.of_mem (State.strandAct_move hu)) (fun i u hu => hs.of_mem (State.strandAct_run hu)) h
  | simt =>
    exact Act.perform_canon (fun u hu => hs.of_mem (State.simtAct_move hu)) (fun i u hu => hs.of_mem (State.simtAct_run hu)) h
  | done =>
    cases h
    exact hs.of_mem (State.endCycle_mem s c)

/-- Settles O56: by cases on what a step takes — an outside event, a due event, a core's turn, or time. -/
theorem memoryStaysCanonical : Obligations.MemoryStaysCanonical := by
  intro s t hs h
  unfold step at h
  split at h
  · next i _ =>
    have hw : (s.without i).Canonical := hs.of_mem (State.without_mem s i)
    split at h
    · exact exec_canon hw h
    · cases h
      exact hw
  · split at h
    · next u hu =>
      cases h
      exact State.dueEvent_canon hs _ hu
    · split at h
      · exact coreTurn_canon hs h
      · cases h
        exact hs.of_mem (State.advance_mem s)

/-- Settles O57: nothing is listed in memory after reset. -/
theorem memoryCanonicalAtReset : Obligations.MemoryCanonicalAtReset := reset_canonical

end Sys2Proof.Machine
end

section
/-! SUPPORT. The meaning of every constructor of Instr, by its kind; what the decoders select; no step stops. -/

namespace Sys2Proof.Machine

/-! ## The kinds of meanings -/

/-- How the meaning of an instruction is given: a slot word issues with its body, a bundle issues its slots, and an event always
has a next state. -/
inductive Meaning (i : Instr) : Prop where
  | slot (g : Guard) (hi : i.isInstruction = true) (h : ∀ s, exec i s = issue (costOf i) g (slotBody i) s)
  | bundle (hdr : W64) (slots : List W64) (hi : i = .bundle hdr slots)
  | event (hi : i.isInstruction = false) (h : ∀ s, GoesOn (exec i s))

theorem meaning : ∀ i : Instr, Meaning i
  | .mov f => .slot f.g rfl (exec_mov f)
  | .bundle hdr slots => .bundle hdr slots rfl
  | .iadd f => .slot f.g rfl (exec_iadd f)
  | .iaddI f => .slot f.g rfl (exec_iaddI f)
  | .isub f => .slot f.g rfl (exec_isub f)
  | .isubI f => .slot f.g rfl (exec_isubI f)
  | .imul f => .slot f.g rfl (exec_imul f)
  | .imulI f => .slot f.g rfl (exec_imulI f)
  | .imulh f => .slot f.g rfl (exec_imulh f)
  | .imulhI f => .slot f.g rfl (exec_imulhI f)
  | .imad f => .slot f.g rfl (exec_imad f)
  | .idiv f => .slot f.g rfl (exec_idiv f)
  | .idivI f => .slot f.g rfl (exec_idivI f)
  | .irem f => .slot f.g rfl (exec_irem f)
  | .iremI f => .slot f.g rfl (exec_iremI f)
  | .imin f => .slot f.g rfl (exec_imin f)
  | .iminI f => .slot f.g rfl (exec_iminI f)
  | .imax f => .slot f.g rfl (exec_imax f)
  | .imaxI f => .slot f.g rfl (exec_imaxI f)
  | .iabs f => .slot f.g rfl (exec_iabs f)
  | .ineg f => .slot f.g rfl (exec_ineg f)
  | .iadds f => .slot f.g rfl (exec_iadds f)
  | .iaddsI f => .slot f.g rfl (exec_iaddsI f)
  | .isad f => .slot f.g rfl (exec_isad f)
  | .idot4 f => .slot f.g rfl (exec_idot4 f)
  | .and f => .slot f.g rfl (exec_and f)
  | .andI f => .slot f.g rfl (exec_andI f)
  | .or f => .slot f.g rfl (exec_or f)
  | .orI f => .slot f.g rfl (exec_orI f)
  | .xor f => .slot f.g rfl (exec_xor f)
  | .xorI f => .slot f.g rfl (exec_xorI f)
  | .andn f => .slot f.g rfl (exec_andn f)
  | .andnI f => .slot f.g rfl (exec_andnI f)
  | .not f => .slot f.g rfl (exec_not f)
  | .shl f => .slot f.g rfl (exec_shl f)
  | .shlI f => .slot f.g rfl (exec_shlI f)
  | .shr f => .slot f.g rfl (exec_shr f)
  | .shrI f => .slot f.g rfl (exec_shrI f)
  | .sar f => .slot f.g rfl (exec_sar f)
  | .sarI f => .slot f.g rfl (exec_sarI f)
  | .rotl f => .slot f.g rfl (exec_rotl f)
  | .rotlI f => .slot f.g rfl (exec_rotlI f)
  | .funnel f => .slot f.g rfl (exec_funnel f)
  | .bfx f => .slot f.g rfl (exec_bfx f)
  | .bfi f => .slot f.g rfl (exec_bfi f)
  | .popc f => .slot f.g rfl (exec_popc f)
  | .clz f => .slot f.g rfl (exec_clz f)
  | .ctz f => .slot f.g rfl (exec_ctz f)
  | .brev f => .slot f.g rfl (exec_brev f)
  | .bshuf f => .slot f.g rfl (exec_bshuf f)
  | .lea f => .slot f.g rfl (exec_lea f)
  | .leaI f => .slot f.g rfl (exec_leaI f)
  | .icmp f => .slot f.g rfl (exec_icmp f)
  | .icmpI f => .slot f.g rfl (exec_icmpI f)
  | .isel f => .slot f.g rfl (exec_isel f)
  | .plop f => .slot f.g rfl (exec_plop f)
  | .movh f => .slot f.g rfl (exec_movh f)
  | .movhI f => .slot f.g rfl (exec_movhI f)
  | .movi f => .slot f.g rfl (exec_movi f)
  | .vote f => .slot f.g rfl (exec_vote f)
  | .rdlane f => .slot f.g rfl (exec_rdlane f)
  | .rdlaneI f => .slot f.g rfl (exec_rdlaneI f)
  | .find1 f => .slot f.g rfl (exec_find1 f)
  | .cvti f => .slot f.g rfl (exec_cvti f)
  | .iredw f => .slot f.g rfl (exec_iredw f)
  | .clamp f => .slot f.g rfl (exec_clamp f)
  | .fadd f => .slot f.g rfl (exec_fadd f)
  | .faddI f => .slot f.g rfl (exec_faddI f)
  | .fsub f => .slot f.g rfl (exec_fsub f)
  | .fsubI f => .slot f.g rfl (exec_fsubI f)
  | .fmul f => .slot f.g rfl (exec_fmul f)
  | .fmulI f => .slot f.g rfl (exec_fmulI f)
  | .ffma f => .slot f.g rfl (exec_ffma f)
  | .fnma f => .slot f.g rfl (exec_fnma f)
  | .fmin f => .slot f.g rfl (exec_fmin f)
  | .fminI f => .slot f.g rfl (exec_fminI f)
  | .fmax f => .slot f.g rfl (exec_fmax f)
  | .fmaxI f => .slot f.g rfl (exec_fmaxI f)
  | .fabs f => .slot f.g rfl (exec_fabs f)
  | .fneg f => .slot f.g rfl (exec_fneg f)
  | .fcmp f => .slot f.g rfl (exec_fcmp f)
  | .fcmpI f => .slot f.g rfl (exec_fcmpI f)
  | .fclass f => .slot f.g rfl (exec_fclass f)
  | .frint f => .slot f.g rfl (exec_frint f)
  | .fcvt f => .slot f.g rfl (exec_fcvt f)
  | .f2i f => .slot f.g rfl (exec_f2i f)
  | .i2f f => .slot f.g rfl (exec_i2f f)
  | .fdot2 f => .slot f.g rfl (exec_fdot2 f)
  | .fredw f => .slot f.g rfl (exec_fredw f)
  | .fsetmode f => .slot f.g rfl (exec_fsetmode f)
  | .fgetmode f => .slot f.g rfl (exec_fgetmode f)
  | .fflags f => .slot f.g rfl (exec_fflags f)
  | .fflagsClr f => .slot f.g rfl (exec_fflagsClr f)
  | .fscale f => .slot f.g rfl (exec_fscale f)
  | .fscaleI f => .slot f.g rfl (exec_fscaleI f)
  | .rcp f => .slot f.g rfl (exec_rcp f)
  | .rsq f => .slot f.g rfl (exec_rsq f)
  | .sqrt f => .slot f.g rfl (exec_sqrt f)
  | .ex2 f => .slot f.g rfl (exec_ex2 f)
  | .lg2 f => .slot f.g rfl (exec_lg2 f)
  | .sinpi f => .slot f.g rfl (exec_sinpi f)
  | .cospi f => .slot f.g rfl (exec_cospi f)
  | .tanh f => .slot f.g rfl (exec_tanh f)
  | .sigm f => .slot f.g rfl (exec_sigm f)
  | .fdiv f => .slot f.g rfl (exec_fdiv f)
  | .ld f => .slot f.g rfl (exec_ld f)
  | .ldI f => .slot f.g rfl (exec_ldI f)
  | .st f => .slot f.g rfl (exec_st f)
  | .stI f => .slot f.g rfl (exec_stI f)
  | .ldw f => .slot f.g rfl (exec_ldw f)
  | .ldwI f => .slot f.g rfl (exec_ldwI f)
  | .ldAcq f => .slot f.g rfl (exec_ldAcq f)
  | .ldAcqI f => .slot f.g rfl (exec_ldAcqI f)
  | .stRel f => .slot f.g rfl (exec_stRel f)
  | .stRelI f => .slot f.g rfl (exec_stRelI f)
  | .atom f => .slot f.g rfl (exec_atom f)
  | .cas f => .slot f.g rfl (exec_cas f)
  | .red f => .slot f.g rfl (exec_red f)
  | .atomX f => .slot f.g rfl (exec_atomX f)
  | .casX f => .slot f.g rfl (exec_casX f)
  | .fenceFull f => .slot f.g rfl (exec_fenceFull f)
  | .fenceAcq f => .slot f.g rfl (exec_fenceAcq f)
  | .fenceRel f => .slot f.g rfl (exec_fenceRel f)
  | .fenceEng f => .slot f.g rfl (exec_fenceEng f)
  | .ldRacq f => .slot f.g rfl (exec_ldRacq f)
  | .arrive f => .slot f.g rfl (exec_arrive f)
  | .waitph f => .slot f.g rfl (exec_waitph f)
  | .tryph f => .slot f.g rfl (exec_tryph f)
  | .barinit f => .slot f.g rfl (exec_barinit f)
  | .pres f => .slot f.g rfl (exec_pres f)
  | .cctlInvl f => .slot f.g rfl (exec_cctlInvl f)
  | .cctlInvall f => .slot f.g rfl (exec_cctlInvall f)
  | .cctlPref f => .slot f.g rfl (exec_cctlPref f)
  | .cctlEvf f => .slot f.g rfl (exec_cctlEvf f)
  | .bra f => .slot f.g rfl (exec_bra f)
  | .braU f => .slot f.g rfl (exec_braU f)
  | .brx f => .slot f.g rfl (exec_brx f)
  | .call f => .slot f.g rfl (exec_call f)
  | .callx f => .slot f.g rfl (exec_callx f)
  | .ret f => .slot f.g rfl (exec_ret f)
  | .brk f => .slot f.g rfl (exec_brk f)
  | .loop f => .slot f.g rfl (exec_loop f)
  | .loopPipe f => .slot f.g rfl (exec_loopPipe f)
  | .rotset f => .slot f.g rfl (exec_rotset f)
  | .modeCollapse f => .slot f.g rfl (exec_modeCollapse f)
  | .modeExpand f => .slot f.g rfl (exec_modeExpand f)
  | .sync f => .slot f.g rfl (exec_sync f)
  | .exit f => .slot f.g rfl (exec_exit f)
  | .trap f => .slot f.g rfl (exec_trap f)
  | .eret f => .slot f.g rfl (exec_eret f)
  | .nop f => .slot f.g rfl (exec_nop f)
  | .yield f => .slot f.g rfl (exec_yield f)
  | .elect f => .slot f.g rfl (exec_elect f)
  | .folld f => .slot f.g rfl (exec_folld f)
  | .folfree f => .slot f.g rfl (exec_folfree f)
  | .domset f => .slot f.g rfl (exec_domset f)
  | .mms f => .slot f.g rfl (exec_mms f)
  | .mmsz f => .slot f.g rfl (exec_mmsz f)
  | .mmsg f => .slot f.g rfl (exec_mmsg f)
  | .accalloc f => .slot f.g rfl (exec_accalloc f)
  | .accallocI f => .slot f.g rfl (exec_accallocI f)
  | .accfree f => .slot f.g rfl (exec_accfree f)
  | .accfreeI f => .slot f.g rfl (exec_accfreeI f)
  | .accrd f => .slot f.g rfl (exec_accrd f)
  | .accwr f => .slot f.g rfl (exec_accwr f)
  | .accclr f => .slot f.g rfl (exec_accclr f)
  | .fmtset f => .slot f.g rfl (exec_fmtset f)
  | .fmtsetI f => .slot f.g rfl (exec_fmtsetI f)
  | .accadd f => .slot f.g rfl (exec_accadd f)
  | .copy f => .slot f.g rfl (exec_copy f)
  | .kick f => .slot f.g rfl (exec_kick f)
  | .gather f => .slot f.g rfl (exec_gather f)
  | .scatter f => .slot f.g rfl (exec_scatter f)
  | .scatterAdd f => .slot f.g rfl (exec_scatterAdd f)
  | .pfl2 f => .slot f.g rfl (exec_pfl2 f)
  | .pfl2Tok f => .slot f.g rfl (exec_pfl2Tok f)
  | .cstat f => .slot f.g rfl (exec_cstat f)
  | .seedtry f => .slot f.g rfl (exec_seedtry f)
  | .seedscan f => .slot f.g rfl (exec_seedscan f)
  | .fit f => .slot f.g rfl (exec_fit f)
  | .proj f => .slot f.g rfl (exec_proj f)
  | .mgen f => .slot f.g rfl (exec_mgen f)
  | .mstat f => .slot f.g rfl (exec_mstat f)
  | .xlate f => .slot f.g rfl (exec_xlate f)
  | .xprobe f => .slot f.g rfl (exec_xprobe f)
  | .xinvPage f => .slot f.g rfl (exec_xinvPage f)
  | .xinvRange f => .slot f.g rfl (exec_xinvRange f)
  | .xinvPasid f => .slot f.g rfl (exec_xinvPasid f)
  | .xinvAll f => .slot f.g rfl (exec_xinvAll f)
  | .xflush f => .slot f.g rfl (exec_xflush f)
  | .pclass f => .slot f.g rfl (exec_pclass f)
  | .pclassI f => .slot f.g rfl (exec_pclassI f)
  | .opsel f => .slot f.g rfl (exec_opsel f)
  | .opselI f => .slot f.g rfl (exec_opselI f)
  | .grant f => .slot f.g rfl (exec_grant f)
  | .tmark f => .slot f.g rfl (exec_tmark f)
  | .tmarkI f => .slot f.g rfl (exec_tmarkI f)
  | .bkpt f => .slot f.g rfl (exec_bkpt f)
  | .bkptI f => .slot f.g rfl (exec_bkptI f)
  | .shash f => .slot f.g rfl (exec_shash f)
  | .confrd f => .slot f.g rfl (exec_confrd f)
  | .rpctlOff f => .slot f.g rfl (exec_rpctlOff f)
  | .rpctlRec f => .slot f.g rfl (exec_rpctlRec f)
  | .rpctlReplay f => .slot f.g rfl (exec_rpctlReplay f)
  | .rpctlQuery f => .slot f.g rfl (exec_rpctlQuery f)
  | .qsub f => .slot f.g rfl (exec_qsub f)
  | .getsp f => .slot f.g rfl (exec_getsp f)
  | .setsp f => .slot f.g rfl (exec_setsp f)
  | .resultLands c => .event rfl fun s => ⟨_, exec_resultLands c s⟩
  | .interlockedResultReturn c => .event rfl fun s => ⟨_, exec_interlockedResultReturn c s⟩
  | .linePresent c => .event rfl fun s => ⟨_, exec_linePresent c s⟩
  | .requestEntryFree c => .event rfl fun s => ⟨_, exec_requestEntryFree c s⟩
  | .writeBufferDrain c => .event rfl fun s => ⟨_, exec_writeBufferDrain c s⟩
  | .promotionRequest c => .event rfl fun s => ⟨_, exec_promotionRequest c s⟩
  | .sliceAtomic sl => .event rfl fun s => ⟨_, exec_sliceAtomic sl s⟩
  | .remoteScratchAccess c => .event rfl fun s => ⟨_, exec_remoteScratchAccess c s⟩
  | .warpReady c => .event rfl fun s => ⟨_, exec_warpReady c s⟩
  | .loopBackEdge c => .event rfl fun s => ⟨_, exec_loopBackEdge c s⟩
  | .reconvergeMerge c => .event rfl fun s => ⟨_, exec_reconvergeMerge c s⟩
  | .folldComplete c => .event rfl fun s => ⟨_, exec_folldComplete c s⟩
  | .collapseComplete c => .event rfl fun s => ⟨_, exec_collapseComplete c s⟩
  | .expandComplete c => .event rfl fun s => ⟨_, exec_expandComplete c s⟩
  | .strandFaultFreeze c => .event rfl fun s => ⟨_, exec_strandFaultFreeze c s⟩
  | .strandSnapshotResume c => .event rfl fun s => ⟨_, exec_strandSnapshotResume c s⟩
  | .trapEntry c => .event rfl fun s => ⟨_, exec_trapEntry c s⟩
  | .asyncTrapDelivery c => .event rfl fun s => ⟨_, exec_asyncTrapDelivery c s⟩
  | .kettleLineRise l => .event rfl fun s => ⟨_, exec_kettleLineRise l s⟩
  | .kettleRelease l => .event rfl fun s => ⟨_, exec_kettleRelease l s⟩
  | .copyAccept c => .event rfl fun s => ⟨_, exec_copyAccept c s⟩
  | .kickEntryAccept c => .event rfl fun s => ⟨_, exec_kickEntryAccept c s⟩
  | .copyLineMove c => .event rfl fun s => ⟨_, exec_copyLineMove c s⟩
  | .copyGlobalReturn c => .event rfl fun s => ⟨_, exec_copyGlobalReturn c s⟩
  | .copyBytesLand c => .event rfl fun s => ⟨_, exec_copyBytesLand c s⟩
  | .requestError c => .event rfl fun s => ⟨_, exec_requestError c s⟩
  | .pfl2LineDone c => .event rfl fun s => ⟨_, exec_pfl2LineDone c s⟩
  | .pageWaitResume c => .event rfl fun s => ⟨_, exec_pageWaitResume c s⟩
  | .mxStart c => .event rfl fun s => ⟨_, exec_mxStart c s⟩
  | .mxOccupancyEnd c => .event rfl fun s => ⟨_, exec_mxOccupancyEnd c s⟩
  | .mmsgRecordRead c => .event rfl fun s => ⟨_, exec_mmsgRecordRead c s⟩
  | .accallocGrant c => .event rfl fun s => ⟨_, exec_accallocGrant c s⟩
  | .accfreeRelease c => .event rfl fun s => ⟨_, exec_accfreeRelease c s⟩
  | .accDeadlock c => .event rfl fun s => ⟨_, exec_accDeadlock c s⟩
  | .mxResetEnd c => .event rfl fun s => ⟨_, exec_mxResetEnd c s⟩
  | .bankTransfer c => .event rfl fun s => ⟨_, exec_bankTransfer c s⟩
  | .marbleAccept c => .event rfl fun s => ⟨_, exec_marbleAccept c s⟩
  | .marbleStart c => .event rfl fun s => ⟨_, exec_marbleStart c s⟩
  | .marbleComplete c => .event rfl fun s => ⟨_, exec_marbleComplete c s⟩
  | .candidateComplete c => .event rfl fun s => ⟨_, exec_candidateComplete c s⟩
  | .scanDeadline c => .event rfl fun s => ⟨_, exec_scanDeadline c s⟩
  | .qwpWrite q v => .event rfl fun s => ⟨_, exec_qwpWrite q v s⟩
  | .qctlWrite q v => .event rfl fun s => ⟨_, exec_qctlWrite q v s⟩
  | .qstatClear q v => .event rfl fun s => ⟨_, exec_qstatClear q v s⟩
  | .recordAdmit => .event rfl fun s => ⟨_, exec_recordAdmit s⟩
  | .blockPlace c => .event rfl fun s => ⟨_, exec_blockPlace c s⟩
  | .blockEnd c => .event rfl fun s => ⟨_, exec_blockEnd c s⟩
  | .gridComplete => .event rfl fun s => ⟨_, exec_gridComplete s⟩
  | .preempt c => .event rfl fun s => ⟨_, exec_preempt c s⟩
  | .preemptHaltDone c => .event rfl fun s => ⟨_, exec_preemptHaltDone c s⟩
  | .mxResetCmd c => .event rfl fun s => ⟨_, exec_mxResetCmd c s⟩
  | .coreResetCmd c => .event rfl fun s => ⟨_, exec_coreResetCmd c s⟩
  | .walk c => .event rfl fun s => ⟨_, exec_walk c s⟩
  | .atsCompletion c r => .event rfl fun s => ⟨_, exec_atsCompletion c r s⟩
  | .atsTimeout c => .event rfl fun s => ⟨_, exec_atsTimeout c s⟩
  | .prgResponse c r => .event rfl fun s => ⟨_, exec_prgResponse c r s⟩
  | .pageRequestTimeout c => .event rfl fun s => ⟨_, exec_pageRequestTimeout c s⟩
  | .hostAtsInvalidate pasid va pages => .event rfl fun s => ⟨_, exec_hostAtsInvalidate pasid va pages s⟩
  | .invalidationComplete => .event rfl fun s => ⟨_, exec_invalidationComplete s⟩
  | .hostInvPage pasid => .event rfl fun s => ⟨_, exec_hostInvPage pasid s⟩
  | .hostInvRange pasid => .event rfl fun s => ⟨_, exec_hostInvRange pasid s⟩
  | .hostInvPasid pasid => .event rfl fun s => ⟨_, exec_hostInvPasid pasid s⟩
  | .hostInvAll => .event rfl fun s => ⟨_, exec_hostInvAll s⟩
  | .hostHostAccess peer op pa => .event rfl fun s => ⟨_, exec_hostHostAccess peer op pa s⟩
  | .hostCompletionError c => .event rfl fun s => ⟨_, exec_hostCompletionError c s⟩
  | .peerLoss c => .event rfl fun s => ⟨_, exec_peerLoss c s⟩
  | .cgrantWrite c v => .event rfl fun s => ⟨_, exec_cgrantWrite c v s⟩
  | .settleComplete c => .event rfl fun s => ⟨_, exec_settleComplete c s⟩
  | .governedStall c => .event rfl fun s => ⟨_, exec_governedStall c s⟩
  | .slewStep => .event rfl fun s => ⟨_, exec_slewStep s⟩
  | .slewGrant c => .event rfl fun s => ⟨_, exec_slewGrant c s⟩
  | .fillerEnd c => .event rfl fun s => ⟨_, exec_fillerEnd c s⟩
  | .slewWrite g hi isCtl v => .event rfl fun s => ⟨_, exec_slewWrite g hi isCtl v s⟩
  | .hangTimeout c => .event rfl fun s => ⟨_, exec_hangTimeout c s⟩
  | .mxhangTimeout c => .event rfl fun s => ⟨_, exec_mxhangTimeout c s⟩
  | .wstatClear c v => .event rfl fun s => ⟨_, exec_wstatClear c v s⟩
  | .stopArmCycle c v => .event rfl fun s => ⟨_, exec_stopArmCycle c v s⟩
  | .stopArmCount c v => .event rfl fun s => ⟨_, exec_stopArmCount c v s⟩
  | .stopDisarm c v => .event rfl fun s => ⟨_, exec_stopDisarm c v s⟩
  | .stopResume c => .event rfl fun s => ⟨_, exec_stopResume c s⟩
  | .preciseStop c => .event rfl fun s => ⟨_, exec_preciseStop c s⟩
  | .sample c => .event rfl fun s => ⟨_, exec_sample c s⟩
  | .bcmClear c => .event rfl fun s => ⟨_, exec_bcmClear c s⟩
  | .divergedClear c => .event rfl fun s => ⟨_, exec_divergedClear c s⟩
  | .obsctlWrite c v => .event rfl fun s => ⟨_, exec_obsctlWrite c v s⟩
  | .headbandFlush => .event rfl fun s => ⟨_, exec_headbandFlush s⟩
  | .headbandEnable en => .event rfl fun s => ⟨_, exec_headbandEnable en s⟩
  | .dropCountEmit => .event rfl fun s => ⟨_, exec_dropCountEmit s⟩
  | .losslessRoom => .event rfl fun s => ⟨_, exec_losslessRoom s⟩
  | .timeSync => .event rfl fun s => ⟨_, exec_timeSync s⟩
  | .rpmodeOff sl => .event rfl fun s => ⟨_, exec_rpmodeOff sl s⟩
  | .rpmodeRecord sl => .event rfl fun s => ⟨_, exec_rpmodeRecord sl s⟩
  | .rpmodeReplay sl => .event rfl fun s => ⟨_, exec_rpmodeReplay sl s⟩
  | .rlogPartialFlush sl => .event rfl fun s => ⟨_, exec_rlogPartialFlush sl s⟩
  | .gateTimeout sl => .event rfl fun s => ⟨_, exec_gateTimeout sl s⟩
  | .shashRetire c => .event rfl fun s => ⟨_, exec_shashRetire c s⟩
  | .pressPinAssert => .event rfl fun s => ⟨_, exec_pressPinAssert s⟩
  | .pressPinDeassert => .event rfl fun s => ⟨_, exec_pressPinDeassert s⟩
  | .pressCmd => .event rfl fun s => ⟨_, exec_pressCmd s⟩
  | .pressReleaseCmd => .event rfl fun s => ⟨_, exec_pressReleaseCmd s⟩
  | .pressEdge => .event rfl fun s => ⟨_, exec_pressEdge s⟩
  | .pressReleaseEdge => .event rfl fun s => ⟨_, exec_pressReleaseEdge s⟩
  | .dramRefresh stk => .event rfl fun s => ⟨_, exec_dramRefresh stk s⟩
  | .eccScrubForced stk => .event rfl fun s => ⟨_, exec_eccScrubForced stk s⟩
  | .powerOn err => .event rfl fun s => ⟨_, exec_powerOn err s⟩
  | .warmReset memKept err => .event rfl fun s => ⟨_, exec_warmReset memKept err s⟩
  | .attestGo => .event rfl fun s => ⟨_, exec_attestGo s⟩
  | .attestDone => .event rfl fun s => ⟨_, exec_attestDone s⟩
  | .controlRegisterWrite off v => .event rfl fun s => ⟨_, exec_controlRegisterWrite off v s⟩
  | .qsubRecordWritten q => .event rfl fun s => ⟨_, exec_qsubRecordWritten q s⟩
  | .configurationSpaceWrite pasidEn atsEn priEn => .event rfl fun s => ⟨_, exec_configurationSpaceWrite pasidEn atsEn priEn s⟩
  | .powerLoss => .event rfl fun s => ⟨_, exec_powerLoss s⟩

/-- An event has a next state whatever the state. -/
theorem exec_event_goesOn {i : Instr} (hi : i.isInstruction = false) (s : State) : GoesOn (exec i s) := by
  cases meaning i with
  | slot g h _ => exact absurd (hi.symm.trans h) (by decide)
  | bundle hdr slots h =>
    subst h
    exact absurd hi (by simp [Instr.isInstruction, encode])
  | event _ h => exact h s

/-- What comes from outside is an event. -/
theorem isInstruction_of_takes {i : Instr} (h : takes i = true) : i.isInstruction = false := by
  obtain ⟨h, _⟩ := Bool.and_eq_true_iff.mp h
  rcases Bool.or_eq_true_iff.mp h with h | h
  · unfold isOutside at h
    split at h
    pick_goal -1
    · exact absurd h (by decide)
    all_goals rfl
  · unfold reachesPressed at h
    split at h
    pick_goal -1
    · exact absurd h (by decide)
    all_goals rfl

/-! ## The issuer -/

/-- A live path of a warp of a resident block is an issuer. -/
theorem State.env_path {s : State} {w : Warp} {b : Block} {alt : Bool} (hw : (s.core s.sel.core).warps.find? s.sel.warp = some w)
    (hb : (s.core s.sel.core).blocks.find? w.rix = some b) (hs : s.sel.who = .path alt) (hl : (w.path alt).live = true)
    (g : Guard) : ∃ e, s.env g = some e := by
  simp [State.env, hw, hb, hs, hl]

/-- With an issuer for its guard, a slot word has a next state. -/
theorem exec_slot_goesOn {i : Instr} {s : State} (hb : ∀ hdr slots, i ≠ .bundle hdr slots) (he : ∀ g, ∃ e, s.env g = some e) :
    GoesOn (exec i s) := by
  cases meaning i with
  | slot g _ h =>
    obtain ⟨e, he⟩ := he g
    rw [h]
    exact issue_goesOn he
  | bundle hdr slots h => exact absurd h (hb hdr slots)
  | event _ h => exact h s

/-- With a strand on the selected core, a bundle has a next state. -/
theorem issueBundle_goesOn {hdr : W64} {slots : List W64} {s : State} {t : Strand} {w : Warp} {b : Block}
    (ht : (s.core s.sel.core).strand = some t) (hw : (s.core s.sel.core).warps.find? t.warp = some w)
    (hb : (s.core s.sel.core).blocks.find? w.rix = some b) : GoesOn (issueBundle hdr slots s) := by
  unfold issueBundle
  simp only [ht, hw, hb]
  repeat' split
  all_goals exact ⟨_, rfl⟩

/-! ## What the decoders fetch and select -/

/-- What a fetch that gives an instruction has read. -/
theorem Core.fetch_instr {k : Core} {w : Nat} {alt : Bool} {i : Instr} {l : List W64} (h : k.fetch w alt = .instr i l) :
    ∃ x b, k.warps.find? w = some x ∧ k.blocks.find? x.rix = some b ∧
      (x.bundled = true → b.fetchBundle x.pri = .instr i l) ∧ (x.bundled = false → b.fetch (x.path alt) = .instr i l) := by
  unfold Core.fetch at h
  split at h
  · cases h
  · next x hx =>
    split at h
    · cases h
    · next b hb =>
      refine ⟨x, b, hx, hb, fun hn => ?_, fun hn => ?_⟩
      · rw [if_pos hn] at h
        split at h
        · cases h
        · exact h
      · rwa [if_neg (by simp [hn])] at h

/-- What a path of a warp fetches has decoded. -/
theorem Block.fetch_instr {b : Block} {p : Path} {i : Instr} {l : List W64} (h : b.fetch p = .instr i l) :
    ∃ w r, b.fetchWords p = .ok (w :: r) ∧ decode w = .ok i := by
  unfold Block.fetch at h
  split at h
  · next x hx =>
    subst h
    unfold Block.fetchWords at hx
    repeat' split at hx
    all_goals cases hx
  · cases h
  · next w r hr =>
    split at h
    · next j hj =>
      cases h
      exact ⟨w, r, hr, hj⟩
    · cases h

/-- What a strand fetches is a bundle. -/
theorem Block.fetchBundle_instr {b : Block} {p : Path} {i : Instr} {l : List W64} (h : b.fetchBundle p = .instr i l) :
    ∃ hdr slots, i = .bundle hdr slots := by
  unfold Block.fetchBundle at h
  split at h
  · next x hx =>
    subst h
    unfold Block.fetchWords at hx
    repeat' split at hx
    all_goals cases hx
  · cases h
  · split at h
    · cases h
    · cases h
      exact ⟨_, _, rfl⟩

/-- One word decodes to no bundle. -/
theorem decode_ne_bundle {w hdr : W64} {slots : List W64} : decode w ≠ .ok (.bundle hdr slots) := by
  intro h
  obtain ⟨hwf, henc⟩ := decode_ok h
  obtain ⟨-, rfl⟩ := List.cons.inj henc
  simp [Instr.wf] at hwf

theorem longest_mem {x : Cand} : ∀ {l : List Cand}, longest l = some x → x ∈ l
  | y :: l, h => by
    unfold longest at h
    split at h
    · cases h
      exact List.mem_cons_self
    · next z hz =>
      split at h <;> cases h
      · exact List.mem_cons_of_mem _ (longest_mem hz)
      · exact List.mem_cons_self

theorem eagerFirst_mem {choose : List Cand → Option Cand} (hc : ∀ {l x}, choose l = some x → x ∈ l) {l : List Cand} {x : Cand}
    (h : eagerFirst choose l = some x) : x ∈ l := by
  unfold eagerFirst at h
  split at h
  · next y hy =>
    cases h
    exact List.mem_of_mem_filter (hc hy)
  · exact hc h

theorem byClass_mem {cls : Nat} {l : List Cand} {x : Cand} (h : byClass cls l = some x) : x ∈ l := by
  unfold byClass at h
  split at h
  · next y hy =>
    cases h
    exact List.mem_of_mem_filter (longest_mem hy)
  · exact longest_mem h

/-- What the SIMT decoder selects is ready. -/
theorem State.select_ready {s : State} {c : Nat} {x : Cand} (h : s.select c = some x) : x ∈ (s.core c).ready := by
  unfold State.select at h
  dsimp only at h
  split at h
  · next y hy =>
    cases h
    exact List.mem_of_mem_filter (eagerFirst_mem longest_mem hy)
  · exact eagerFirst_mem byClass_mem h

/-- A ready path lives, in a warp that issues no bundles. -/
theorem Core.ready_live {k : Core} {x : Cand} (h : x ∈ k.ready) :
    ∃ w, k.warps.find? x.warp = some w ∧ w.bundled = false ∧ (w.path x.alt).live = true := by
  obtain ⟨p, hp, rfl⟩ := List.mem_map.mp h
  obtain ⟨q, -, hq⟩ := List.mem_flatMap.mp (List.mem_of_mem_filter hp)
  split at hq
  · next w hw =>
    split at hq
    · exact absurd hq List.not_mem_nil
    · next hn =>
      have hn : w.bundled = false := Bool.eq_false_iff.mpr hn
      rcases List.mem_append.mp hq with hq | hq
      · split at hq
        · next hl =>
          cases List.mem_singleton.mp hq
          exact ⟨w, hw, hn, hl⟩
        · exact absurd hq List.not_mem_nil
      · split at hq
        · next hl =>
          cases List.mem_singleton.mp hq
          exact ⟨w, hw, hn, hl⟩
        · exact absurd hq List.not_mem_nil
  · exact absurd hq List.not_mem_nil

/-! ## No step stops -/

/-- An act goes on when what it runs does. -/
theorem Act.perform_goesOn {a : Act} (h : ∀ i u, a = .run i u → GoesOn (exec i u)) : GoesOn a.perform := by
  cases a with
  | move u => exact ⟨u, rfl⟩
  | run i u =>
    obtain ⟨t, ht⟩ := h i u rfl
    exact ⟨t.hazAfter u i, by simp [Act.perform, ht]⟩

/-- What the strand runs is a bundle, and it has the strand for it. -/
theorem State.strandAct_goesOn (s : State) (c : Nat) : GoesOn (s.strandAct c).perform := by
  refine Act.perform_goesOn fun i u h => ?_
  unfold State.strandAct at h
  dsimp only at h
  repeat' split at h
  all_goals cases h
  next t ht _ w hw hmay _ l hf =>
    obtain ⟨x, b, hx, hb, hbun, -⟩ := Core.fetch_instr hf
    obtain rfl : w = x := Option.some.inj (hw.symm.trans hx)
    have hn : w.bundled = true := by
      unfold State.strandMay at hmay
      simp only [Bool.and_eq_true] at hmay
      tauto
    obtain ⟨hdr, slots, rfl⟩ := Block.fetchBundle_instr (hbun hn)
    exact issueBundle_goesOn ht hw hb

/-- What the SIMT decoder runs is a slot word, and it has the selected path for its issuer. -/
theorem State.simtAct_goesOn (s : State) (c : Nat) : GoesOn (s.simtAct c).perform := by
  refine Act.perform_goesOn fun i u h => ?_
  unfold State.simtAct at h
  dsimp only at h
  repeat' split at h
  all_goals cases h
  next x hsel _ l hf =>
    obtain ⟨w, hw, hn, hl⟩ := Core.ready_live (State.select_ready hsel)
    obtain ⟨y, b, hy, hb, -, hfetch⟩ := Core.fetch_instr hf
    obtain rfl : w = y := Option.some.inj (hw.symm.trans hy)
    obtain ⟨word, r, -, hdec⟩ := Block.fetch_instr (hfetch hn)
    exact exec_slot_goesOn (fun hdr slots he => decode_ne_bundle (he ▸ hdec)) (State.env_path hw hb rfl hl)

theorem coreTurn_goesOn (s : State) (c : Nat) (stage : Stage) : GoesOn (coreTurn s c stage) := by
  cases stage with
  | start => exact s.strandAct_goesOn c
  | simt => exact s.simtAct_goesOn c
  | done => exact ⟨_, rfl⟩

/-- Settles O58: an outside event and a due event have a next state, and the decoders run only what has its issuer. -/
theorem stepNeverStops : Obligations.StepNeverStops := by
  intro s
  unfold step
  split
  · split
    · next hi => exact exec_event_goesOn (isInstruction_of_takes hi) _
    · exact ⟨_, rfl⟩
  · split
    · exact ⟨_, rfl⟩
    · split
      · exact coreTurn_goesOn ..
      · exact ⟨_, rfl⟩

end Sys2Proof.Machine
end

section
/-! SUPPORT. What a step runs where it fetches, the values after reset, and the privilege that instructions need. -/

namespace Sys2Proof.Machine

/-! ## A step at a core's turn -/

/-- With no outside event and nothing due, a step is the turn of the core that has it. -/
theorem step_coreTurn {s : State} {c : Nat} {k : Core} (hi : s.inboxNext = none) (hd : s.dueEvent = none)
    (ht : s.turn = some (c, k)) : step s = coreTurn s c k.ck.stage := by
  simp [step, hi, hd, ht]

/-- A core that no kettle line aligns is in no alignment cycle. -/
theorem Clock.lined_none {k : Clock} (h : k.align = none) : k.lined = false := by simp [Clock.lined, h]

theorem Clock.last_none {k : Clock} (h : k.align = none) : k.last = false := by simp [Clock.last, Clock.lined_none h]

/-- An instruction runs with the hazard records it gives rise to (R422). -/
theorem Act.perform_run (i : Instr) (u : State) :
    (Act.run i u).perform = (match exec i u with | .next t => .next (t.hazAfter u i) | o => o) := by
  simp only [Act.perform]
  cases exec i u <;> rfl

/-- A bundle gives rise to none. -/
theorem Act.perform_bundle (h : W64) (l : List W64) (u : State) : (Act.run (.bundle h l) u).perform = exec (.bundle h l) u := by
  rw [Act.perform_run]
  cases exec (.bundle h l) u <;> rfl

theorem Core.fetch_word {k : Core} {w : Nat} {alt : Bool} {x : Warp} {b : Block} {i : Instr} {h : W64} {l : List W64}
    (hw : k.warps.find? w = some x) (hb : k.blocks.find? x.rix = some b) (hn : x.bundled = false)
    (hf : b.fetchWords (x.path alt) = .ok (h :: l)) (hd : decode h = .ok i) : k.fetch w alt = .instr i [h] := by
  simp [Core.fetch, hw, hb, hn, Block.fetch, hf, hd]

theorem Core.fetch_bundle {k : Core} {w : Nat} {alt : Bool} {x : Warp} {b : Block} {h : W64} {l : List W64}
    (hw : k.warps.find? w = some x) (hb : k.blocks.find? x.rix = some b) (hn : x.bundled = true)
    (hf : b.fetchWords x.pri = .ok (h :: l)) (hl : hdrSlots h ≤ l.length) :
    k.fetch w alt = .instr (.bundle h (l.take (hdrSlots h))) (h :: l.take (hdrSlots h)) := by
  simp [Core.fetch, hw, hb, hn, Block.fetchBundle, hf, Nat.not_lt.mpr hl]

/-- Settles O59: nothing comes before the core's turn, and at it the decoder fetches the words that are given. -/
theorem stepRunsDecoded : Obligations.StepRunsDecoded := by
  intro s c k w x b l hi hd ht hw hb hal
  rw [step_coreTurn hi hd ht]
  refine ⟨fun y i h hstage hspan hbk hsel hy hn hf hdec => ?_, fun t h hstage hfr hst hwt hmay hn hf hl => ?_⟩
  · subst hy
    have hact : s.simtAct c = .run i { s with sel := ⟨c, y.warp, .path y.alt⟩ } := by
      simp [State.simtAct, hspan, hbk, Clock.lined_none hal, hsel, Core.fetch_word hw hb hn hf hdec]
    rw [hstage, coreTurn, hact]
    exact Act.perform_run _ _
  · subst hwt
    have hact : s.strandAct c = .run (.bundle h (l.take (hdrSlots h))) { s with sel := ⟨c, t.warp, .core⟩ } := by
      simp [State.strandAct, Clock.last_none hal, hfr, hst, hw, hmay, Core.fetch_bundle hw hb hn hf hl]
    rw [hstage, coreTurn, hact]
    exact Act.perform_bundle _ _ _

/-! ## Reset -/

/-- After reset a control register reads as its reset value. -/
theorem reset_ctlAt (off : Nat) : State.reset.ctlAt off = ctlReset off := BitVec.zero_xor

/-- After reset every core is one that nothing has run on. -/
theorem reset_core (c : Nat) : State.reset.core c = Core.idle 0 := rfl

/-- The queue registers have no reset value of their own. -/
theorem ctlReset_queue {q : Nat} (h : q < 64) : ctlReset (offQueue q + 8) = 0 := by
  unfold ctlReset offQueue
  rw [if_neg (by omega), if_neg (by omega), if_neg (by omega), if_neg (by omega), if_neg (by omega)]

/-- The watch limits (R401). -/
theorem ctlReset_watch {c : Nat} (h : c < 576) : ctlReset (offWatch c) = 0x80000000 ∧ ctlReset (offWatch c + 4) = 0x01000000 := by
  unfold ctlReset offWatch
  constructor
  · rw [if_neg (by omega), if_neg (by omega), if_pos (by omega), if_pos (by omega)]
  · rw [if_neg (by omega), if_neg (by omega), if_pos (by omega), if_neg (by omega), if_pos (by omega)]

/-- The observation registers have no reset value of their own. -/
theorem ctlReset_obs {c : Nat} (h : c < 576) : ctlReset (offObs c) = 0 := by
  unfold ctlReset offObs
  rw [if_neg (by omega), if_neg (by omega), if_neg (by omega), if_neg (by omega), if_neg (by omega)]

/-- The slew ramp and its enable (R395). -/
theorem ctlReset_slew {j : Nat} (h : j < 72) : ctlReset (0x22000 + 16 * j) = 0x87654321 ∧
    ctlReset (0x22000 + 16 * j + 4) = 0x88888888 ∧ ctlReset (0x22000 + 16 * j + 8) = 1 := by
  unfold ctlReset
  refine ⟨?_, ?_, ?_⟩
  · rw [if_neg (by omega), if_pos (by omega), if_pos (by omega)]
  · rw [if_neg (by omega), if_pos (by omega), if_neg (by omega), if_pos (by omega)]
  · rw [if_neg (by omega), if_pos (by omega), if_neg (by omega), if_neg (by omega), if_pos (by omega)]

/-- The class map after reset is the identity (R383). -/
theorem idle_pmap {n : Nat} (h : n < 8) : (Core.idle 0).gov.pmap n = n := by
  have : ∀ m : Fin 8, (Core.idle 0).gov.pmap m = m := by decide
  exact this ⟨n, h⟩

/-- Settles O60: the fields of the reset state stand in its definition, and its control registers read as their reset
values. -/
theorem resetValues : Obligations.ResetValues := by
  refine ⟨rfl, rfl, rfl, by decide, fun q hq => ?_, fun c hc => ?_, fun j hj => ?_⟩
  · rw [State.qctl, reset_ctlAt, ctlReset_queue hq]
    rfl
  · obtain ⟨hhang, hmx⟩ := ctlReset_watch hc
    simp only [reset_core, State.hangLim, State.mxLim, State.obsctl, reset_ctlAt, hhang, hmx, ctlReset_obs hc]
    exact ⟨rfl, rfl, rfl, rfl, rfl, rfl, rfl, fun n hn => idle_pmap hn, rfl, rfl, trivial⟩
  · obtain ⟨hlo, hhi, hctl⟩ := ctlReset_slew hj
    simp only [State.ctl64, reset_ctlAt, hlo, hhi, hctl]
    exact ⟨rfl, trivial⟩

/-! ## Privilege (R56) -/

/-- An instruction whose first check is a privilege that its issuer lacks traps with PRIVILEGE, with the mask of a decode
cause. -/
theorem exec_without {i : Instr} {g : Guard} {body : Body} {s : State} {e : Env} {p : Bool} (h : s.Issues g e)
    (hi : exec i s = issue (costOf i) g body s)
    (hb : ∃ f, body e (e.enter s) = need p cPrivilege e.dec >>= f) (hp : p = false) :
    exec i s = .next (e.stopped s (.trap 0x04 e.dec)) := by
  obtain ⟨f, hf⟩ := hb
  rw [hi]
  exact issue_stops h (by rw [hf, need_false hp, error_bind]; rfl)

/-- The special registers that SETSP may write in a privileged warp alone. -/
theorem spPriv_of_mem {code : Nat} (h : code ∈ [0x12, 0x14, 0x15, 0x16]) : spPriv code = true := by
  fin_cases h <;> rfl

/-- Settles O53: each checks its privilege first. -/
theorem privilegeTraps : Obligations.PrivilegeTraps := by
  intro s e
  refine ⟨fun f h => ⟨fun hp => ?_, fun hp hcode => ?_, fun hp => ?_⟩, fun f h hp => ?_, fun f h hp => ?_⟩
  · simp only [List.forall_mem_cons]
    exact ⟨exec_without h (exec_xinvPage f s) ⟨_, rfl⟩ hp, exec_without h (exec_xinvRange f s) ⟨_, rfl⟩ hp,
      exec_without h (exec_xinvPasid f s) ⟨_, rfl⟩ hp, exec_without h (exec_xinvAll f s) ⟨_, rfl⟩ hp,
      exec_without h (exec_xflush f s) ⟨_, rfl⟩ hp, exec_without h (exec_grant f s) ⟨_, rfl⟩ hp,
      exec_without h (exec_rpctlOff f s) ⟨_, rfl⟩ hp, exec_without h (exec_rpctlRec f s) ⟨_, rfl⟩ hp,
      exec_without h (exec_rpctlReplay f s) ⟨_, rfl⟩ hp, exec_without h (exec_rpctlQuery f s) ⟨_, rfl⟩ hp,
      List.forall_mem_nil _⟩
  · exact exec_without h (exec_setsp f s) ⟨_, rfl⟩ (by simp [spPriv_of_mem hcode, hp])
  · exact exec_without h (exec_opsel f s) ⟨_, rfl⟩ hp
  · exact exec_without h (exec_opselI f s) ⟨_, rfl⟩ hp
  · exact exec_without h (exec_domset f s) ⟨_, rfl⟩ hp

end Sys2Proof.Machine
end

section
/-! SUPPORT. The integer unit's results: two-source, immediate, one-source and three-source instructions are lane
instructions, compares and PLOP predicate instructions, the cross-lane ones uniform instructions. -/

namespace Sys2Proof.Machine

/-! ## Lane instructions of one list -/

/-- Every instruction of a list whose meaning is a lane instruction of the same operands has its result in flight. -/
theorem exec_laneOps {α : Type} {rs : List α} {i : α → Instr} {lat : α → Nat} {val : α → Env → Nat → W64} {s : State}
    {e : Env} {g : Guard} {src : List Opnd} {d : Code} {w : Bool}
    (hi : ∀ r ∈ rs, exec (i r) s = issue (costOf (i r)) g (laneOp 0 (lat r) src d w (val r)) s) (h : s.Issues g e)
    (hl : e.legal src = true) (hd : e.vOk d w = true) (hq : e.quiet src = true) :
    ∀ r ∈ rs, exec (i r) s = .next (e.complete (costOf (i r)) g (e.vResult 0 (lat r) d w (val r e) (e.enter s))) ∧
      s.SameBut Warp.SameButIssue (e.complete (costOf (i r)) g (e.vResult 0 (lat r) d w (val r e) (e.enter s))) e.c e.w :=
  fun r hr => exec_laneOp (hi r hr) h hl hd hq

/-- Settles O1: all eighteen are lane instructions of A and B. -/
theorem integerTwoSourceResults : Obligations.IntegerTwoSourceResults := by
  intro s e f h a b hl hd hq
  refine exec_laneOps (α := Instr × Nat × (W64 → W64 → W64)) (i := fun r => r.1) (lat := fun r => r.2.1)
    (val := fun r e l => r.2.2 (a.val e l) (b.val e l)) ?_ h hl hd hq
  simp only [List.forall_mem_cons]
  exact ⟨exec_iadd f s, exec_isub f s, exec_imul f s, exec_imulh f s, exec_idiv f s, exec_irem f s, exec_imin f s,
    exec_imax f s, exec_iadds f s, exec_and f s, exec_or f s, exec_xor f s, exec_andn f s, exec_shl f s, exec_shr f s,
    exec_sar f s, exec_rotl f s, exec_movh f s, List.forall_mem_nil _⟩

/-- Settles O2: all eighteen are lane instructions of A, with the extended IMM24 as a constant; MOVI is one of no operand. -/
theorem integerImmediateResults : Obligations.IntegerImmediateResults := by
  intro s e f h a b
  refine ⟨fun hl hd hq => exec_laneOps (α := Instr × Nat × (W64 → W64 → W64)) (i := fun r => r.1)
      (lat := fun r => r.2.1) (val := fun r e l => r.2.2 (a.val e l) b) ?_ h hl hd hq,
    fun hd hq => (exec_laneOp (exec_movi f s) h rfl hd hq :)⟩
  simp only [List.forall_mem_cons]
  exact ⟨exec_iaddI f s, exec_isubI f s, exec_imulI f s, exec_imulhI f s, exec_idivI f s, exec_iremI f s, exec_iminI f s,
    exec_imaxI f s, exec_iaddsI f s, exec_andI f s, exec_orI f s, exec_xorI f s, exec_andnI f s, exec_shlI f s,
    exec_shrI f s, exec_sarI f s, exec_rotlI f s, exec_movhI f s, List.forall_mem_nil _⟩

/-- Settles O3: all seven are lane instructions of A. -/
theorem integerOneSourceResults : Obligations.IntegerOneSourceResults := by
  intro s e f h a hl hd hq
  refine exec_laneOps (α := Instr × (W64 → W64)) (i := fun r => r.1) (lat := fun _ => 2)
    (val := fun r e l => r.2 (a.val e l)) ?_ h hl hd hq
  simp only [List.forall_mem_cons]
  exact ⟨exec_iabs f s, exec_ineg f s, exec_not f s, exec_popc f s, exec_clz f s, exec_ctz f s, exec_brev f s,
    List.forall_mem_nil _⟩

/-- Settles O4: each is a lane instruction of A, B and C of the widths that it takes. -/
theorem integerThreeSourceResults : Obligations.IntegerThreeSourceResults := by
  intro s e f h w
  simp only [List.forall_mem_cons]
  exact ⟨(exec_laneOp (exec_imad f s) h :), (exec_laneOp (exec_clamp f s) h :), (exec_laneOp (exec_bfx f s) h :),
    (exec_laneOp (exec_bfi f s) h :), (exec_laneOp (exec_isad f s) h :), (exec_laneOp (exec_idot4 f s) h :),
    (exec_laneOp (exec_funnel f s) h :), (exec_laneOp (exec_bshuf f s) h :), List.forall_mem_nil _⟩

/-! ## Predicates -/

/-- A predicate instruction with legal operands that have landed has its predicate in flight, and nothing else changes but
what an issue changes. -/
theorem exec_predOp {i : Instr} {s : State} {e : Env} {g : Guard} {unit lat : Nat} {src : List Opnd} {d : Code}
    {f : Env → Nat → Bool} (hi : exec i s = issue (costOf i) g (predOp unit lat src d f) s) (h : s.Issues g e)
    (hl : e.legal src = true) (hd : qOk d = true) (hq : e.quiet src = true) :
    exec i s = .next (e.complete (costOf i) g (e.qResult unit lat d (f e) (e.enter s))) ∧
      s.SameBut Warp.SameButIssue (e.complete (costOf i) g (e.qResult unit lat d (f e) (e.enter s))) e.c e.w :=
  ⟨hi.trans (issue_predOp h hl hd hq), e.complete_qResult_same ..⟩

/-- Settles O6: each is a predicate instruction whose value is the one stated. -/
theorem predicateResults : Obligations.PredicateResults :=
  ⟨fun s _ f h hl hd hq => (exec_predOp (exec_icmp f s) h hl hd hq :),
    fun s _ f h hl hd hq => (exec_predOp (exec_icmpI f s) h hl hd hq :),
    fun s _ f h hd hq => (exec_predOp (exec_plop f s) h rfl hd hq :)⟩

/-! ## Over the active lanes (R82 to R86) -/

/-- A uniform instruction with some lane active has its w register in flight, and nothing else changes but what an issue
changes. -/
theorem exec_uniformOp {i : Instr} {s : State} {e : Env} {g : Guard} {body : Body} {unit lat : Nat} {src : List Opnd}
    {d : Code} {w : Bool} {f : Env → W64} (hi : exec i s = issue (costOf i) g body s)
    (hb : body e (e.enter s) = uniformOp unit lat src d w f e (e.enter s)) (h : s.Issues g e) (ha : e.act ≠ 0)
    (hl : e.legal src = true) (hd : wOk d w = true) (hq : e.quiet src = true) :
    exec i s = .next (e.complete (costOf i) g (e.wResult unit lat d w (f e) (e.enter s))) ∧
      s.SameBut Warp.SameButIssue (e.complete (costOf i) g (e.wResult unit lat d w (f e) (e.enter s))) e.c e.w :=
  ⟨hi.trans (issue_next h (by rw [hb, uniformOp_ok hl hd hq, if_neg ha])), e.complete_wResult_same ..⟩

/-- With no lane active it writes nothing. -/
theorem exec_uniformOp_none {i : Instr} {s : State} {e : Env} {g : Guard} {body : Body} {unit lat : Nat} {src : List Opnd}
    {d : Code} {w : Bool} {f : Env → W64} (hi : exec i s = issue (costOf i) g body s)
    (hb : body e (e.enter s) = uniformOp unit lat src d w f e (e.enter s)) (h : s.Issues g e) (ha : e.act = 0)
    (hl : e.legal src = true) (hd : wOk d w = true) (hq : e.quiet src = true) :
    exec i s = .next (e.complete (costOf i) g (e.enter s)) :=
  hi.trans (issue_next h (by rw [hb, uniformOp_ok hl hd hq, if_pos ha]))

/-- Outside a lane slot an instruction that no lane slot may hold goes on (R82). -/
theorem Env.notLane_bind {α : Type} {e : Env} (hn : e.inLane = false) (k : Unit → Except Stop α) :
    (e.notLane >>= k) = k () := by rw [Env.notLane_ok hn, ok_bind]

/-- So it does with a field that is legal. -/
theorem Env.notLane_field_bind {α : Type} {e : Env} {b : Bool} (hn : e.inLane = false) (hb : b = true)
    (k : Unit → Except Stop α) : (e.notLane >>= fun _ => e.field b >>= k) = k () := by
  rw [Env.notLane_bind hn, Env.field_true hb, ok_bind]

theorem bodyVote_off {f : F2} {e : Env} {s : State} (hn : e.inLane = false) : bodyVote f e s =
    uniformOp 0 4 [] f.d false (fun e => fnVote f.mod.toNat e.act (e.pred f.a) e.base) e s :=
  Env.notLane_bind hn _

theorem bodyRdlane_off {f : F2} {e : Env} {s : State} (hn : e.inLane = false) (hv : f.a.toNat < 384) : bodyRdlane f e s =
    uniformOp 0 4 [f.srcA 0 (tyWide f.mod) false, f.srcB 0 false false] f.d (tyWide f.mod) (fun e =>
      laneOf e (f.srcA 0 (tyWide f.mod) false) ((f.srcB 0 false false).val32 e ((lowest e.act).getD e.base)).toNat) e s :=
  Env.notLane_field_bind hn (decide_eq_true hv) _

theorem bodyRdlaneI_off {f : FI} {e : Env} {s : State} (hn : e.inLane = false) (hv : f.a.toNat < 384)
    (hk : f.imm.toNat < e.size) : bodyRdlaneI f e s = uniformOp 0 4 [f.srcA 0 (tyWide f.mod) false] f.d (tyWide f.mod)
      (fun e => laneOf e (f.srcA 0 (tyWide f.mod) false) f.imm.toNat) e s :=
  Env.notLane_field_bind hn (by simp [hv, hk]) _

theorem bodyIredw_off {f : F2} {e : Env} {s : State} (hn : e.inLane = false) : bodyIredw f e s =
    uniformOp 0 8 [f.srcA 0 (tyWide f.mod) false] f.d (tyWide f.mod) (fun e => BitVec.ofInt 64 ((lanesOf e.act).foldl
      (fun acc l => redStep f.mod f.b.toNat acc (tyVal f.mod ((f.srcA 0 (tyWide f.mod) false).val e l) 0))
      (redIdentity f.mod f.b.toNat))) e s :=
  Env.notLane_bind hn _

theorem bodyFind1_off {f : F2} {e : Env} {s : State} (hn : e.inLane = false) (hv : f.a.toNat < 384) : bodyFind1 f e s =
    laneOp 0 4 [f.srcA 0 (tyWide f.mod) false] f.d false (fun e l =>
      (fnFind1 e.act e.base (fun j => (f.srcA 0 (tyWide f.mod) false).val e j != 0) l).setWidth 64) e s :=
  Env.notLane_field_bind hn (decide_eq_true hv) _

/-- Settles O7: outside a lane slot, and with A a v register where that is asked for, each is a uniform instruction, and FIND1 a
lane instruction. -/
theorem crossLaneResults : Obligations.CrossLaneResults := by
  refine ⟨fun s e hn ha => ⟨?vote, ?rdlane, ?rdlaneI, ?iredw⟩, ?find1, fun s e hn ha => ⟨fun f h => ?none, ?rdlaneINone⟩⟩
  case vote =>
    intro f h hd hq
    exact (exec_uniformOp (exec_vote f s) (bodyVote_off hn) h ha rfl hd hq :)
  case rdlane =>
    intro f h a b hv hl hd hq
    exact (exec_uniformOp (exec_rdlane f s) (bodyRdlane_off hn hv) h ha hl hd hq :)
  case rdlaneI =>
    intro f h a hv hk hl hd hq
    exact (exec_uniformOp (exec_rdlaneI f s) (bodyRdlaneI_off hn hv hk) h ha hl hd hq :)
  case iredw =>
    intro f h a hl hd hq
    exact (exec_uniformOp (exec_iredw f s) (bodyIredw_off hn) h ha hl hd hq :)
  case find1 =>
    intro s e f hn h a hv hl hd hq
    exact ⟨(exec_find1 f s).trans (issue_next h ((bodyFind1_off hn hv).trans (laneOp_ok hl hd hq))),
      e.complete_vResult_same ..⟩
  case none =>
    intro a b
    exact ⟨fun hd hq => (exec_uniformOp_none (exec_vote f s) (bodyVote_off hn) h ha rfl hd hq :),
      fun hv hl hd hq => (exec_uniformOp_none (exec_rdlane f s) (bodyRdlane_off hn hv) h ha hl hd hq :),
      fun hl hd hq => (exec_uniformOp_none (exec_iredw f s) (bodyIredw_off hn) h ha hl hd hq :)⟩
  case rdlaneINone =>
    intro f h a hv hk hl hd hq
    exact (exec_uniformOp_none (exec_rdlaneI f s) (bodyRdlaneI_off hn hv hk) h ha hl hd hq :)

/-! ## Moves (R30, R31) -/

/-- Settles O8: with its form legal and nothing to wait for a move is a lane instruction of its lanes' values, or puts them for
its port. -/
theorem moveResults : Obligations.MoveResults := by
  intro s e f h hform hwait hl hq
  refine ⟨fun l hr => ?value, fun hp hd => ⟨(exec_mov f s).trans (issue_next h ?lane), e.complete_vResult_same ..⟩,
    fun hp => ⟨(exec_mov f s).trans (issue_next h ?port), e.complete_put_same ..⟩⟩
  case value =>
    refine if_neg fun hc => ?_
    simp only [Bool.and_eq_true, decide_eq_true_eq, Bool.not_eq_true'] at hc
    obtain ⟨⟨hx, ha⟩, hreach⟩ := hc
    rcases hr with hr | hr | hr
    · simp [hr] at hx
    · omega
    · simp [hr] at hreach
  case lane =>
    simp only [bodyMov, Env.enc_true hform, hwait, hp, ok_bind, Bool.false_eq_true, ↓reduceIte, beq_self_eq_true]
    exact laneOp_ok hl hd hq
  case port =>
    simp only [bodyMov, Env.enc_true hform, hwait, beq_eq_false_iff_ne.mpr hp, ok_bind, Bool.false_eq_true, ↓reduceIte,
      Env.sources_ok hl, Env.landed_ok hq]

end Sys2Proof.Machine
end

section
/-! SUPPORT. The results of the float and special-function units: arithmetic by elements, compares, conversions by groups, the
reduction, the mode register and the flags. -/

namespace Sys2Proof.Machine

/-! ## Arithmetic by elements (R98 to R102, R112, R113) -/

/-- A float instruction by elements with legal operands that have landed has its result and flags in flight; besides what any
issue changes only generators change. -/
theorem exec_elemsOp {i : Instr} {s : State} {e : Env} {gd : Guard} {unit lat : Nat} {t : Fmt} {src : List Opnd} {d : Code}
    {rnd : BitVec 3} {nf : Bool} {g : Env → Nat → Nat → Nat → Res}
    (hi : exec i s = issue (costOf i) gd (elemsOp unit lat t src d rnd nf g) s) (h : s.Issues gd e)
    (hl : e.legal src = true) (hd : e.vOk d (t.width == 64) = true) (hq : e.quiet src = true) :
    let u := e.complete (costOf i) gd (e.floatResult unit lat (e.phys d.toNat (if t.width == 64 then 2 else 1)) nf
      (e.floatElements t rnd (g e)) (e.enter s))
    exec i s = .next u ∧ s.SameBut Warp.SameButDraw u e.c e.w :=
  ⟨hi.trans (issue_elemsOp h hl hd hq), e.complete_floatResult_same ..⟩

/-- Of A and B. -/
theorem exec_fuBin {i : Instr} {s : State} {e : Env} {f : F2} {G : Fmt → Nat → Nat → Nat → Res}
    (hi : exec i s = issue (costOf i) f.g (fuBin f G) s) (h : s.Issues f.g e) :
    let t := fmtOf f.mod.toNat
    let a := fpOpnd 0 1 f.amod f.a t
    let b := fpOpnd 1 1 0 f.b t
    e.legal [a, b] = true → e.vOk f.d (t.width == 64) = true → e.quiet [a, b] = true →
    let u := e.complete (costOf i) f.g (e.floatResult 1 (fuLat t) (e.phys f.d.toNat (if t.width == 64 then 2 else 1)) f.nf
      (e.floatElements t f.rnd (fun l m i => G t m (flushedElem e t (a.val e l) i) (flushedElem e t (b.val e l) i)))
      (e.enter s))
    exec i s = .next u ∧ s.SameBut Warp.SameButDraw u e.c e.w := by
  intro t a b
  exact exec_elemsOp (src := [a, b]) (g := fun e l m i => G t m (flushedElem e t (a.val e l) i) (flushedElem e t (b.val e l) i))
    hi h

/-- Of A and the immediate. -/
theorem exec_fuBinI {i : Instr} {s : State} {e : Env} {f : FI} {G : Fmt → Nat → Nat → Nat → Res}
    (hi : exec i s = issue (costOf i) f.g (fuBinI f G) s) (h : s.Issues f.g e) :
    let t := fmtOf f.mod.toNat
    let a := fpOpnd 0 1 0 f.a t
    e.legal [a] = true → e.vOk f.d (t.width == 64) = true → e.quiet [a] = true →
    let u := e.complete (costOf i) f.g (e.floatResult 1 (fuLat t) (e.phys f.d.toNat (if t.width == 64 then 2 else 1)) f.nf
      (e.floatElements t 0 (fun l m i =>
        G t m (flushedElem e t (a.val e l) i) (flushedElem e t (immFU f.mod f.imm) i))) (e.enter s))
    exec i s = .next u ∧ s.SameBut Warp.SameButDraw u e.c e.w := by
  intro t a
  exact exec_elemsOp (src := [a])
    (g := fun e l m i => G t m (flushedElem e t (a.val e l) i) (flushedElem e t (immFU f.mod f.imm) i)) hi h

/-- Of A, in the special-function unit. -/
theorem exec_sfOp {i : Instr} {s : State} {e : Env} {f : F2} {lat : Nat} {rnd : BitVec 3} {G : Fmt → FV → Res}
    (hi : exec i s = issue (costOf i) f.g (sfOp lat f rnd G) s) (h : s.Issues f.g e) :
    let t := fmtOf f.mod.toNat
    let a := fpOpnd 0 2 f.amod f.a t
    e.legal [a] = true → e.vOk f.d (t.width == 64) = true → e.quiet [a] = true →
    let u := e.complete (costOf i) f.g (e.floatResult 2 lat (e.phys f.d.toNat (if t.width == 64 then 2 else 1)) f.nf
      (e.floatElements t rnd (fun l _ i => G t (t.read (flushedElem e t (a.val e l) i)))) (e.enter s))
    exec i s = .next u ∧ s.SameBut Warp.SameButDraw u e.c e.w := by
  intro t a
  exact exec_elemsOp (src := [a]) (g := fun e l _ i => G t (t.read (flushedElem e t (a.val e l) i))) hi h

/-- Settles O9: all six are float instructions by elements of A and B. -/
theorem floatTwoSourceResults : Obligations.FloatTwoSourceResults := by
  intro s e f h t a b hl hd hq
  simp only [List.forall_mem_cons]
  exact ⟨(exec_fuBin (exec_fadd f s) h hl hd hq :), (exec_fuBin (exec_fsub f s) h hl hd hq :),
    (exec_fuBin (exec_fmul f s) h hl hd hq :), (exec_fuBin (exec_fmin f s) h hl hd hq :),
    (exec_fuBin (exec_fmax f s) h hl hd hq :), (exec_fuBin (exec_fscale f s) h hl hd hq :), List.forall_mem_nil _⟩

/-- Settles O10: all six are float instructions by elements of A and the immediate, by the mode register. -/
theorem floatImmediateResults : Obligations.FloatImmediateResults := by
  intro s e f h t a b hl hd hq
  simp only [List.forall_mem_cons]
  exact ⟨(exec_fuBinI (exec_faddI f s) h hl hd hq :), (exec_fuBinI (exec_fsubI f s) h hl hd hq :),
    (exec_fuBinI (exec_fmulI f s) h hl hd hq :), (exec_fuBinI (exec_fminI f s) h hl hd hq :),
    (exec_fuBinI (exec_fmaxI f s) h hl hd hq :), (exec_fuBinI (exec_fscaleI f s) h hl hd hq :), List.forall_mem_nil _⟩

/-- Settles O16: each is a float instruction by elements, of A alone or, FDIV, of A and B. -/
theorem specialFunctionResults : Obligations.SpecialFunctionResults := by
  intro s e f h t a
  refine ⟨fun hl hd hq => ?one, ?two⟩
  case one =>
    simp only [List.forall_mem_cons]
    exact ⟨(exec_sfOp (exec_rcp f s) h hl hd hq :), (exec_sfOp (exec_rsq f s) h hl hd hq :),
      (exec_sfOp (exec_sqrt f s) h hl hd hq :), (exec_sfOp (exec_ex2 f s) h hl hd hq :),
      (exec_sfOp (exec_lg2 f s) h hl hd hq :), (exec_sfOp (exec_sinpi f s) h hl hd hq :),
      (exec_sfOp (exec_cospi f s) h hl hd hq :), (exec_sfOp (exec_tanh f s) h hl hd hq :),
      (exec_sfOp (exec_sigm f s) h hl hd hq :), List.forall_mem_nil _⟩
  case two =>
    intro b
    exact exec_elemsOp (src := [a, b])
      (g := fun e l _ i => fnFdiv t (t.read (flushedElem e t (a.val e l) i)) (t.read (flushedElem e t (b.val e l) i)))
      (exec_fdiv f s) h

/-! ## The fused product and sum (R10, R100) -/

/-- What an FFMA or FNMA leaves: its result, and for FP64 the float units that it takes. -/
def Env.fmaResult (e : Env) (f : F3) (G : Fmt → Nat → Nat → Nat → Nat → Res) (s : State) : State :=
  let t := fmtOf f.mod.toNat
  let x (o : Opnd) (l i : Nat) : Nat := flushedElem e t (o.val e l) i
  let v := e.floatResult 1 (fuLat t) (e.phys f.d.toNat (if t.width == 64 then 2 else 1)) f.nf
    (e.floatElements t f.rnd (fun l m i =>
      G t m (x (fpOpnd 0 1 0 f.a t) l i) (x (fpOpnd 1 1 0 f.b t) l i) (x (fpOpnd 2 1 0 f.c t) l i))) s
  if f.mod = 3 then e.takeFma v else v

/-- With legal landed operands, and in a strand with free float units for an FP64 one, the body is that result. -/
theorem fmaBody_ok {f : F3} {G : Fmt → Nat → Nat → Nat → Nat → Res} {e : Env} {s : State}
    (hl : e.legal [fpOpnd 0 1 0 f.a (fmtOf f.mod.toNat), fpOpnd 1 1 0 f.b (fmtOf f.mod.toNat),
      fpOpnd 2 1 0 f.c (fmtOf f.mod.toNat)] = true)
    (hd : e.vOk f.d ((fmtOf f.mod.toNat).width == 64) = true)
    (hq : e.quiet [fpOpnd 0 1 0 f.a (fmtOf f.mod.toNat), fpOpnd 1 1 0 f.b (fmtOf f.mod.toNat),
      fpOpnd 2 1 0 f.c (fmtOf f.mod.toNat)] = true)
    (hfree : f.mod = 3 → e.strand = true → (s.core e.c).fmaBusy e.fmaLanes = false) :
    fmaBody f G e s = .ok (e.fmaResult f G s) := by
  rw [fmaBody, fuTri, elemsOp_ok hl hd hq, ok_bind, Env.fmaResult]
  by_cases hm : f.mod = 3
  · have hbusy : (e.strand && (s.core e.c).fmaBusy e.fmaLanes) = false := by
      cases hs : e.strand with
      | false => rfl
      | true => exact hfree hm hs
    rw [if_neg (by simp [hm]), hbusy, if_neg Bool.false_ne_true, if_pos hm]
  · rw [if_pos (bne_iff_ne.mpr hm), if_neg hm]

/-- Its frame is a float result's. -/
theorem Env.fmaResult_same (e : Env) (f : F3) (G : Fmt → Nat → Nat → Nat → Nat → Res) (s : State) :
    s.SameBut Warp.SameButDraw (e.fmaResult f G s) e.c e.w := by
  unfold Env.fmaResult
  split
  · exact (e.floatResult_same ..).trans Warp.SameButDraw.frame (e.takeFma_same _).draw
  · exact e.floatResult_same ..

/-- Issuing one. -/
theorem exec_fma {i : Instr} {s : State} {e : Env} {f : F3} {G : Fmt → Nat → Nat → Nat → Nat → Res}
    (hi : exec i s = issue (costOf i) f.g (fmaBody f G) s) (h : s.Issues f.g e)
    (hb : fmaBody f G e (e.enter s) = .ok (e.fmaResult f G (e.enter s))) :
    let u := e.complete (costOf i) f.g (e.fmaResult f G (e.enter s))
    exec i s = .next u ∧ s.SameBut Warp.SameButDraw u e.c e.w :=
  ⟨hi.trans (issue_next h hb), e.issue_same Warp.SameButDraw.frame Warp.SameButIssue.draw _ _ (e.fmaResult_same ..)⟩

/-- Settles O11: FFMA and FNMA leave `Env.fmaResult`, FDOT2 is a float instruction by elements. -/
theorem floatThreeSourceResults : Obligations.FloatThreeSourceResults := by
  intro s e f h t a b
  refine ⟨fun hl hd hq hfree => ?fma, ?dot⟩
  case fma =>
    simp only [List.forall_mem_cons]
    exact ⟨(exec_fma (exec_ffma f s) h (fmaBody_ok hl hd hq hfree) :),
      (exec_fma (exec_fnma f s) h (fmaBody_ok hl hd hq hfree) :), List.forall_mem_nil _⟩
  case dot =>
    intro c
    exact exec_elemsOp (t := fmtF32) (src := [a, b, c]) (g := fun e l m _ =>
      resDot2 m (t.read (flushedElem e t (a.val e l) 0)) (t.read (flushedElem e t (b.val e l) 0))
        (t.read (flushedElem e t (a.val e l) 1)) (t.read (flushedElem e t (b.val e l) 1))
        (fmtF32.read (flushedElem e fmtF32 (c.val e l) 0))) (exec_fdot2 f s) h

/-! ## Compares (R104) -/

/-- A float compare with legal operands that have landed has its predicate and flags in flight, and nothing else changes but what
an issue changes. -/
theorem exec_floatPred {i : Instr} {s : State} {e : Env} {gd : Guard} {lat : Nat} {src : List Opnd} {d : Code} {nf : Bool}
    {g : Env → Nat → Bool × Nat} (hi : exec i s = issue (costOf i) gd (floatPred lat src d nf g) s) (h : s.Issues gd e)
    (hl : e.legal src = true) (hd : qOk d = true) (hq : e.quiet src = true) :
    let u := e.complete (costOf i) gd (e.putFlags 1 lat nf ((lanesOf e.act).map (fun l => (g e l).2))
      (e.qResult 1 lat d (fun l => (g e l).1) (e.enter s)))
    exec i s = .next u ∧ s.SameBut Warp.SameButIssue u e.c e.w := by
  refine ⟨hi.trans (issue_next h ?_), e.issue_same Warp.SameButIssue.frame id _ _
    ((e.qResult_same ..).trans Warp.SameButIssue.frame (e.putFlags_same ..))⟩
  simp only [floatPred, Env.sources_ok hl, Env.dstQ_ok hd, Env.landed_ok hq]
  rfl

/-- Settles O13: both forms are float compares. -/
theorem floatCompareResults : Obligations.FloatCompareResults :=
  ⟨fun s _ f h hl hd hq => (exec_floatPred (exec_fcmp f s) h hl hd hq :),
    fun s _ f h hl hd hq => (exec_floatPred (exec_fcmpI f s) h hl hd hq :)⟩

/-! ## Integral rounding and conversions (R106 to R110) -/

/-- A conversion's result changes only what a float result changes. -/
theorem Env.convResult_same (e : Env) (f : F2) (n ws wd : Nat) (fp : Bool) (g : Nat → W32 → Nat × Nat × W32) (s : State) :
    s.SameBut Warp.SameButDraw (e.convResult f n ws wd fp g s) e.c e.w :=
  ((e.put_same ..).trans Warp.SameButIssue.frame (e.putFlags_same ..)).draw.trans Warp.SameButDraw.frame
    (e.setSeeds_same _ _)

/-- A conversion whose operands are legal and have landed leaves its result. -/
theorem convOp_ok {f : F2} {n ws wd : Nat} {fp : Bool} {g : Env → Nat → W32 → Nat × Nat × W32} {e : Env} {s : State}
    (h : e.convOk f n ws wd fp = true) : convOp f n ws wd fp g e s = .ok (e.convResult f n ws wd fp (g e) s) := by
  simp only [Env.convOk, Bool.and_eq_true] at h
  obtain ⟨⟨⟨hfits, hsrc⟩, hdst⟩, hquiet⟩ := h
  have hd : e.dstGroup f.d (regsFor wd n) = .ok () := Env.field_true (by simpa using hdst)
  simp only [convOp, Env.enc_true hfits, Env.field_true hsrc, hd, hquiet]
  rfl

/-- Issuing a conversion. -/
theorem exec_convOp {i : Instr} {s : State} {e : Env} {f : F2} {n ws wd : Nat} {fp : Bool}
    {g : Env → Nat → W32 → Nat × Nat × W32} (hi : exec i s = issue (costOf i) f.g (convOp f n ws wd fp g) s)
    (h : s.Issues f.g e) (hc : e.convOk f n ws wd fp = true) :
    let u := e.complete (costOf i) f.g (e.convResult f n ws wd fp (g e) (e.enter s))
    exec i s = .next u ∧ s.SameBut Warp.SameButDraw u e.c e.w :=
  ⟨hi.trans (issue_next h (convOp_ok hc)),
    e.issue_same Warp.SameButDraw.frame Warp.SameButIssue.draw _ _ (e.convResult_same ..)⟩

/-- Settles O14: FRINT is a float instruction of A, the others are conversions. -/
theorem floatConvertResults : Obligations.FloatConvertResults := by
  intro s e f h
  refine ⟨?rint, ?cvt, ?f2i, ?i2f⟩
  case rint =>
    intro t a hl hd hq
    refine ⟨(exec_frint f s).trans (issue_next h ?_), e.complete_floatResult_same ..⟩
    exact floatOp_ok (unit := 1) (lat := fuLat t) (src := [a]) (nf := f.nf) (chk := fun e => e.dstV f.d (t.width == 64))
      (regs := fun e => e.phys f.d.toNat (if t.width == 64 then 2 else 1)) (g := fun e l seed =>
        let v := mapElems (rintElem t (e.rm f.rnd)) ((List.range t.count).map (fun i => flushedElem e t (a.val e l) i)) seed
        (words (t.width == 64) (BitVec.ofNat 64 (packNats t.width v.1)), v.2)) hl (Env.dstV_ok hd) hq
  case cvt =>
    intro x y n hc
    exact exec_convOp (g := fun e v seed => (resCvt y (e.sat y) (x.read v)).round y e.fmode (e.rm f.rnd) (e.sat y) seed)
      (exec_fcvt f s) h hc
  case f2i =>
    intro x ty hc
    exact exec_convOp (g := fun e v seed => f2iElem x ty (e.rm f.rnd) (x.flush e.fmode v) seed) (exec_f2i f s) h hc
  case i2f =>
    intro y ty hc
    exact exec_convOp (g := fun e v seed =>
      let z : Int := if ty % 2 = 0 ∧ 2 ^ (intWidth ty - 1) ≤ v then (v : Int) - 2 ^ intWidth ty else v
      (Res.num (decide (z < 0)) z.natAbs 0 false 0).round y e.fmode (e.rm f.rnd) false seed) (exec_i2f f s) h hc

/-! ## Reduction, mode and flags (R92, R97, R111) -/

/-- A value for D, of a v or a w register, is a result in flight. -/
theorem Env.putVW_same (e : Env) (unit lat : Nat) (lock : Bool) (d : Code) (wide : Bool) (x : W64) (s : State) :
    s.SameBut Warp.SameButIssue (e.putVW unit lat lock d wide x s) e.c e.w := by
  unfold Env.putVW
  split <;> exact e.put_same ..

/-- Settles O15: each body's checks hold, and what it leaves is put as results in flight or, FSETMODE, in the mode register. -/
theorem floatModeFlagReduceResults : Obligations.FloatModeFlagReduceResults := by
  intro s e f h
  refine ⟨?fredw, fun l hl hq ha => (exec_fsetmode f s).trans (issue_next h ?setmode), fun hd ha =>
    ⟨(exec_fgetmode f s).trans (issue_next h ?getmode), ?same⟩, fun hd hf => ⟨⟨(exec_fflags f s).trans (issue_next h ?flags), e.complete_put_same ..⟩,
      (exec_fflagsClr f s).trans (issue_next h ?clear), ?clearSame⟩⟩
  case fredw =>
    intro t a r lat v hn hl hd hq hr
    refine ⟨(exec_fredw f s).trans (issue_next h ?_), e.issue_same Warp.SameButIssue.frame id _ _
      ((e.wResult_same ..).trans Warp.SameButIssue.frame (e.putFlags_same ..))⟩
    have hn' : e.enc (!e.inLane) = .ok () := Env.enc_true (by rw [hn]; rfl)
    unfold bodyFredw
    dsimp only
    rw [hn', Env.sources_ok (l := [a]) hl, Env.dstW_ok hd, Env.landed_ok (l := [a]) hq]
    simp only [ok_bind]
    change (match r.1 with | none => _ | some v => _) = _
    rw [hr]
    rfl
  case setmode =>
    simp only [bodyFsetmode, Env.sources_ok hl, Env.landed_ok hq, ok_bind, ha]
  case getmode =>
    simp only [bodyFgetmode, Env.dstVW_ok hd, ok_bind, beq_eq_false_iff_ne.mpr ha, Bool.and_false, Bool.false_eq_true, if_false]
  case same => exact e.issue_same Warp.SameButIssue.frame id _ _ (e.putVW_same ..)
  case flags => simp only [bodyFflags, Env.dstV_ok hd, Env.flagsQuiet, hf, if_true, ok_bind]
  case clear => simp only [bodyFflagsClr, Env.dstV_ok hd, Env.flagsQuiet, hf, if_true, ok_bind]
  case clearSame =>
    exact e.issue_same Warp.SameButIssue.frame id _ _ ((e.put_same ..).trans Warp.SameButIssue.frame (e.put_same ..))

end Sys2Proof.Machine
end

section
/-! SUPPORT. The load/store unit: an access whose operands are legal and which can go on now is performed; fences, barriers and
cache controls complete. -/

namespace Sys2Proof.Machine

/-! ## Loads (R166, R181 to R183) -/

/-- The read of some lanes at an address operand and an offset. -/
def loadAccess (e : Env) (mod : BitVec 3) (space : BitVec 2) (scope hint : Nat) (acq : Bool) (a : Code) (lanes : List Nat)
    (off : Env → Nat → W64) : Access :=
  accessOf .load space scope (2 ^ mod.toNat) acq false hint lanes
    (fun l => effAddr space ((lsAddr space 0 a).val e l) (off e l)) (fun _ => []) (fun _ => [])

theorem loadBody_ok {mod : BitVec 3} {space : BitVec 2} {scope hint : Nat} {acq : Bool} {d a : Code} {idx : List Opnd}
    {off : Env → Nat → W64} {e : Env} {s : State} (hact : lanesOf e.act ≠ []) (hc : addrClass space a = true)
    (hl : e.legal (lsAddr space 0 a :: idx) = true) (hd : e.groupOk d (regsOf (2 ^ mod.toNat)) = true)
    (hq : e.quiet (lsAddr space 0 a :: idx) = true)
    (hnow : e.lsNow (loadAccess e mod space scope hint acq a (lanesOf e.act) off) s = true) :
    loadBody mod space scope hint acq d a idx off e s =
      .ok (e.lsEffect (loadAccess e mod space scope hint acq a (lanesOf e.act) off)
        (some (loadDest space (e.phys d.toNat (regsOf (2 ^ mod.toNat))) acq)) s) := by
  simp only [loadBody, Env.field_true hc, Env.sources_ok hl, Env.field_true hd, Env.landed_ok hq, ok_bind, if_neg hact]
  exact lsExec_ok hnow

/-- Settles O17: all four are loads of the access stated. -/
theorem loadsArePerformed : Obligations.LoadsArePerformed := by
  intro s e hact
  refine ⟨fun f h => ?reg, fun f h => ?imm⟩
  case reg =>
    intro ad k hc hl hd hq
    simp only [List.forall_mem_cons]
    exact ⟨fun hnow => (exec_ld f s).trans (issue_next h (loadBody_ok hact hc hl hd hq hnow)),
      fun hnow => (exec_ldAcq f s).trans (issue_next h (loadBody_ok hact hc hl hd hq hnow)), List.forall_mem_nil _⟩
  case imm =>
    intro ad k hc hl hd hq
    simp only [List.forall_mem_cons]
    exact ⟨fun hnow => (exec_ldI f s).trans (issue_next h (loadBody_ok hact hc hl hd hq hnow)),
      fun hnow => (exec_ldAcqI f s).trans (issue_next h (loadBody_ok hact hc hl hd hq hnow)), List.forall_mem_nil _⟩

theorem ldwBody_ok {mod : BitVec 3} {space : BitVec 2} {scope hint l : Nat} {d a : Code} {idx : List Opnd}
    {off : Env → Nat → W64} {e : Env} {s : State} (hv : e.inVector = false) (hlow : lowest e.act = some l)
    (hc : addrClass space a = true) (hl : e.legal (lsAddr space 0 a :: idx) = true)
    (hd : wOk d (regsOf (2 ^ mod.toNat) == 2) = true) (hq : e.quiet (lsAddr space 0 a :: idx) = true)
    (hnow : e.lsNow (loadAccess e mod space scope hint false a [l] off) s = true) :
    ldwBody mod space scope hint d a idx off e s = .ok (e.lsEffect (loadAccess e mod space scope hint false a [l] off)
      (some ⟨.w, (List.range (regsOf (2 ^ mod.toNat))).map (fun i => d.toNat - 384 + i), 0, true⟩) s) := by
  simp only [ldwBody, Env.notVector_ok hv, Env.field_true hc, Env.sources_ok hl, Env.dstW_ok hd, Env.landed_ok hq, ok_bind,
    hlow]
  exact lsExec_ok hnow

/-- LD.RACQ's read. -/
def racqAccess (e : Env) (f : L2) : Access :=
  accessOf .load 0 f.scope.toNat (2 ^ f.mod.toNat) true false f.hint.toNat (lanesOf e.act)
    (fun l => effAddr f.space ((lsAddr f.space 0 f.a).val e l) 0) (fun _ => []) (fun _ => [])

/-- LD.RACQ goes on once the core that B names is its own or has drained. -/
theorem bodyLdRacq_ok {f : L2} {e : Env} {s : State} (hv : e.inVector = false) (hact : lanesOf e.act ≠ [])
    (hc : addrClass f.space f.a = true) (hw : isW f.b = true)
    (hl : e.legal [lsAddr f.space 0 f.a, ⟨3, 1, 0, f.b, false, false⟩] = true)
    (hd : e.groupOk f.d (regsOf (2 ^ f.mod.toNat)) = true)
    (hq : e.quiet [lsAddr f.space 0 f.a, ⟨3, 1, 0, f.b, false, false⟩] = true)
    (hcore : ((⟨3, 1, 0, f.b, false, false⟩ : Opnd).val32 e 0).toNat < 576) (hnow : e.lsNow (racqAccess e f) s = true)
    (hdrained : ((⟨3, 1, 0, f.b, false, false⟩ : Opnd).val32 e 0).toNat = e.c ∨ e.path.granted.contains .racq = true) :
    bodyLdRacq f e s = .ok (e.lsEffect (racqAccess e f)
      (some (loadDest f.space (e.phys f.d.toNat (regsOf (2 ^ f.mod.toNat))) true)) s) := by
  have hex := lsExec_ok (d := some (loadDest f.space (e.phys f.d.toNat (regsOf (2 ^ f.mod.toNat))) true)) hnow
  simp only [racqAccess] at hex
  simp only [bodyLdRacq, racqAccess, Env.notVector_ok hv, hc, hw, Bool.and_self, Env.field_true rfl, Env.sources_ok hl,
    Env.field_true hd, Env.landed_ok hq, ok_bind, if_neg hact, need_true (decide_eq_true hcore), hex]
  split
  · rfl
  · next hne => simp only [Env.await, hdrained.resolve_left hne, if_true, ok_bind]

/-- Settles O18: LDW reads once, LD.RACQ as its lanes do. -/
theorem uniformAndRemoteAcquireLoads : Obligations.UniformAndRemoteAcquireLoads := by
  intro s e hv
  refine ⟨fun f l h hlow => ?ldw, fun f l h hlow => ?ldwI, fun f h hact => ?racq⟩
  case ldw =>
    intro ad k a hc hl hd hq hnow
    exact (exec_ldw f s).trans (issue_next h (ldwBody_ok hv hlow hc hl hd hq hnow))
  case ldwI =>
    intro ad k a hc hl hd hq hnow
    exact (exec_ldwI f s).trans (issue_next h (ldwBody_ok hv hlow hc hl hd hq hnow))
  case racq =>
    intro ad b k a hc hw hl hd hq hcore hnow hdrained
    exact (exec_ldRacq f s).trans (issue_next h (bodyLdRacq_ok hv hact hc hw hl hd hq hcore hnow hdrained))

/-! ## Stores (R176) -/

/-- The write of the active lanes at an address operand in D and an offset. -/
def storeAccess (e : Env) (mod : BitVec 3) (space : BitVec 2) (scope hint : Nat) (rel : Bool) (d : Code)
    (off : Env → Nat → W64) (data : Nat → List W32) : Access :=
  accessOf .store space scope (2 ^ mod.toNat) false rel hint (lanesOf e.act)
    (fun l => effAddr space ((lsAddr space noPort d).val e l) (off e l)) data (fun _ => [])

theorem storeBody_ok {mod : BitVec 3} {space : BitVec 2} {scope hint : Nat} {d a : Code} {idx : List Opnd}
    {off : Env → Nat → W64} {e : Env} {s : State} (hact : lanesOf e.act ≠ []) (hc : addrClass space d = true)
    (hl : e.legal (lsAddr space noPort d :: idx) = true) (hd : e.dataOk a (regsOf (2 ^ mod.toNat)) = true)
    (hq : e.quiet (lsAddr space noPort d :: idx) = true) (hdq : e.dataQuiet a (regsOf (2 ^ mod.toNat)) = true)
    (hnow : e.lsNow (storeAccess e mod space scope hint false d off (e.dataWords a (regsOf (2 ^ mod.toNat)))) s = true) :
    storeBody mod space scope hint d a idx off e s =
      .ok (e.lsEffect (storeAccess e mod space scope hint false d off (e.dataWords a (regsOf (2 ^ mod.toNat)))) none s) := by
  simp only [storeBody, Env.field_true hc, Env.sources_ok hl, Env.field_true hd, Env.landed_ok hq, Env.dataLanded, hdq,
    if_true, ok_bind, if_neg hact]
  exact lsExec_ok hnow

theorem storeRelBody_ok {mod : BitVec 3} {space : BitVec 2} {scope hint : Nat} {d a : Code} {idx : List Opnd}
    {off : Env → Nat → W64} {e : Env} {s : State} (hact : lanesOf e.act ≠ []) (hc : addrClass space d = true)
    (hl : e.legal (lsAddr space noPort d :: storeRelData mod a :: idx) = true)
    (hq : e.quiet (lsAddr space noPort d :: storeRelData mod a :: idx) = true)
    (hnow : e.lsNow (storeAccess e mod space scope hint true d off
      (fun l => (storeRelData mod a).wordsOf e l (2 ^ mod.toNat))) s = true) :
    storeRelBody mod space scope hint d a idx off e s = .ok (e.lsEffect (storeAccess e mod space scope hint true d off
      (fun l => (storeRelData mod a).wordsOf e l (2 ^ mod.toNat))) none s) := by
  simp only [storeRelBody, Env.field_true hc, Env.sources_ok hl, Env.landed_ok hq, ok_bind, if_neg hact]
  exact lsExec_ok hnow

/-- Settles O19: all four are writes of the access stated. -/
theorem storesArePerformed : Obligations.StoresArePerformed := by
  intro s e hact
  refine ⟨fun f h => ?reg, fun f h => ?imm⟩
  case reg =>
    intro ad n at_ hc
    exact ⟨fun hl hd hq hdq hnow => (exec_st f s).trans (issue_next h (storeBody_ok hact hc hl hd hq hdq hnow)),
      fun hl hq hnow => (exec_stRel f s).trans (issue_next h (storeRelBody_ok hact hc hl hq hnow))⟩
  case imm =>
    intro ad n at_ hc
    exact ⟨fun hl hd hq hdq hnow => (exec_stI f s).trans (issue_next h (storeBody_ok hact hc hl hd hq hdq hnow)),
      fun hl hq hnow => (exec_stRelI f s).trans (issue_next h (storeRelBody_ok hact hc hl hq hnow))⟩

/-! ## Atomics (R184) -/

/-- The atomic of the active lanes with the words of its data and compare operands. -/
def atomAccess (e : Env) (kind : AccKind) (n : Nat) (space : BitVec 2) (scope hint : Nat) (a : Code) (data cmp : List Opnd) :
    Access :=
  accessOf kind space scope n false false hint (lanesOf e.act) (fun l => effAddr space ((lsAddr space 0 a).val e l) 0)
    (fun l => data.flatMap (fun o => o.wordsOf e l n)) (fun l => cmp.flatMap (fun o => o.wordsOf e l n))

theorem atomBody_ok {kind : AccKind} {n : Nat} {space : BitVec 2} {scope hint : Nat} {d a : Code} {data cmp : List Opnd}
    {e : Env} {s : State} (hact : lanesOf e.act ≠ []) (hc : addrClass space a = true)
    (hl : e.legal (lsAddr space 0 a :: (data ++ cmp)) = true) (hd : e.groupOk d (regsOf n) = true)
    (hq : e.quiet (lsAddr space 0 a :: (data ++ cmp)) = true)
    (hnow : e.lsNow (atomAccess e kind n space scope hint a data cmp) s = true) :
    atomBody kind n space scope hint d a data cmp e s = .ok (e.lsEffect (atomAccess e kind n space scope hint a data cmp)
      (some ⟨.v, e.phys d.toNat (regsOf n), 0, true⟩) s) := by
  simp only [atomBody, Env.field_true hc, Env.sources_ok hl, Env.field_true hd, Env.landed_ok hq, ok_bind, if_neg hact]
  exact lsExec_ok hnow

/-- One data operand and none to compare. -/
theorem atomAccess_one (e : Env) (kind : AccKind) (n : Nat) (space : BitVec 2) (scope hint : Nat) (a : Code) (b : Opnd) :
    atomAccess e kind n space scope hint a [b] [] = accessOf kind space scope n false false hint (lanesOf e.act)
      (fun l => effAddr space ((lsAddr space 0 a).val e l) 0) (fun l => b.wordsOf e l n) (fun _ => []) := by
  simp [atomAccess]

/-- One of each. -/
theorem atomAccess_two (e : Env) (kind : AccKind) (n : Nat) (space : BitVec 2) (scope hint : Nat) (a : Code) (b c : Opnd) :
    atomAccess e kind n space scope hint a [b] [c] = accessOf kind space scope n false false hint (lanesOf e.act)
      (fun l => effAddr space ((lsAddr space 0 a).val e l) 0) (fun l => b.wordsOf e l n) (fun l => c.wordsOf e l n) := by
  simp [atomAccess]

theorem bodyRed_ok {f : L2} {e : Env} {s : State} (hact : lanesOf e.act ≠ []) (hc : addrClass f.space f.d = true)
    (hl : e.legal [lsAddr f.space noPort f.d, ⟨3, 0, 0, f.a, false, false⟩] = true)
    (hq : e.quiet [lsAddr f.space noPort f.d, ⟨3, 0, 0, f.a, false, false⟩] = true) {a : Access}
    (ha : a = accessOf (.red f.mod.toNat) f.space f.scope.toNat 4 false false f.hint.toNat (lanesOf e.act)
      (fun l => effAddr f.space ((lsAddr f.space noPort f.d).val e l) 0)
      (fun l => [(⟨3, 0, 0, f.a, false, false⟩ : Opnd).val32 e l]) (fun _ => [])) (hnow : e.lsNow a s = true) :
    bodyRed f e s = .ok (e.lsEffect a none s) := by
  subst ha
  simp only [bodyRed, Env.field_true hc, Env.sources_ok hl, Env.landed_ok hq, ok_bind, if_neg hact]
  exact lsExec_ok hnow

/-- Settles O20: each is an atomic of the access stated. -/
theorem atomicsArePerformed : Obligations.AtomicsArePerformed := by
  intro s e hact
  refine ⟨fun f h => ?atom, fun f h => ?cas, fun f h => ?red⟩
  case atom =>
    simp only [List.forall_mem_cons, ← atomAccess_one]
    exact ⟨fun hc hl hd hq hnow => (exec_atom f s).trans (issue_next h (atomBody_ok hact hc hl hd hq hnow)),
      fun hc hl hd hq hnow => (exec_atomX f s).trans (issue_next h (atomBody_ok hact hc hl hd hq hnow)),
      List.forall_mem_nil _⟩
  case cas =>
    simp only [List.forall_mem_cons, ← atomAccess_two]
    exact ⟨fun hc hl hd hq hnow => (exec_cas f s).trans (issue_next h (atomBody_ok hact hc hl hd hq hnow)),
      fun hc hl hd hq hnow => (exec_casX f s).trans (issue_next h (atomBody_ok hact hc hl hd hq hnow)), List.forall_mem_nil _⟩
  case red =>
    intro ad o a hc hl hq hnow
    exact (exec_red f s).trans (issue_next h (bodyRed_ok hact hc hl hq rfl hnow))

/-! ## Fences (R186, R211) -/

theorem Env.settled_ok {e : Env} {s : State} {drain : Bool} (h : e.settledNow s drain = true) : e.settled s drain = .ok () :=
  if_pos h

/-- What was waited for has come. -/
theorem Env.await_ok {e : Env} {why : Park} {ask : State → State} (h : e.path.granted.contains why = true) :
    e.await why ask = .ok () :=
  if_pos h

/-- Settles O21: outside a vector slot each fence goes on where what it waits for is done. -/
theorem fencesComplete : Obligations.FencesComplete := by
  intro s e f h hv
  dsimp only
  refine ⟨fun hs => (exec_fenceFull f s).trans (issue_next h ?full), fun hs => (exec_fenceAcq f s).trans (issue_next h ?acq),
    (exec_fenceRel f s).trans (issue_next h ?rel), fun hdone hs => (exec_fenceEng f s).trans (issue_next h ?eng)⟩
  case full => simp only [bodyFenceFull, Env.notVector_ok hv, Env.settled_ok hs, ok_bind]
  case acq => simp only [bodyFenceAcq, Env.notVector_ok hv, Env.settled_ok hs, ok_bind]
  case rel => simp only [bodyFenceRel, Env.notVector_ok hv, ok_bind, Env.release]
  case eng =>
    simp only [bodyFenceEng, Env.notVector_ok hv, Env.settled_ok hs, ok_bind, Env.release]
    split
    · rfl
    · next hn => rw [Env.await_ok (hdone.resolve_left hn), ok_bind]

/-! ## Cache controls (R194) -/

/-- A cache control of legal operands acts on the line of each lane. -/
theorem cctlBody_ok {f : L2} {g : Env → Nat → State → State} {e : Env} {s : State} (hc : addrClass 0 f.a = true)
    (hl : e.legal [lsAddr 0 0 f.a] = true) (hq : e.quiet [lsAddr 0 0 f.a] = true) : cctlBody f g e s =
      .ok ((lanesOf e.act).foldl (fun u l => match e.cctlPa u (lsAddr 0 0 f.a) l with | some pa => g e pa u | none => u) s) := by
  simp only [cctlBody, Env.field_true hc, Env.sources_ok hl, Env.landed_ok hq]
  rfl

/-- Settles O22: the forms that name a line differ in what they do to it. -/
theorem cacheControlsComplete : Obligations.CacheControlsComplete := by
  intro s e f h ad lanes
  refine ⟨fun hc hl hq => ⟨(exec_cctlInvl f s).trans (issue_next h (cctlBody_ok hc hl hq)),
    (exec_cctlPref f s).trans (issue_next h (cctlBody_ok hc hl hq)),
    (exec_cctlEvf f s).trans (issue_next h (cctlBody_ok hc hl hq))⟩, fun ha => ?_⟩
  exact (exec_cctlInvall f s).trans (issue_next h (by rw [bodyCctlInvall, if_neg ha]))

/-! ## Barriers and presence (R187 to R191, R193) -/

/-- Settles O23: each instruction's checks hold, and its effect on the object is the one stated. -/
theorem barriersComplete : Obligations.BarriersComplete := by
  intro s e f l p h hlow
  dsimp only
  refine ⟨fun hv hl hq ho => ⟨fun hd hn hp => (exec_arrive f s).trans (issue_next h ?arrive), fun hp =>
    ⟨fun hph => (exec_waitph f s).trans (issue_next h ?waitph),
      fun hph hg => (exec_waitph f s).trans (issue_next h ?granted)⟩,
    fun hd hp => (exec_tryph f s).trans (issue_next h ?tryph),
    fun hn hp hr => (exec_barinit f s).trans (issue_next h ?barinit)⟩, fun hl hq hd hin =>
    ⟨(exec_pres f s).trans (issue_next h ?pres), e.complete_qResult_same ..⟩⟩
  case arrive =>
    simp only [bodyArrive, Env.notVector_ok hv, Env.sources_ok hl, Env.dstW_ok hd, Env.landed_ok hq, ok_bind, hlow,
      need_true hn, hp, ho, ← apply_ite (Except.ok (ε := Stop))]
  case waitph =>
    simp only [bodyWaitph, Env.notVector_ok hv, Env.sources_ok hl, Env.landed_ok hq, ok_bind, hlow, hp, ho,
      bne_iff_ne.mpr hph, if_true]
  case granted =>
    simp only [bodyWaitph, Env.notVector_ok hv, Env.sources_ok hl, Env.landed_ok hq, ok_bind, hlow, hp, ho, hph,
      bne_self_eq_false, Bool.false_eq_true, if_false, Env.await_ok hg]
  case tryph =>
    simp only [bodyTryph, Env.notVector_ok hv, Env.sources_ok hl, Env.dstQ_ok hd, Env.landed_ok hq, ok_bind, hlow, hp, ho]
  case barinit =>
    simp only [bodyBarinit, Env.notVector_ok hv, Env.sources_ok hl, Env.landed_ok hq, ok_bind, hlow, need_true hn,
      hp, hr, Bar.init]
  case pres =>
    have hbad : (lanesOf e.act).filter (fun l => (e.presPlace (e.enter s) f.space (lsAddr f.space 0 f.a) l).isNone) = [] :=
      List.filter_eq_nil_iff.mpr fun l hl => by simpa [Option.isSome_iff_ne_none] using List.all_eq_true.mp hin l hl
    simp only [bodyPres, Env.sources_ok hl, Env.dstQ_ok hd, Env.landed_ok hq, ok_bind, hbad, need_true (beq_self_eq_true _)]
    rfl

end Sys2Proof.Machine
end

section
/-! SUPPORT. The sequencer: where branches, calls and breaks send threads, how loops open, and what the small instructions do. -/

namespace Sys2Proof.Machine

/-! ## Checks (R122, R124, R142) -/

theorem Env.notLast_ok {e : Env} (h : e.midLoop = true) : e.notLast = .ok () := need_true h

theorem Env.conv_ok {e : Env} (h : e.single = true) : e.conv = .ok () := need_true h

theorem Env.wLanded_ok {e : Env} {regs : List Nat} (h : e.blocked [] regs = false) : e.wLanded regs = .ok () := by
  simp [Env.wLanded, h]

theorem Env.jumpReg_ok {e : Env} {a : Code} {wide : Bool} (h : e.jumpOk a wide = true) : e.jumpReg a wide = .ok () := need_true h

/-- A target in a resident folio; no lane asks for none. -/
theorem Env.resident_ok {e : Env} {imm : BitVec 32} {lanes : W32} (h : lanes = 0 ∨ e.inFolio (e.pc + imm) = true) :
    e.resident imm lanes = .ok (e.pc + imm) := by
  have : (lanes == 0 || e.inFolio (e.pc + imm)) = true := by simpa using h
  rw [Env.resident, need_true this, ok_bind]

/-- An aligned displacement; no lane asks for one. -/
theorem Env.straight_ok {e : Env} {imm : BitVec 32} {lanes : W32} (h : lanes = 0 ∨ imm.extractLsb' 0 3 = 0) :
    e.straight imm lanes = .ok () :=
  need_true (by simpa using h)

/-! ## Splitting a path (R132) -/

/-- No thread goes. -/
theorem Env.split_none {e : Env} {t r fpc : W32} {leave : Bool} {s : State} : e.split 0 t r fpc leave s = .ok s := by
  simp only [Env.split, if_true]

/-- Every thread goes. -/
theorem Env.split_whole {e : Env} {taken t r fpc : W32} {leave : Bool} {s : State} (ht : taken ≠ 0)
    (h : e.strand = true ∨ e.path.mask &&& ~~~taken = 0) :
    e.split taken t r fpc leave s = .ok (e.goto t (if leave then e.leave t s else s)) := by
  have hgo : (e.strand || decide (e.path.mask &&& ~~~taken = 0)) = true := by
    rw [Bool.or_eq_true, decide_eq_true_eq]
    exact h
  simp only [Env.split, if_neg ht, hgo, if_true]

/-- Some threads go: inside a loop they reconverge within its body, and the record stack has room. -/
theorem Env.split_some {e : Env} {taken t r fpc : W32} {leave : Bool} {s : State} (ht : taken ≠ 0)
    (hs : e.strand = false) (hr : e.path.mask &&& ~~~taken ≠ 0)
    (hl : ∀ l ∈ e.loops.head?, r ≠ noReconv ∧ l.inside r = true) (hd : e.warp.allRecs.length < 256) :
    e.split taken t r fpc leave s = e.spill ((s.deferOther e.c e.w (!e.alt) e.warp.rix).modWarp e.c e.w
      (fun w => w.openRegion e.alt taken (e.path.mask &&& ~~~taken) t r fpc)) := by
  have hstay : (e.strand || decide (e.path.mask &&& ~~~taken = 0)) = false := by rw [hs, decide_eq_false hr, Bool.or_self]
  simp only [Env.split, if_neg ht, hstay, Bool.false_eq_true, if_false, need_true (decide_eq_true hd)]
  cases hc : e.loops with
  | nil => rfl
  | cons l _ =>
    obtain ⟨hne, hin⟩ := hl l (by rw [hc]; rfl)
    have hret : (r != noReconv && l.inside r) = true := by rw [bne_iff_ne.mpr hne, hin, Bool.and_self]
    simp only [need_true hret, ok_bind]

/-! ## Branches (R134 to R137, R139) -/

/-- Settles O24: the checks of the target hold, and the threads that the guard names go. -/
theorem directBranches : Obligations.DirectBranches := by
  intro s e f h hm
  dsimp only
  refine ⟨fun ha => (exec_bra f s).trans (issue_next h ?none), fun hw => (exec_braU f s).trans (issue_next h ?uNone),
    fun hin hal => ⟨fun ha hwhole => (exec_bra f s).trans (issue_next h ?whole), fun ha hs hr hl hd => ⟨fun x hx hle =>
      Env.spill_shallow hx hle, fun v' hv' => (exec_bra f s).trans (issue_next h ?some)⟩,
    fun hw => (exec_braU f s).trans (issue_next h ?uWhole)⟩⟩
  case none =>
    simp only [bodyBra, ha, Env.resident_ok (.inl rfl), Env.notLast_ok hm, Env.straight_ok (.inl rfl), ok_bind,
      Env.split_none]
  case uNone =>
    simp only [bodyBraU, hw, Env.resident_ok (.inl rfl), Env.notLast_ok hm, Env.straight_ok (.inl rfl), ok_bind, if_true]
  case whole =>
    simp only [bodyBra, Env.resident_ok (.inr hin), Env.notLast_ok hm, Env.straight_ok (.inr hal), ok_bind,
      Env.split_whole ha hwhole, if_true]
  case some =>
    simp only [bodyBra, Env.resident_ok (.inr hin), Env.notLast_ok hm, Env.straight_ok (.inr hal), ok_bind,
      Env.split_some ha hs hr hl hd, hv']
  case uWhole =>
    simp only [bodyBraU, Env.resident_ok (.inr hin), Env.notLast_ok hm, Env.straight_ok (.inr hal), ok_bind, if_neg hw]

/-- Settles O25: a branch that reconverges after the call, then the link. -/
theorem calls : Obligations.Calls := by
  intro s e f h hm hj
  dsimp only
  refine fun hin hal ha => ⟨fun hwhole => (exec_call f s).trans (issue_next h ?whole), fun hs hr hl hd v' hv' =>
    (exec_call f s).trans (issue_next h ?some)⟩
  case whole =>
    simp only [bodyCall, Env.resident_ok (.inr hin), Env.jumpReg_ok hj, Env.notLast_ok hm, Env.straight_ok (.inr hal),
      ok_bind,
      Env.split_whole ha hwhole, Bool.false_eq_true, if_false]
  case some =>
    simp only [bodyCall, Env.resident_ok (.inr hin), Env.jumpReg_ok hj, Env.notLast_ok hm, Env.straight_ok (.inr hal),
      ok_bind,
      Env.split_some ha hs hr hl hd, hv']

/-- The checks of an indirect transfer hold. -/
theorem Env.indirect_ok {e : Env} {a : Code} {landing : Bool} (hm : e.midLoop = true) (h : e.targetsOk a landing = true) :
    e.indirect a landing = .ok () := by
  simp only [Env.targetsOk, Bool.and_eq_true, Bool.or_eq_true, Bool.not_eq_true'] at h
  obtain ⟨⟨hin, hal⟩, hland⟩ := h
  have hland' : ((if landing then e.badLanes a e.blk.lands else 0) == 0) = true := by
    cases landing with
    | false => rfl
    | true => simpa using hland
  simp only [Env.indirect, need_true hin, Env.notLast_ok hm, need_true hal, need_true hland', ok_bind]

/-- An indirect transfer whose checks hold splits its path by the group of the lowest lane's target. -/
theorem indirectBody_ok {f : FC} {wide landing leave : Bool} {fin : Env → W32 → State → State} {dflt : Env → W32} {e : Env}
    {s t : State} (hm : e.midLoop = true) (hj : e.jumpOk f.a wide = true) (hq : e.jumpQuiet f.a = true)
    (ht : e.targetsOk f.a landing = true)
    (hs : e.split (e.group f.a).1 (e.group f.a).2 (if e.blk.reconv e.pc == noReconv then dflt e else e.blk.reconv e.pc) e.pc
      leave s = .ok t) :
    indirectBody f wide landing leave fin dflt e s = .ok (fin e (e.group f.a).1 t) := by
  simp only [indirectBody, Env.jumpReg_ok hj, hq, if_true, Env.indirect_ok hm ht, ok_bind, hs]

/-- Settles O26: the three are one transfer with different checks, links and reconvergence. -/
theorem indirectTransfers : Obligations.IndirectTransfers := by
  intro s e f h hm hg
  simp only [List.forall_mem_cons]
  refine ⟨fun hj hq ht => ⟨fun hwhole => ?_, fun hs hr hl hd v' hv' => ?_⟩,
    fun hj hq ht => ⟨fun hwhole => ?_, fun hs hr hl hd v' hv' => ?_⟩,
    fun hj hq ht => ⟨fun hwhole => ?_, fun hs hr hl hd v' hv' => ?_⟩, List.forall_mem_nil _⟩
  · exact (exec_brx f s).trans (issue_next h (indirectBody_ok hm hj hq ht (Env.split_whole hg hwhole)))
  · exact (exec_brx f s).trans (issue_next h (indirectBody_ok hm hj hq ht ((Env.split_some hg hs hr hl hd).trans hv')))
  · exact (exec_ret f s).trans (issue_next h (indirectBody_ok hm hj hq ht (Env.split_whole hg hwhole)))
  · exact (exec_ret f s).trans (issue_next h (indirectBody_ok hm hj hq ht ((Env.split_some hg hs hr hl hd).trans hv')))
  · exact (exec_callx f s).trans (issue_next h (indirectBody_ok hm hj hq ht (Env.split_whole hg hwhole)))
  · exact (exec_callx f s).trans (issue_next h (indirectBody_ok hm hj hq ht ((Env.split_some hg hs hr hl hd).trans hv')))

/-- Settles O27: BRK and EXIT change the warp and spill, a strand's EXIT parks it. -/
theorem breakAndExit : Obligations.BreakAndExit := by
  intro s e f h hm ha
  dsimp only
  refine ⟨fun hs hb v' hv' => (exec_brk f s).trans (issue_next h ?brk), fun hs v' hv' =>
    (exec_exit f s).trans (issue_next h ?path), fun hs => (exec_exit f s).trans (issue_next h ?strand)⟩
  case brk =>
    simp only [bodyBrk, hs, Bool.not_false, Env.enc_true rfl, Env.notLast_ok hm, ok_bind, if_neg ha, need_true hb, hv']
  case path => simp only [bodyExit, Env.notLast_ok hm, ok_bind, if_neg ha, hs, Bool.false_eq_true, if_false, hv']
  case strand => simp only [bodyExit, Env.notLast_ok hm, ok_bind, if_neg ha, hs, if_true]

/-! ## Loops, modes and the small instructions (R125, R141 to R148, R161, R163) -/

/-- A loop whose count is legal and has landed, with room on its stack, opens or skips its body. -/
theorem loopBody_ok {pipe : Bool} {f : FC} {e : Env} {s : State} (hm : e.midLoop = true) (hc : e.single = true)
    (hf : f.a = 480 ∨ (isW f.a = true ∧ e.blocked [] [f.a.toNat - 384] = false))
    (hroom : e.loops.length < (if e.strand then 16 else 4)) :
    let n := if f.a == 480 then (f.imm.extractLsb' 16 16).toNat else (e.wread (f.a.toNat - 384)).toNat
    let len := (f.imm.extractLsb' 0 12).toNat
    let lanes := if e.strand then e.dec else 0xFFFFFFFF
    let v := if pipe then s.modWarp e.c e.w (fun w => { w with
        q := (List.range 6).foldl (fun q i => putQ q (9 + i) lanes 0) (putQ w.q 8 lanes (if n = 0 then 0 else 0xFFFFFFFF)) })
      else s
    loopBody pipe f e s = .ok (if n = 0 then v.modPath e.c e.w e.alt (fun p => { p with pc := e.next + BitVec.ofNat 32 (8 * len) })
      else e.setLoops (⟨e.next, if pipe then n + (f.imm.extractLsb' 13 3).toNat else n, n - 1, pipe, len⟩ :: ·) v) := by
  have hfield : e.field (f.a == 480 || isW f.a) = .ok () := Env.field_true (by
    rcases hf with h | h
    · rw [h]; rfl
    · rw [h.1, Bool.or_true])
  have hland : isW f.a = true → e.wLanded [f.a.toNat - 384] = .ok () := fun hw => by
    rcases hf with h | h
    · rw [h] at hw; cases hw
    · exact Env.wLanded_ok h.2
  simp only [loopBody, hfield, Env.notLast_ok hm, Env.conv_ok hc, ok_bind, need_true (decide_eq_true hroom), LoopEntry.stop]
  split
  · next hw => rw [hland hw, ok_bind]
  · rfl

/-- Settles O28: the operand is the immediate or a w register that has landed. -/
theorem loopsAndRotation : Obligations.LoopsAndRotation := by
  intro s e f h hm hc
  dsimp only
  refine ⟨fun hf hroom => ⟨(exec_loop f s).trans (issue_next h (loopBody_ok hm hc hf hroom)),
    (exec_loopPipe f s).trans (issue_next h (loopBody_ok hm hc hf hroom))⟩,
    fun hb hz hfit => (exec_rotset f s).trans (issue_next h ?rot)⟩
  case rot =>
    have hfield : e.field ((f.imm.extractLsb' 23 9).toNat % 8 == 0 && (f.imm.extractLsb' 14 9).toNat % 8 == 0 &&
        decide ((f.imm.extractLsb' 23 9).toNat + (f.imm.extractLsb' 14 9).toNat ≤ 8 * e.role.regs)) = .ok () :=
      Env.field_true (by simp only [hb, hz, hfit, beq_self_eq_true, decide_true, Bool.and_self])
    simp only [bodyRotset, hfield, Env.notLast_ok hm, Env.conv_ok hc, ok_bind]

/-- Settles O29: in a warp or a strand as asked for, each parks its path or ends the strand's issue. -/
theorem modeChangesAndSync : Obligations.ModeChangesAndSync := by
  intro s e f h
  dsimp only
  refine ⟨fun hs hin hm hc hmask hl hh => (exec_modeCollapse f s).trans (issue_next h ?collapse),
    fun hs hin hl => (exec_modeExpand f s).trans (issue_next h ?expand),
    fun hs hm hc hd hr hset => (exec_sync f s).trans (issue_next h ?sync)⟩
  case collapse =>
    have hwhole : (e.path.mask == ~~~e.warp.exited && e.warp.loops.isEmpty && e.warp.hand.isNone) = true := by
      simp only [hmask, hl, hh, beq_self_eq_true, List.isEmpty_nil, Option.isNone_none, Bool.and_self]
    simp only [bodyModeCollapse, hs, Bool.not_false, Env.enc_true rfl, need_true hin, Env.notLast_ok hm, Env.conv_ok hc,
      need_true hwhole, ok_bind, Env.holdAt, Bool.false_eq_true, if_false]
  case expand =>
    simp only [bodyModeExpand, hs, Env.enc_true rfl, need_true hin, hl, List.isEmpty_nil, need_true rfl, ok_bind]
  case sync =>
    simp only [bodySync, hs, Bool.not_false, Env.enc_true rfl, Env.notLast_ok hm, Env.conv_ok hc, need_true hd, hr,
      List.isEmpty_nil, if_true, syncScope, Env.settled_ok hset, ok_bind, Env.holdAt, Bool.false_eq_true, if_false]

/-- Settles O30: each acts on its path, its warp's predicates or the handler. -/
theorem smallSequencing : Obligations.SmallSequencing := by
  intro s e hm
  dsimp only
  refine ⟨fun f h hlo hhi => ⟨fun ha => (exec_trap f s).trans (issue_next h ?trapNone), fun ha =>
      (exec_trap f s).trans ((issue_stops (r := .trap (f.imm.extractLsb' 0 8) e.act) h ?trap).trans ?next)⟩,
    fun f h => ⟨(exec_nop f s).trans (issue_next h ?nop), (exec_yield f s).trans (issue_next h ?yield)⟩,
    fun f l h hs hd hlow => (exec_elect f s).trans (issue_next h ?elect),
    fun f hd h hs hc hh hmask hr hk => (exec_eret f s).trans (issue_next h ?eret)⟩
  case trapNone =>
    simp only [bodyTrap, Env.field_true (decide_eq_true (And.intro hlo hhi)), Env.notLast_ok hm, ha, beq_self_eq_true,
      need_true rfl, ok_bind]
  case trap =>
    simp only [bodyTrap, Env.field_true (decide_eq_true (And.intro hlo hhi)), Env.notLast_ok hm,
      need_false (beq_eq_false_iff_ne.mpr ha), ok_bind, error_bind]
  case next =>
    have hcause : trapsAfter (f.imm.extractLsb' 0 8) = true := by
      have : (f.imm.extractLsb' 0 8).toNat = f.imm.toNat := by
        rw [BitVec.extractLsb'_toNat, Nat.shiftRight_zero, Nat.mod_eq_of_lt (by omega)]
      rw [trapsAfter, decide_eq_true (this ▸ hlo), Bool.or_true]
    rw [Env.stopped, Env.trapped, if_pos hcause]
  case nop => simp only [bodyNop, Env.notLast_ok hm, ok_bind]
  case yield => simp only [bodyYield, Env.notLast_ok hm, ok_bind]
  case elect => simp only [bodyElect, hs, Bool.not_false, Env.enc_true rfl, Env.dstQ_ok hd, Env.notLast_ok hm, hlow, ok_bind]
  case eret =>
    have hk' : (e.warp.keepsPc e.core || e.warp.snapLanded e.core) = true := by rwa [Bool.or_eq_true]
    simp only [bodyEret, hs, Bool.not_false, Env.field_true rfl, Env.notLast_ok hm, Env.conv_ok hc, hh,
      need_true (beq_iff_eq.mpr hmask), hr, hk', List.isEmpty_nil, Bool.and_self, if_true, ok_bind]

/-! ## Folios and the domain register (R120, R121, R333) -/

/-- Settles O31: their operands are legal and have landed, and DOMSET is privileged. -/
theorem foliosAndDomain : Obligations.FoliosAndDomain := by
  intro s e f h hm
  dsimp only
  refine ⟨fun hd hsl hb hal hcan => (exec_folld f s).trans (issue_next h ?folld),
    fun hsl => (exec_folfree f s).trans (issue_next h ?folfree),
    fun hp hd hb hc hblk hw => (exec_domset f s).trans (issue_next h ?domset)⟩
  case folld =>
    simp only [bodyFolld, Env.dstW_ok hd, Env.field_true (decide_eq_true hsl), Env.wLanded_ok hb, Env.notLast_ok hm,
      need_true (beq_iff_eq.mpr hal), Env.folldCanonical, hcan, if_true, ok_bind]
  case folfree => simp only [bodyFolfree, Env.field_true (decide_eq_true hsl), Env.notLast_ok hm, ok_bind]
  case domset =>
    have hblk' : (!(domainStore (e.wread (f.a.toNat - 384))).getLsbD 7 ||
        (e.core.blocks.find? ((domainStore (e.wread (f.a.toNat - 384))).extractLsb' 8 3).toNat).isSome) = true := by
      rcases hblk with h | h
      · rw [h]; rfl
      · rw [h, Bool.or_true]
    simp only [bodyDomset, need_true hp, Env.dstW_ok hd, Env.wLanded_ok hb, Env.notLast_ok hm, Env.conv_ok hc,
      need_true hblk',
      hw, Bool.false_eq_true, if_false, ok_bind]

end Sys2Proof.Machine
end

section
/-! SUPPORT. The matrix engine's instructions: a step, a marbled step, a transfer or a table write whose turn has come starts with
what its operands name; banks are granted and released. -/

namespace Sys2Proof.Machine

/-! ## Checks (R253, R264) -/

theorem Env.mxNeed_ok {e : Env} {b : Bool} {c : BitVec 8} {m : W32} (h : b = true) : e.mxNeed b c m = .ok () := if_pos h

theorem Env.whole_ok {e : Env} (h : e.size = 32) : e.whole = .ok () := Env.mxNeed_ok (beq_iff_eq.mpr h)

theorem Env.fragLanded_ok {e : Env} {code : Code} {n : Nat} (h : e.blocked (e.phys code.toNat n) [] = false) :
    e.fragLanded code n = .ok () := by
  simp [Env.fragLanded, h]

/-- An elected lane is one. -/
theorem Env.elected_isNone {e : Env} {l : Nat} (h : e.elected = some l) : e.elected.isNone = false := by rw [h]; rfl

/-! ## Steps (R256, R259, R264, R265, R291 to R293) -/

/-- A step whose operands are legal and whose turn has come starts. -/
theorem stepBody_ok {i : Instr} {f : F2} {zero : Bool} {e : Env} {s : State} {l bank ent : Nat} {sa sb : List Byte}
    (hsz : e.size = 32) (hb : e.bank f.d = .ok bank) (ha : f.a.toNat < 384 ∧ f.a.toNat % 4 = 0)
    (hb' : f.b.toNat < 384 ∧ f.b.toNat % 4 = 0) (hl : e.elected = some l)
    (hent : e.entryIndex e.blk f.mod (bit l) = .ok ent)
    (hnow : e.fragsNow f s = true) (hok : e.fragsOk f ent = true) :
    let v := SMap.get 0 e.blk.ft ent
    let na := fragRegs (fmtStep v).1 (eltBits (fmtA v))
    let nb := fragRegs (fmtStep v).1 (eltBits (fmtB v))
    let x := e.entry i true [f.d.toNat] s
    let u := e.mxTake x s
    e.blocked (e.phys f.a.toNat na) [] = false → e.blocked (e.phys f.b.toNat nb) [] = false → e.mxReady x s = true →
    (u.core e.c).stepScales e.blk ent false = some sa → (u.core e.c).stepScales e.blk ent true = some sb →
    stepBody i f zero e s = .ok (u.mxBegin e.c ⟨.step zero bank ent v (e.fragment f.a na) (e.fragment f.b nb) sa sb, x,
      (fmtStep v).2, 160, e.mxClass f.g 0⟩ 0) := by
  dsimp only
  intro hqa hqb hr hsa hsb
  have hregs : (decide (f.a.toNat < 384) && f.a.toNat % 4 == 0 && (decide (f.b.toNat < 384) && f.b.toNat % 4 == 0) &&
      e.fragsNow f s) = true := by
    simp only [ha, hb', hnow, decide_true, beq_self_eq_true, Bool.and_self]
  simp only [stepBody, hb, Env.whole_ok hsz, Env.mxNeed_ok hregs, hl, Env.mxTurn_ok hr, hent, Env.mxNeed_ok hok,
    Env.fragLanded_ok hqa, Env.fragLanded_ok hqb, ok_bind, hsa, hsb]

/-- Settles O32: MMS and MMSZ are the two steps. -/
theorem matrixStepsStart : Obligations.MatrixStepsStart := by
  intro s e f l bank ent sa sb h hsz hb ha ha4 hb' hb4 hl hent
  dsimp only
  intro hnow hra hrb hqa hqb
  have hok : e.fragsOk f ent = true := by simp only [Env.fragsOk, hra, hrb, Bool.and_self]
  simp only [List.forall_mem_cons]
  exact ⟨fun hr hsa hsb => (exec_mms f s).trans (issue_next h
      (stepBody_ok hsz hb ⟨ha, ha4⟩ ⟨hb', hb4⟩ hl hent hnow hok hqa hqb hr hsa hsb)),
    fun hr hsa hsb => (exec_mmsz f s).trans (issue_next h
      (stepBody_ok hsz hb ⟨ha, ha4⟩ ⟨hb', hb4⟩ hl hent hnow hok hqa hqb hr hsa hsb)), List.forall_mem_nil _⟩

/-- Settles O33: the record's offset, its entry and its fragment are checked before the read begins. -/
theorem marbledStepReadsItsRecord : Obligations.MarbledStepReadsItsRecord := by
  intro s e f l bank ent h hsz hb ha ha4 hw hra hl hqb
  dsimp only
  intro hval hwin hclasp hr hent hfa hfb hsc hqa
  refine (exec_mmsg f s).trans (issue_next h ?_)
  have hregs : (decide (f.a.toNat < 384) && f.a.toNat % 4 == 0 && isW f.b && e.regRange f.a 16 4) = true := by
    simp only [ha, ha4, hw, hra, decide_true, beq_self_eq_true, Bool.and_self]
  have hfmt : (fmtA (SMap.get 0 e.blk.ft ent) == 0 && fmtB (SMap.get 0 e.blk.ft ent) == 0 &&
      (SMap.get 0 e.blk.ft ent).extractLsb' 8 2 == 0) = true := by
    simp only [hfa, hfb, hsc, beq_self_eq_true, Bool.and_self]
  simp only [bodyMmsg, hb, Env.whole_ok hsz, Env.mxNeed_ok hregs, hl, hqb, Bool.false_eq_true, if_false,
    Env.mxNeed_ok (beq_iff_eq.mpr hval), Env.mxNeed_ok (decide_eq_true hwin), hclasp, Bool.not_false, Env.mxNeed_ok rfl,
    Env.mxTurn_ok hr, hent, Env.mxNeed_ok hfmt, Env.fragLanded_ok hqa, ok_bind]

/-! ## Transfers (R271 to R275) -/

/-- Settles O34: each takes its turn with its operands checked. -/
theorem accumulatorTransfersStart : Obligations.AccumulatorTransfersStart := by
  intro s e f l h hl
  dsimp only
  refine ⟨fun hsz hp hq => ⟨fun bank hb hr hsel hready => (exec_accrd f s).trans (issue_next h ?accrd),
      fun bank hb hr hsel hqa hready => (exec_accwr f s).trans (issue_next h ?accwr)⟩,
    fun bank hb hready => (exec_accclr f s).trans (issue_next h ?accclr),
    fun d a hd ha hready => (exec_accadd f s).trans (issue_next h ?accadd)⟩
  case accrd =>
    simp only [bodyAccrd, hb, Env.whole_ok hsz, Env.mxNeed_ok hr, Env.plainSrc_ok hp, Env.landed_ok hq, hl,
      Env.mxNeed_ok hsel,
      Env.mxTurn_ok hready, ok_bind]
  case accwr =>
    simp only [bodyAccwr, hb, Env.whole_ok hsz, Env.mxNeed_ok hr, Env.plainSrc_ok hp, Env.landed_ok hq,
      Env.fragLanded_ok hqa, hl,
      Env.mxNeed_ok hsel, Env.mxTurn_ok hready, ok_bind]
  case accclr =>
    simp only [bodyAccclr, hb, Env.elected_isNone hl, Bool.false_eq_true, if_false, Env.mxTurn_ok hready, ok_bind]
  case accadd =>
    simp only [bodyAccadd, hd, ha, Env.elected_isNone hl, Bool.false_eq_true, if_false, Env.mxTurn_ok hready, ok_bind]

/-! ## The format table (R254 to R257) -/

theorem fmtsetWith_ok {i : Instr} {g : Guard} {mod : BitVec 3} {v : W64} {lanes : W32} {e : Env} {s : State} {l : Nat}
    (hl : e.elected = some l) (hv : (if mod == 7 then mapLegal v else fmtLegal v) = true)
    (hr : e.mxReady (e.entry i false [] s) s = true) : fmtsetWith i g mod v lanes e s =
      .ok ((e.mxTake (e.entry i false [] s) s).mxBegin e.c ⟨.fmtset mod.toNat v, e.entry i false [] s, 4, 0,
        e.mxClass g 0⟩ 32) := by
  simp only [fmtsetWith, Env.mxNeed_ok hv, Env.elected_isNone hl, Bool.false_eq_true, if_false, Env.mxTurn_ok hr, ok_bind]

/-- Settles O35: both forms write a legal value in their turn. -/
theorem formatTableWrites : Obligations.FormatTableWrites := by
  intro s e l hl
  dsimp only
  refine ⟨fun f h ha ha2 ho hq hv hr => (exec_fmtset f s).trans (issue_next h ?_), fun f h hv hr =>
    (exec_fmtsetI f s).trans (issue_next h (fmtsetWith_ok hl hv hr))⟩
  have hfield : e.field (decide (f.a.toNat < 448) && f.a.toNat % 2 == 0 && (⟨5, 9, 0, f.a, true,
    false⟩ : Opnd).ok e) = .ok () :=
    Env.field_true (by simp only [ha, ha2, ho, decide_true, beq_self_eq_true, Bool.and_self])
  simp only [bodyFmtset, hfield, Env.landed_ok hq, hl, ok_bind]
  exact fmtsetWith_ok hl hv hr

/-! ## Allocation (R261, R262, R283) -/

/-- An ACCALLOC that repeats after its grant completes. -/
theorem allocBody_granted {d : Code} {n : Nat} {lanes : W32} {e : Env} {s : State}
    (h : e.path.granted.contains .banks = true) : allocBody d n lanes e s = .ok s :=
  if_pos h

/-- One that finds nobody waiting and banks free is granted. -/
theorem allocBody_ok {d : Code} {n base : Nat} {lanes : W32} {e : Env} {s : State}
    (h : e.path.granted.contains .banks = false ∧ e.mxOpen s = .ok () ∧ 1 ≤ n ∧ n ≤ 16 ∧
      e.blk.freeRun n = some base ∧ (s.core e.c).mx.allocq = [] ∧ n ≤ (s.core e.c).freeBanks.length) :
    allocBody d n lanes e s =
      .ok (((s.grantBanks e.c e.warp.rix base n).putBase e.c e.w (d.toNat - 384) base s.nonce).tickNonce) := by
  obtain ⟨hg, ho, hlo, hhi, hrun, hq, hfree⟩ := h
  simp only [allocBody, hg, Bool.false_eq_true, if_false, ho, need_true (decide_eq_true (And.intro hlo hhi)), hrun, hq,
    List.isEmpty_nil, hfree, decide_true, Bool.and_self, if_true, ok_bind]

/-- An ACCFREE that repeats after its wait, or finds quiet banks that its block holds, releases them. -/
theorem freeBody_ok {a : Code} {n : Nat} {lanes : W32} {e : Env} {s : State}
    (h : e.path.granted.contains .accfree = true ∨ (e.mxOpen s = .ok () ∧ 1 ≤ n ∧ n ≤ 16 ∧ a.toNat + n ≤ 16 ∧
      ((List.range n).map (a.toNat + ·)).all (fun b => (KMap.find? e.blk.banks b).isSome) = true ∧
      (s.core e.c).banksQuiet e.warp.rix s.nonce ((List.range n).map (a.toNat + ·)) = true)) :
    freeBody a n lanes e s = .ok (e.freeLater ((List.range n).map (a.toNat + ·)) s) := by
  cases hg : e.path.granted.contains .accfree with
  | true => simp only [freeBody, hg, if_true]
  | false =>
    obtain ⟨ho, hlo, hhi, hin, hown, hquiet⟩ := h.resolve_left (ne_true_of_eq_false hg)
    simp only [freeBody, hg, Bool.false_eq_true, if_false, ho, need_true (decide_eq_true (And.intro hlo (And.intro hhi hin))),
      need_true hown, hquiet, if_true, ok_bind]

/-- Settles O36: the number of banks comes from a register or IMM24. -/
theorem accumulatorAllocation : Obligations.AccumulatorAllocation := by
  intro s e l hl
  dsimp only
  refine ⟨fun f base h hd hp hq => ⟨fun ha => (exec_accalloc f s).trans (issue_next h ?alloc),
      fun hg => (exec_accalloc f s).trans (issue_next h ?allocAgain)⟩,
    fun f base h hd => ⟨fun ha => (exec_accallocI f s).trans (issue_next h ?allocI),
      fun hlo hhi hg => (exec_accallocI f s).trans (issue_next h ?allocIAgain)⟩,
    fun f h ha hp hq hf => (exec_accfree f s).trans (issue_next h ?free),
    fun f h ha hlo hhi hin hf => (exec_accfreeI f s).trans (issue_next h ?freeI)⟩
  case alloc =>
    simp only [bodyAccalloc, Env.dstW_ok hd, Env.plainSrc_ok hp, Env.landed_ok hq, hl, ok_bind, allocBody_ok ha]
  case allocAgain =>
    simp only [bodyAccalloc, Env.dstW_ok hd, Env.plainSrc_ok hp, Env.landed_ok hq, hl, ok_bind, allocBody_granted hg]
  case allocI =>
    have hn := decide_eq_true (And.intro ha.2.2.1 ha.2.2.2.1)
    simp only [bodyAccallocI, Env.dstW_ok hd, Env.field_true hn, hl, ok_bind, allocBody_ok ha]
  case allocIAgain =>
    simp only [bodyAccallocI, Env.dstW_ok hd, Env.field_true (decide_eq_true (And.intro hlo hhi)), hl, ok_bind,
      allocBody_granted hg]
  case free =>
    simp only [bodyAccfree, Env.field_true (decide_eq_true ha), Env.plainSrc_ok hp, Env.landed_ok hq, hl, ok_bind,
      freeBody_ok hf, Env.freeLater]
  case freeI =>
    have hfield : e.field (decide (f.a.toNat < 16) && decide (1 ≤ f.imm.toNat ∧ f.imm.toNat ≤ 16 ∧
        f.a.toNat + f.imm.toNat ≤ 16)) = .ok () :=
      Env.field_true (by simp only [ha, hlo, hhi, hin, and_self, decide_true, Bool.and_self])
    simp only [bodyAccfreeI, hfield, hl, ok_bind, freeBody_ok hf, Env.freeLater]

end Sys2Proof.Machine
end

section
/-! SUPPORT. The copy and marbling engines' instructions: a request whose checks hold is accepted, one that was accepted while it
waited completes, and statuses are read. -/

namespace Sys2Proof.Machine

/-! ## Handing a request over (R226 to R229) -/

/-- A request that was accepted while its path waited completes. -/
theorem handOver_granted {q : CReq} {l : Nat} {e : Env} {s : State} (h : e.path.granted.contains .engine = true) :
    handOver q l e s = .ok s :=
  if_pos h

/-- A request that is prepared without a fault, with room and nobody waiting, is accepted. -/
theorem handOver_ok {q r : CReq} {l : Nat} {e : Env} {s : State} (hg : e.path.granted.contains .engine = false)
    (hs : e.settledNow s false = true) (hp : s.prep e.c q e.path.faults = .ok r)
    (he : (s.core e.c).caccept.isEmpty = true) (ha : s.acceptable e.c r = true) : handOver q l e s = .ok (s.accept e.c r) := by
  simp only [handOver, hg, Bool.false_eq_true, if_false, Env.settled_ok hs, ok_bind, hp, he, ha, Bool.and_self, if_true]

/-- What COPY, GATHER and SCATTER read of their operands D, A and C in the elected lane. -/
def copyReq (e : Env) (f : F3) (op : CopyOp) (l : Nat) : CReq :=
  { (CReq.init op e.warp.rix e.w e.alt e.path.mask) with
    loc := ((plainOpnd 6 f.d).val32 e l).toNat, raddr := ((pairOpnd 6 f.a).val e l).toNat
    bar := barArg ((plainOpnd 6 f.c).val32 e l) }

section
variable {f : F3} {e : Env} {s : State} {l : Nat} (hl : e.elected = some l) (hd : e.plainOk 6 f.d = true)
  (ha : e.pairOk 6 f.a = true) (hc : e.plainOk 6 f.c = true)
  (hq : e.quiet [plainOpnd 6 f.d, pairOpnd 6 f.a, plainOpnd 6 f.c] = true)
include hl hd ha hc hq

/-- COPY without coordinates. -/
theorem bodyCopy_plain (hb : f.b = 480) :
    bodyCopy f e s = handOver { copyReq e f .copy l with coord := coordsOf [] } l e s := by
  have h480 : f.b.toNat = 480 := by rw [hb]; rfl
  simp only [bodyCopy, Env.plainSrc_ok hd, Env.pairSrc_ok ha, Env.plainSrc_ok hc, Env.landed_ok hq, h480, beq_self_eq_true,
    Bool.true_or, Env.field_true rfl, ne_eq, not_true_eq_false, decide_false, Bool.false_and, Bool.false_eq_true, if_false,
    if_true, hl, ok_bind, copyReq]

/-- COPY with coordinates in four w registers that have landed. -/
theorem bodyCopy_coords (hw : isW f.b = true) (h4 : f.b.toNat % 4 = 0)
    (hb : e.blocked [] ((List.range 4).map (f.b.toNat - 384 + ·)) = false) : bodyCopy f e s = handOver { copyReq e f .copy l with
      coord := coordsOf ((List.range 4).map (fun i => e.wread (f.b.toNat - 384 + i))) } l e s := by
  have hrange : 384 ≤ f.b.toNat ∧ f.b.toNat < 448 := of_decide_eq_true hw
  have hfield : e.field (f.b.toNat == 480 || (decide (384 ≤ f.b.toNat ∧ f.b.toNat < 448) && f.b.toNat % 4 == 0)) = .ok () :=
    Env.field_true (by rw [decide_eq_true hrange, h4, Bool.or_eq_true]; exact .inr rfl)
  have h480 : f.b.toNat ≠ 480 := by omega
  simp only [bodyCopy, Env.plainSrc_ok hd, Env.pairSrc_ok ha, Env.plainSrc_ok hc, Env.landed_ok hq, hfield, hb,
    Bool.and_false,
    Bool.false_eq_true, if_false, hl, ok_bind, if_neg h480, copyReq]

/-- GATHER and SCATTER with their list in a pair of w registers. -/
theorem unitBody_hands {op : CopyOp} (hw : isW f.b = true) (h2 : f.b.toNat % 2 = 0)
    (hb : e.blocked [] [f.b.toNat - 384, f.b.toNat - 383] = false) : unitBody op f e s = handOver { copyReq e f op l with
      list := (e.wread (f.b.toNat - 384)).toNat, n := (e.wread (f.b.toNat - 383)).toNat } l e s := by
  have hfield : e.field (isW f.b && f.b.toNat % 2 == 0) = .ok () := Env.field_true (by rw [hw, h2]; rfl)
  simp only [unitBody, Env.plainSrc_ok hd, Env.pairSrc_ok ha, Env.plainSrc_ok hc, Env.landed_ok hq, hfield,
    Env.wLanded_ok hb, hl,
    ok_bind, copyReq]

end

/-- A copy instruction that hands over a request. -/
theorem exec_handOver {i : Instr} {g : Guard} {body : Body} {s : State} {e : Env} {r : CReq} {l : Nat}
    (hi : exec i s = issue (costOf i) g body s) (h : s.Issues g e)
    (hb : body e (e.enter s) = handOver r l e (e.enter s)) :
    (∀ q, e.path.granted.contains .engine = false → e.settledNow (e.enter s) false = true →
      (e.enter s).prep e.c r e.path.faults = .ok q → ((e.enter s).core e.c).caccept.isEmpty = true →
      (e.enter s).acceptable e.c q = true → exec i s = .next (e.complete (costOf i) g ((e.enter s).accept e.c q))) ∧
    (e.path.granted.contains .engine = true → exec i s = .next (e.complete (costOf i) g (e.enter s))) :=
  ⟨fun _ hg hs hp he ha => hi.trans (issue_next h (hb.trans (handOver_ok hg hs hp he ha))),
    fun hg => hi.trans (issue_next h (hb.trans (handOver_granted hg)))⟩

/-- Settles O37: each hands its request over. -/
theorem copyRequestsAccepted : Obligations.CopyRequestsAccepted := by
  intro s e f l h hl hd ha hc hq
  dsimp only
  refine ⟨fun hb => exec_handOver (exec_copy f s) h (bodyCopy_plain hl hd ha hc hq hb),
    fun hw h4 hb => exec_handOver (exec_copy f s) h (bodyCopy_coords hl hd ha hc hq hw h4 hb), fun hw h2 hb => ?_⟩
  simp only [List.forall_mem_cons]
  exact ⟨exec_handOver (exec_gather f s) h (unitBody_hands hl hd ha hc hq hw h2 hb),
    exec_handOver (exec_scatter f s) h (unitBody_hands hl hd ha hc hq hw h2 hb),
    exec_handOver (exec_scatterAdd f s) h (unitBody_hands hl hd ha hc hq hw h2 hb), List.forall_mem_nil _⟩

/-! ## KICK and the prefetches (R230, R232) -/

/-- A prefetch with room and nobody waiting is accepted. -/
theorem pflOver_ok {q : CReq} {e : Env} {s : State} (he : (s.core e.c).caccept.isEmpty = true)
    (ha : s.acceptable e.c q = true) : pflOver q e s = .ok (s.accept e.c q) :=
  if_pos (by rw [he, ha]; rfl)

/-! ## Statuses (R233, R314) -/

/-- A status instruction whose selector is a legal one puts what it selects, and for selector 4 the clear. -/
theorem statusBody_ok {f : F2} {val : Env → State → Nat → Option W32} {clear : Dest} {e : Env} {s : State} {l : Nat} {x : W32}
    (hl : lowest e.act = some l) (ha : e.plainOk 6 f.a = true) (hq : e.quiet [plainOpnd 6 f.a] = true)
    (hd : (if e.strand then wOk f.d false else e.vwOk f.d false) = true)
    (hv : val e s ((plainOpnd 6 f.a).val32 e l).toNat = some x) :
    statusBody f val clear e s = .ok (if ((plainOpnd 6 f.a).val32 e l).toNat = 4 then
        e.put 7 2 false clear [] e.act [] (e.putVW 7 2 false f.d false (x.setWidth 64) s)
      else e.putVW 7 2 false f.d false (x.setWidth 64) s) := by
  cases hs : e.strand with
  | true =>
    rw [hs, if_pos rfl] at hd
    simp only [statusBody, hs, if_true, Env.dstW_ok hd, Env.plainSrc_ok ha, Env.landed_ok hq, hl, hv, ok_bind]
  | false =>
    rw [hs, if_neg Bool.false_ne_true] at hd
    simp only [statusBody, hs, Bool.false_eq_true, if_false, Env.dstVW_ok hd, Env.plainSrc_ok ha, Env.landed_ok hq, hl, hv,
      ok_bind]

/-- A selector other than 4 reads. -/
theorem statusBody_read {f : F2} {val : Env → State → Nat → Option W32} {clear : Dest} {e : Env} {s : State} {l : Nat}
    {x y : W32} (hl : lowest e.act = some l) (ha : e.plainOk 6 f.a = true) (hq : e.quiet [plainOpnd 6 f.a] = true)
    (hd : (if e.strand then wOk f.d false else e.vwOk f.d false) = true) (hy : (plainOpnd 6 f.a).val32 e l = y) (h4 : y ≠ 4)
    (hv : val e s y.toNat = some x) : statusBody f val clear e s = .ok (e.putVW 7 2 false f.d false (x.setWidth 64) s) := by
  subst hy
  have hn : ((plainOpnd 6 f.a).val32 e l).toNat ≠ 4 := fun h => h4 (BitVec.eq_of_toNat_eq h)
  rw [statusBody_ok hl ha hq hd hv, if_neg hn]

/-- Selector 4 reads and clears. -/
theorem statusBody_clear {f : F2} {val : Env → State → Nat → Option W32} {clear : Dest} {e : Env} {s : State} {l : Nat}
    {x : W32} (hl : lowest e.act = some l) (ha : e.plainOk 6 f.a = true) (hq : e.quiet [plainOpnd 6 f.a] = true)
    (hd : (if e.strand then wOk f.d false else e.vwOk f.d false) = true) (hy : (plainOpnd 6 f.a).val32 e l = 4)
    (hv : val e s 4 = some x) : statusBody f val clear e s =
      .ok (e.put 7 2 false clear [] e.act [] (e.putVW 7 2 false f.d false (x.setWidth 64) s)) := by
  have h4 : ((plainOpnd 6 f.a).val32 e l).toNat = 4 := by rw [hy]; rfl
  rw [statusBody_ok hl ha hq hd (h4.symm ▸ hv), if_pos h4]

/-- Settles O38: KICK and the prefetches pass their checks, the statuses their selectors. -/
theorem listsPrefetchesAndStatus : Obligations.ListsPrefetchesAndStatus := by
  intro s e f l h
  dsimp only
  refine ⟨fun hl ha hb hq hs hk hcl hlo hhi hal hwin => (exec_kick f s).trans (issue_next h ?kick),
    fun hl ha hb hg he hlo hhi => ⟨fun bar hbar hd hq hin ho hacc => (exec_pfl2 f s).trans (issue_next h ?pfl2),
      fun k hk hd hq hacc => (exec_pfl2Tok f s).trans (issue_next h ?tok)⟩,
    fun hl ha hq hd => ⟨?cstat, fun hsel => ?cclear, fun hsel => ?mstat, fun hsel => ?mclear⟩⟩
  case kick =>
    simp only [bodyKick, Env.plainSrc_ok ha, Env.plainSrc_ok hb, Env.landed_ok hq, hl,
      need_true (decide_eq_true (And.intro hlo hhi)),
      need_true (beq_iff_eq.mpr hal), need_true (decide_eq_true hwin), Env.settled_ok hs, hk, bne_self_eq_false,
      Bool.false_eq_true,
      if_false, if_neg (Nat.not_le.mpr hcl), ok_bind]
  case pfl2 =>
    cases bar with
    | none =>
      simp only [bodyPfl2, Env.plainSrc_ok hd, Env.pairSrc_ok ha, Env.plainSrc_ok hb, Env.landed_ok hq, hg,
        Bool.false_eq_true,
        if_false, hl, need_true (decide_eq_true (And.intro hlo hhi)), hbar, need_true rfl, need_true ho,
        pflOver_ok he hacc, ok_bind]
    | some x =>
      obtain ⟨hal, hwin⟩ := hin x rfl
      simp only [bodyPfl2, Env.plainSrc_ok hd, Env.pairSrc_ok ha, Env.plainSrc_ok hb, Env.landed_ok hq, hg,
        Bool.false_eq_true,
        if_false, hl, need_true (decide_eq_true (And.intro hlo hhi)), hbar, need_true (beq_iff_eq.mpr hal),
        need_true (decide_eq_true hwin), need_true ho, pflOver_ok he hacc, ok_bind]
  case tok =>
    simp only [bodyPfl2Tok, Env.dstW_ok hd, Env.pairSrc_ok ha, Env.plainSrc_ok hb, Env.landed_ok hq, hg, Bool.false_eq_true,
      if_false, hl, need_true (decide_eq_true (And.intro hlo hhi)), hk, pflOver_ok he hacc, ok_bind]
  case cstat =>
    simp only [List.forall_mem_cons]
    refine ⟨fun hsel => ?_, fun hsel => ?_, fun hsel => ?_, fun hsel => ?_, List.forall_mem_nil _⟩ <;>
      exact (exec_cstat f s).trans (issue_next h (by
        unfold bodyCstat
        exact statusBody_read hl ha hq hd hsel (by decide) rfl))
  case cclear =>
    exact (exec_cstat f s).trans (issue_next h (by unfold bodyCstat; exact statusBody_clear hl ha hq hd hsel rfl))
  case mstat =>
    exact (exec_mstat f s).trans (issue_next h (by unfold bodyMstat; exact statusBody_read hl ha hq hd hsel (by decide) rfl))
  case mclear =>
    exact (exec_mstat f s).trans (issue_next h (by unfold bodyMstat; exact statusBody_clear hl ha hq hd hsel rfl))

/-! ## The marbling engine (R295 to R297, R303, R304, R308, R312, R313) -/

/-- A marbling request that is aligned and in its window, with room and nobody waiting, is accepted. -/
theorem marbleOver_ok {q : MReq} {l : Nat} {e : Env} {s : State} (hg : e.path.granted.contains .engine = false)
    (hal : q.aligned = true) (hin : q.inside e.blk.window = true) (ho : s.objectOk e.c e.warp.rix e.blk.grid 0 q.bar = true)
    (hs : e.settledNow s false = true) (hw : (s.core e.c).marbleWaiting.isEmpty = true)
    (hf : (s.core e.c).marbleFits q = true) : marbleOver q l e s = .ok (s.marbleAccept e.c q) := by
  simp only [marbleOver, hg, Bool.false_eq_true, if_false, need_true hal, need_true hin, need_true ho, Env.settled_ok hs,
    ok_bind,
    hw, hf, Bool.and_self, if_true]

/-- Settles O39: each request passes its own check, then those that all share. -/
theorem marblingRequestsAccepted : Obligations.MarblingRequestsAccepted := by
  intro s e l hl
  dsimp only
  refine ⟨fun f h hd ha hb hc hq => ⟨fun hg => (exec_seedtry f s).trans (issue_next h ?tryAgain),
      fun hg => (exec_seedscan f s).trans (issue_next h ?scanAgain), fun hctl =>
      ⟨fun hseed hg hal hin ho hs hw hf => (exec_seedtry f s).trans (issue_next h ?seed),
        fun hg hal hin ho hs hw hf => (exec_seedscan f s).trans (issue_next h ?scan)⟩⟩,
    fun f h ha hb => ⟨fun hd hq => ⟨fun hg => (exec_fit f s).trans (issue_next h ?fitAgain),
      fun hg => (exec_proj f s).trans (issue_next h ?projAgain),
      fun hfmt hg hal hin ho hs hw hf => (exec_fit f s).trans (issue_next h ?fit),
      fun hz hbank hg hal hin ho hs hw hf => (exec_proj f s).trans (issue_next h ?proj)⟩,
      fun hd hq hseed => (exec_mgen f s).trans (issue_next h ?mgen)⟩⟩
  case tryAgain =>
    simp only [bodySeedtry, trialBody, Env.plainSrc_ok hd, Env.plainSrc_ok ha, Env.plainSrc_ok hb, Env.plainSrc_ok hc,
      Env.landed_ok hq, hl, hg, if_true, ok_bind]
  case scanAgain =>
    simp only [bodySeedscan, trialBody, Env.plainSrc_ok hd, Env.plainSrc_ok ha, Env.plainSrc_ok hb, Env.plainSrc_ok hc,
      Env.landed_ok hq, hl, hg, if_true, ok_bind]
  case seed =>
    simp only [bodySeedtry, trialBody, Env.plainSrc_ok hd, Env.plainSrc_ok ha, Env.plainSrc_ok hb, Env.plainSrc_ok hc,
      Env.landed_ok hq, hl, hg, Bool.false_eq_true, if_false, bne_iff_ne.mpr hseed, Bool.false_or, hctl, Bool.and_self,
      need_true rfl, ok_bind]
    exact marbleOver_ok hg hal hin ho hs hw hf
  case scan =>
    simp only [bodySeedscan, trialBody, Env.plainSrc_ok hd, Env.plainSrc_ok ha, Env.plainSrc_ok hb, Env.plainSrc_ok hc,
      Env.landed_ok hq, hl, hg, Bool.false_eq_true, if_false, if_true, Bool.true_or, hctl, Bool.and_self, need_true rfl,
      ok_bind]
    exact marbleOver_ok hg hal hin ho hs hw hf
  case fitAgain =>
    simp only [bodyFit, outputBody, Env.plainSrc_ok hd, Env.plainSrc_ok ha, Env.plainSrc_ok hb, Env.landed_ok hq, hl, hg,
      if_true,
      ok_bind]
  case projAgain =>
    simp only [bodyProj, outputBody, Env.plainSrc_ok hd, Env.plainSrc_ok ha, Env.plainSrc_ok hb, Env.landed_ok hq, hl, hg,
      if_true,
      ok_bind]
  case fit =>
    simp only [bodyFit, outputBody, Env.plainSrc_ok hd, Env.plainSrc_ok ha, Env.plainSrc_ok hb, Env.landed_ok hq, hl, hg,
      Bool.false_eq_true, if_false, need_true (beq_iff_eq.mpr hfmt), Bool.not_false, Bool.true_and, ok_bind]
    exact marbleOver_ok hg hal hin ho hs hw hf
  case proj =>
    simp only [bodyProj, outputBody, Env.plainSrc_ok hd, Env.plainSrc_ok ha, Env.plainSrc_ok hb, Env.landed_ok hq, hl, hg,
      Bool.false_eq_true, if_false, if_true, beq_iff_eq.mpr hz, hbank, Bool.and_self, need_true rfl, Bool.not_true,
      Bool.false_and, ok_bind]
    exact marbleOver_ok hg hal hin ho hs hw hf
  case mgen =>
    simp only [bodyMgen, Env.dstW_ok hd, Env.plainSrc_ok ha, Env.plainSrc_ok hb, Env.landed_ok hq, hl,
      need_true (bne_iff_ne.mpr hseed), ok_bind]

end Sys2Proof.Machine
end

section
/-! SUPPORT. The system unit's instructions: translation and its invalidation, the governor and observation, special registers and
queues. -/

namespace Sys2Proof.Machine

/-! ## Translation (R359 to R364) -/

/-- An invalidation that is over completes. -/
theorem Env.invalidate_granted {e : Env} {v : Cover} {s : State} (h : e.path.granted.contains .inval = true) :
    e.invalidate v s = .ok s := by
  simp only [Env.invalidate, h, or_true, if_true, Env.await_ok h, ok_bind]

/-- One that may start asks for its sweep and waits. -/
theorem Env.invalidate_waits {e : Env} {v : Cover} {s : State} (hg : e.path.granted.contains .inval = false)
    (h : v.mode = 4 ∨ e.settledNow s true = true) :
    e.invalidate v s = .error (.wait .inval (fun t => t.startInval v e.c (some (e.w, e.alt)))) := by
  simp only [Env.invalidate, Env.await, hg, Bool.false_eq_true, or_false, if_false]
  split
  · rfl
  · next hm => rw [Env.settled_ok (h.resolve_left hm), ok_bind, error_bind]

/-- The two ends of an instruction that invalidates. -/
theorem exec_invalidate {i : Instr} {g : Guard} {body : Body} {s : State} {e : Env} {mode va len : Nat} {pasid : Option Nat}
    (hi : exec i s = issue (costOf i) g body s) (h : s.Issues g e)
    (hb : body e (e.enter s) = e.invalidate ⟨mode, pasid, va, len⟩ (e.enter s)) :
    (e.path.granted.contains .inval = true → exec i s = .next (e.complete (costOf i) g (e.enter s))) ∧
    (e.path.granted.contains .inval = false → mode = 4 ∨ e.settledNow (e.enter s) true = true → exec i s =
      .next (e.stopped s (.wait .inval (fun t => t.startInval ⟨mode, pasid, va, len⟩ e.c (some (e.w, e.alt)))))) :=
  ⟨fun hg => hi.trans (issue_next h (hb.trans (Env.invalidate_granted hg))),
    fun hg hs => hi.trans (issue_stops h (hb.trans (Env.invalidate_waits hg hs)))⟩

/-- Settles O40: XLATE and XPROBE put their statuses, the privileged five invalidate what they cover. -/
theorem translationInstructions : Obligations.TranslationInstructions := by
  intro s e f l h
  dsimp only
  refine ⟨fun hd ha hq => ⟨fun hact hmiss => (exec_xlate f s).trans (issue_next h ?known),
      fun hmiss => (exec_xlate f s).trans (issue_next h ?walks), fun hact => (exec_xprobe f s).trans (issue_next h ?probe)⟩,
    fun hl hp => ⟨fun ha hq => exec_invalidate (exec_xinvPage f s) h ?page,
      fun ha hb hq hlo hhi => exec_invalidate (exec_xinvRange f s) h ?range,
      fun ha hq hz => exec_invalidate (exec_xinvPasid f s) h ?pasid, exec_invalidate (exec_xinvAll f s) h ?all,
      exec_invalidate (exec_xflush f s) h ?flush⟩⟩
  case known =>
    simp only [bodyXlate, Env.dstV_ok hd, Env.pairSrc_ok ha, Env.landed_ok hq, ok_bind, if_neg hact, hmiss, List.isEmpty_nil,
      List.length_nil, if_true]
  case walks =>
    have hact : lanesOf e.act ≠ [] := fun hn => hmiss (by rw [hn]; rfl)
    have hne := Bool.eq_false_iff.mpr (mt List.isEmpty_iff.mp hmiss)
    simp only [bodyXlate, Env.dstV_ok hd, Env.pairSrc_ok ha, Env.landed_ok hq, ok_bind, if_neg hact, hne,
      Bool.false_eq_true, if_false]
  case probe => simp only [bodyXprobe, Env.dstV_ok hd, Env.pairSrc_ok ha, Env.landed_ok hq, ok_bind, if_neg hact] <;> rfl
  case page => simp only [bodyXinvPage, need_true hp, Env.pairSrc_ok ha, Env.landed_ok hq, hl, ok_bind]
  case range =>
    simp only [bodyXinvRange, need_true hp, Env.pairSrc_ok ha, Env.plainSrc_ok hb, Env.landed_ok hq, hl,
      need_true (decide_eq_true (And.intro hlo hhi)), ok_bind]
  case pasid =>
    simp only [bodyXinvPasid, need_true hp, Env.plainSrc_ok ha, Env.landed_ok hq, hl, need_true (beq_iff_eq.mpr hz), ok_bind]
  case all => simp only [bodyXinvAll, need_true hp, Env.elected_isNone hl, Bool.false_eq_true, if_false, ok_bind]
  case flush => simp only [bodyXflush, need_true hp, Env.elected_isNone hl, Bool.false_eq_true, if_false, ok_bind]

/-! ## The governor and observation (R385 to R387, R411 to R415) -/

/-- The elected lane's operand is read once. -/
theorem Env.once_ok {e : Env} {a : Opnd} {k : Nat → W32 → Except Stop State} {s : State} {l : Nat} (h : e.elected = some l) :
    e.once a k s = k l (a.val32 e l) := by
  rw [Env.once, h]

/-- A status goes to v or w, in a strand to w. -/
theorem Env.statusDst_ok {e : Env} {d : Code} (h : (if e.strand then wOk d false else e.vwOk d false) = true) :
    (if e.strand = true then e.dstW d false else e.dstVW d false) = .ok () := by
  cases hs : e.strand with
  | true => exact Env.dstW_ok (by rwa [hs] at h)
  | false => exact Env.dstVW_ok (by rwa [hs] at h)

/-- Where breakpoints do not stop, BKPT traps after itself. -/
theorem Env.stopped_bkpt {e : Env} {s : State} {alt : Bool} (hw : e.who = .path alt) : e.stopped s (.trap cBkpt e.act) =
    ((e.enter s).modWarp e.c e.w (fun w =>
      { (w.modPath alt (fun p => { p with park := some (.trap 0x30 e.next e.act) })) with
        edge := if e.warp.atLoopEnd e.pc then some alt else w.edge })).modClock e.c (fun k => { k with stage := .done }) := by
  simp only [Env.stopped, Env.trapped, Env.trapNext, hw, Env.chosen]
  rfl

theorem rpctlBody_ok {f : F2} {m : Option Nat} {e : Env} {s : State} {l : Nat} (hl : e.elected = some l)
    (ha : e.plainOk 7 f.a = true) (hq : e.quiet [plainOpnd 7 f.a] = true) (hp : e.warp.priv = true)
    (hd : e.vwOk f.d false = true) (hz : ((plainOpnd 7 f.a).val32 e l).extractLsb' 9 23 = 0) :
    let sl := (((plainOpnd 7 f.a).val32 e l).extractLsb' 0 9).toNat
    let t := match m with | some m => s.setRpmode sl m | none => s
    rpctlBody f m e s = .ok (e.putVW 7 0 true f.d false ((t.rpStatus sl).setWidth 64) t) := by
  simp only [rpctlBody, need_true hp, Env.dstVW_ok hd, Env.plainSrc_ok ha, Env.landed_ok hq, Env.once_ok hl,
    need_true (beq_iff_eq.mpr hz), ok_bind] <;> cases m <;> rfl

/-- Settles O41: each reads its operand once, in the elected lane. -/
theorem governorAndObservation : Obligations.GovernorAndObservation := by
  intro s e l hl
  dsimp only
  refine ⟨fun f h ha hq => ⟨fun hx => (exec_pclass f s).trans (issue_next h ?pclass),
      fun hp hx => (exec_opsel f s).trans (issue_next h ?opsel), (exec_tmark f s).trans (issue_next h ?tmark),
      fun ho => (exec_bkpt f s).trans (issue_next h ?bkpt),
      fun ho alt hw => (exec_bkpt f s).trans ((issue_stops (r := .trap cBkpt e.act) h ?bkptTrap).trans (by rw [Env.stopped_bkpt hw])),
      fun hd => ⟨fun hg hf => (exec_shash f s).trans (issue_next h ?shash),
      fun hg => (exec_shash f s).trans (issue_next h ?shashAgain)⟩,
      fun v hd hv => (exec_confrd f s).trans (issue_next h ?confrd),
      fun hp hd => ⟨fun hx => (exec_grant f s).trans (issue_next h ?grant),
        fun hz => ⟨(exec_rpctlQuery f s).trans (issue_next h ?query), ?rpctl⟩⟩⟩,
    fun f h => ⟨fun hx => (exec_pclassI f s).trans (issue_next h ?pclassI),
      fun hp hx => (exec_opselI f s).trans (issue_next h ?opselI), (exec_tmarkI f s).trans (issue_next h ?tmarkI),
      fun ho => (exec_bkptI f s).trans (issue_next h ?bkptI),
      fun ho alt hw => (exec_bkptI f s).trans ((issue_stops (r := .trap cBkpt e.act) h ?bkptITrap).trans (by rw [Env.stopped_bkpt hw]))⟩⟩
  case pclass =>
    simp only [bodyPclass, Env.plainSrc_ok ha, Env.landed_ok hq, Env.once_ok hl, need_true (decide_eq_true hx), ok_bind]
  case opsel =>
    simp only [bodyOpsel, need_true hp, Env.plainSrc_ok ha, Env.landed_ok hq, Env.once_ok hl,
      need_true (decide_eq_true hx), ok_bind]
  case tmark => simp only [bodyTmark, Env.plainSrc_ok ha, Env.landed_ok hq, Env.once_ok hl, ok_bind]
  case bkpt => simp only [bodyBkpt, Env.plainSrc_ok ha, Env.landed_ok hq, Env.once_ok hl, Env.breakpoint, ho, if_true,
    ok_bind]
  case bkptTrap =>
    simp only [bodyBkpt, Env.plainSrc_ok ha, Env.landed_ok hq, Env.once_ok hl, Env.breakpoint, ho, Bool.false_eq_true,
      if_false, ok_bind]
  case shash =>
    simp only [bodyShash, Env.dstVW_ok hd, Env.plainSrc_ok ha, Env.landed_ok hq, Env.once_ok hl, hg, hf, Bool.false_eq_true,
      if_false, if_true, ok_bind]
  case shashAgain =>
    simp only [bodyShash, Env.dstVW_ok hd, Env.plainSrc_ok ha, Env.landed_ok hq, Env.once_ok hl, hg, if_true, ok_bind]
  case confrd =>
    simp only [bodyConfrd, Env.plainSrc_ok ha, Env.landed_ok hq, Env.once_ok hl, hv, ok_bind]
    rw [Env.statusDst_ok hd, ok_bind]
  case grant =>
    simp only [bodyGrant, need_true hp, Env.dstVW_ok hd, Env.plainSrc_ok ha, Env.landed_ok hq, Env.once_ok hl,
      need_true hx, ok_bind]
  case query => exact rpctlBody_ok (m := none) hl ha hq hp hd hz
  case rpctl =>
    simp only [List.forall_mem_cons]
    exact ⟨(exec_rpctlOff f s).trans (issue_next h (rpctlBody_ok hl ha hq hp hd hz)),
      (exec_rpctlRec f s).trans (issue_next h (rpctlBody_ok hl ha hq hp hd hz)),
      (exec_rpctlReplay f s).trans (issue_next h (rpctlBody_ok hl ha hq hp hd hz)), List.forall_mem_nil _⟩
  case pclassI =>
    simp only [bodyPclassI, Env.field_true (decide_eq_true hx), Env.elected_isNone hl, Bool.false_eq_true, if_false, ok_bind]
  case opselI =>
    simp only [bodyOpselI, need_true hp, Env.field_true (decide_eq_true hx), Env.elected_isNone hl, Bool.false_eq_true,
      if_false, ok_bind]
  case tmarkI => simp only [bodyTmarkI, Env.elected_isNone hl, Bool.false_eq_true, if_false]
  case bkptI => simp only [bodyBkptI, Env.elected_isNone hl, Bool.false_eq_true, if_false, Env.breakpoint, ho, if_true]
  case bkptITrap => simp only [bodyBkptI, Env.elected_isNone hl, Bool.false_eq_true, if_false, Env.breakpoint, ho]

/-! ## Special registers and queues (R38, R52, R328, R329) -/

/-- QSUB of a record in the window, present and clear of the clasp, to a queue open to its block reserves its ticket. -/
theorem bodyQsub_ok {f : F2} {e : Env} {s : State} {l : Nat} (hl : e.elected = some l) (hd : wOk f.d false = true)
    (ha : e.plainOk 7 f.a = true) (hb : e.plainOk 7 f.b = true) (hq : e.quiet [plainOpnd 7 f.a, plainOpnd 7 f.b] = true) :
    let off := ((plainOpnd 7 f.a).val32 e l).toNat
    let q := ((plainOpnd 7 f.b).val32 e l).toNat
    let rec_ := s.scratchRead e.c e.warp.rix off 128
    q < 64 → off % 128 = 0 → off + 128 ≤ e.blk.window → (s.qctl q).getLsbD 0 = true → (s.qctl q).getLsbD 4 = true →
    (s.qpasid q = e.blk.pasid ∨ e.warp.priv = true) → s.claspHit e.c false off 128 (.scr e.c e.warp.rix off) = false →
    s.linePresent e.c e.warp.rix (off / 128) = true → ((rec_.getD 36 0).getLsbD 0 = true → e.warp.priv = true) →
    bodyQsub f e s = .ok (e.qsubTake f.d l q rec_ (s.bankWords e.c e.warp.rix off 128 (e.bankPort l).1 0 e.c 0)) := by
  dsimp only
  intro hqn hal hwin hen hen' hpasid hclasp hline hrec
  have hopen : (s.qpasid ((plainOpnd 7 f.b).val32 e l).toNat == e.blk.pasid || e.warp.priv) = true := by
    rcases hpasid with h | h
    · rw [h, beq_self_eq_true]; rfl
    · rw [h, Bool.or_true]
  have hpriv : (!((s.scratchRead e.c e.warp.rix ((plainOpnd 7 f.a).val32 e l).toNat 128).getD 36 0).getLsbD 0 || e.warp.priv) =
      true := by
    cases hbit : ((s.scratchRead e.c e.warp.rix ((plainOpnd 7 f.a).val32 e l).toNat 128).getD 36 0).getLsbD 0 with
    | false => rfl
    | true => exact hrec hbit
  simp only [bodyQsub, Env.dstW_ok hd, Env.plainSrc_ok ha, Env.plainSrc_ok hb, Env.landed_ok hq, hl,
    need_true (decide_eq_true hqn), need_true (beq_iff_eq.mpr hal), need_true (decide_eq_true hwin), hen, hen', Bool.and_self,
    need_true hopen, hclasp, Bool.not_false, need_true rfl, hline, if_true, need_true hpriv, ok_bind]

/-- Settles O42: GETSP and SETSP of codes that they may name, and QSUB of a record that passes its checks. -/
theorem specialRegistersAndQueues : Obligations.SpecialRegistersAndQueues := by
  intro s e f l h
  dsimp only
  refine ⟨fun hcode hact hd => ⟨fun hw hlane => (exec_getsp f s).trans (issue_next h ?once),
      fun hw => (exec_getsp f s).trans (issue_next h ?lanes)⟩,
    fun hl hcode hp hlegal hq hflags => (exec_setsp f s).trans (issue_next h ?set),
    fun hl hd ha hb hq hqn hal hwin hen hen' hpasid hclasp hline hrec =>
      ⟨fun hfull => (exec_qsub f s).trans (issue_next h ?full), fun hroom => (exec_qsub f s).trans (issue_next h ?room)⟩⟩
  case once =>
    simp only [bodyGetsp, decide_eq_true hcode, hlane, hw, Bool.false_and, Bool.not_false, Bool.and_self, Env.field_true rfl,
      Env.dstVW_ok hd, if_neg hact, if_true, ok_bind]
  case lanes =>
    simp only [bodyGetsp, decide_eq_true hcode, hw, Bool.and_false, Bool.not_false, Bool.and_self, Env.field_true rfl,
      Env.dstVW_ok hd, if_neg hact, Bool.false_eq_true, if_false, ok_bind]
  case set =>
    have hpriv : (!spPriv f.b.toNat || e.warp.priv) = true := by
      cases hs : spPriv f.b.toNat with
      | false => rfl
      | true => exact hp hs
    have hland : (if f.b.toNat = 0x0B then e.flagsQuiet else .ok ()) = .ok () := by
      split
      · next hc => exact hflags hc
      · rfl
    simp only [bodySetsp, need_true hpriv, Env.field_true hcode, Env.sources_ok hlegal, Env.landed_ok hq, hl, ok_bind]
    rw [hland, ok_bind]
  case full =>
    rw [bodyQsub_ok hl hd ha hb hq hqn hal hwin hen hen' hpasid hclasp hline hrec, Env.qsubTake, if_pos hfull]
  case room =>
    rw [bodyQsub_ok hl hd ha hb hq hqn hal hwin hen hen' hpasid hclasp hline hrec, Env.qsubTake,
      if_neg (ne_true_of_eq_false hroom)]

end Sys2Proof.Machine
end

section
/-! SUPPORT. A bundle issues (model: Bundle). -/
namespace Sys2Proof.Machine

/-- The end of a bundle of which every slot has run, none late, with room left in the snapshot. -/
theorem State.bundleOver_whole {s r : State} {c : Nat} {t : Strand} {x : Warp} {h : W64} {next : W32} {l : List (Who × Slot)}
    (room : ∀ y, (r.core c).warps.find? t.warp = some y → y.strandGroups.length ≤ 6272) :
    s.bundleOver c t x h next l 0 none (r, none) =
      ((r.mxBundle (s.core c).mx c (h.extractLsb' 56 2).toNat).bundleEnds c t.warp (ownedLanes t.clusters) h).modCore c
        (fun k => k.bookBundle t.warp x.pri.pc h l) := by
  unfold State.bundleOver
  cases hy : (r.core c).warps.find? t.warp with
  | none => simp
  | some y => simp [room y hy]

/-- No stop of a bundle stands in its way where its header's LEND bit and its slots have none. -/
theorem State.bundleStops_none {s : State} {t : Strand} {b : Block} {h : W64} {next : W32} {l : List (Who × Slot)}
    (hs : s.slotStops next l = ([], [])) (hl : lendCheck t b h next l = none) : s.bundleStops t b h next l = ([], []) := by
  simp only [State.bundleStops, hl, hs]

/-- Settles O43: no stop stands in the bundle's way, so its slots run and the bundle ends whole. -/
theorem bundlesIssueWhole : Obligations.BundlesIssueWhole := by
  intro s h ws t x b l s4 c ht hx hb hdr hassign hclash hres hcls hdone s0 next hstops hlend hsync hlvl hrun hroom
  have hst : s0.bundleStops t b h next l = ([], []) := State.bundleStops_none hstops hlend
  have hend := State.bundleOver_whole (s := s0) (x := x) (h := h) (next := next) (l := l) hroom
  have hdom : (h.getLsbD 43 && !(s.core c).domain.getLsbD ((h.extractLsb' 40 3).toNat - 1)) = false := by
    cases hv : h.getLsbD 43 with
    | false => rfl
    | true => rw [hlvl hv]; rfl
  have hsyn : (h.getLsbD 43 && !t.synced) = false := by
    cases hv : h.getLsbD 43 with
    | false => rfl
    | true => rw [hsync hv]; rfl
  have hrun' : s0.bundleRun c t x b h next l = (s4, none) := hrun
  rw [exec_bundle]
  unfold issueBundle
  simp only [c, s0, next] at *
  simp only [ht, hx, hb, hdr, if_true, hassign, hst, hdone, ne_eq, not_true_eq_false, if_false, List.filter_nil, firstTrap,
    Option.bind_none, hclash, List.any_nil, Bool.or_false, hres, Bool.not_true, Bool.false_eq_true, not_lt.mpr hcls, hdom,
    hsyn, hrun', hend] <;> rfl

end Sys2Proof.Machine
end

section
/-! SUPPORT. The bytes that an instruction or the drain of a write buffer leaves (model: Issue, Sequencer, LoadStore,
Bundle, EventsMem). -/
namespace Sys2Proof.Machine

/-- The issuer is of the core and the warp selected. -/
theorem State.env_coords {s : State} {g : Guard} {e : Env} (h : s.env g = some e) : e.c = s.sel.core ∧ e.w = s.sel.warp := by
  unfold State.env at h
  dsimp only at h
  repeat' split at h
  all_goals cases h
  all_goals exact ⟨rfl, rfl⟩

/-! ## Transfers -/

/-- At most sixteen divergence records stand at the issuer's warp. -/
def Env.Shallow (e : Env) (u : State) : Prop := ∀ y, (u.core e.c).warps.find? e.w = some y → y.allRecs.length ≤ 16

/-- Where a change keeps the records of the issuer's warp, records that are few after it were few before. -/
theorem Env.Shallow.before {P : Warp → Warp → Prop} {e : Env} {u t : State} (h : u.SameBut P t e.c e.w)
    (hP : ∀ {y z : Warp}, P y z → z.allRecs = y.allRecs) (ht : e.Shallow t) : e.Shallow u := by
  intro y hy
  obtain ⟨_, _, _, _, hw⟩ := h
  obtain ⟨z, hz, p⟩ := hw y hy
  have := ht z hz
  rwa [hP p] at this

theorem Warp.SameButIssue.allRecs {y z : Warp} (h : y.SameButIssue z) : z.allRecs = y.allRecs :=
  (congrArg Warp.allRecs h :)

/-- A meaning that leaves memory m where few records stand after it, whether it has its effect or not. -/
def Env.EndsShallow (e : Env) (m : SMap Byte) : Except Stop State → Prop
  | .ok t => e.Shallow t → t.mem = m
  | .error r => r.Keeps

theorem Env.EndsShallow.bind_iff {α : Type} {e : Env} {m : SMap Byte} {r : Except Stop α} {f : α → Except Stop State} :
    e.EndsShallow m (r >>= f) ↔ Checks r ∧ ∀ a, r = .ok a → e.EndsShallow m (f a) := by
  cases r with
  | ok a => exact ⟨fun h => ⟨trivial, fun b hb => by cases hb; exact h⟩, fun h => h.2 a rfl⟩
  | error r => exact ⟨fun h => ⟨h, nofun⟩, fun h => h.1⟩

/-- After a transfer a change that keeps the records and memory. -/
theorem Env.EndsShallow.bind {e : Env} {m : SMap Byte} {r : Except Stop State} {f : State → State} (h : e.EndsShallow m r)
    (hs : ∀ t, e.Shallow (f t) → e.Shallow t) (hm : ∀ t, (f t).mem = t.mem) :
    e.EndsShallow m (r >>= fun t => .ok (f t)) := by
  cases r with
  | ok t => exact fun hf => (hm t).trans (h (hs t hf))
  | error r => exact h

theorem Env.spill_checks (e : Env) (t : State) : Checks (e.spill t) := by
  unfold Env.spill
  split
  · trivial
  · dsimp only
    split
    · trivial
    · split
      · trivial
      · trivial
      · exact fun s => by simp

theorem Env.spill_endsShallow (e : Env) (t : State) : e.EndsShallow t.mem (e.spill t) := by
  have hk := e.spill_checks t
  cases h : e.spill t with
  | ok u => exact fun hu => Env.spill_mem h hu
  | error r => rwa [h] at hk

theorem Env.split_endsShallow (e : Env) (taken t r fpc : W32) (leave : Bool) (s : State) :
    e.EndsShallow s.mem (e.split taken t r fpc leave s) := by
  unfold Env.split
  dsimp only
  split
  · exact fun _ => rfl
  · split
    · intro _; rw [Env.goto_mem]; split <;> simp
    · refine Env.EndsShallow.bind_iff.2 ⟨?_, fun _ _ => Env.EndsShallow.bind_iff.2 ⟨Checks.need, fun _ _ => ?_⟩⟩
      · split
        · exact Checks.need
        · trivial
      · have := e.spill_endsShallow ((s.deferOther e.c e.w (!e.alt) e.warp.rix).modWarp e.c e.w
          (fun w => w.openRegion e.alt taken (e.path.mask &&& ~~~taken) t r fpc))
        simpa using this

/-- Results written to lanes change v registers alone. -/
theorem Warp.setLane_eq (lane : Nat) : ∀ (regs : List Nat) (vals : List W32) (w : Warp),
    ∃ v, w.setLane lane regs vals = { w with v := v }
  | [], _, w => ⟨w.v, rfl⟩
  | _ :: _, [], w => ⟨w.v, rfl⟩
  | _ :: rs, _ :: xs, _ => Warp.setLane_eq lane rs xs _

theorem Warp.setLanes_eq (regs : List Nat) : ∀ (lanes : List Nat) (vals : List W32) (w : Warp),
    ∃ v, w.setLanes regs lanes vals = { w with v := v }
  | [], _, w => ⟨w.v, rfl⟩
  | l :: ls, vals, w => by
    obtain ⟨v, hv⟩ := Warp.setLane_eq l regs (vals.take regs.length) w
    obtain ⟨v', hv'⟩ := Warp.setLanes_eq regs ls (vals.drop regs.length) { w with v := v }
    exact ⟨v', by rw [Warp.setLanes, hv, hv']⟩

/-- The link register is no record. -/
theorem Env.link_shallow {e : Env} {reg : Nat} {taken : W32} {s : State} (h : e.Shallow (e.link reg taken s)) : e.Shallow s :=
  Env.Shallow.before (P := fun y z => z.allRecs = y.allRecs) (State.SameBut.modWarp s e.c e.w _ fun y => by
    split
    · split <;> rfl
    · obtain ⟨v, hv⟩ := Warp.setLanes_eq [rotate e.warp.rotbase reg] (lanesOf taken) ((lanesOf taken).map fun _ => e.next) y
      rw [hv]; rfl) id h

/-- A meaning that leaves memory as it was where few records stand after it. -/
def Body.SpillsOnly (b : Body) : Prop := ∀ (e : Env) (s : State), e.EndsShallow s.mem (b e s)

theorem bodyBra_spillsOnly (f : FC) : (bodyBra f).SpillsOnly := by
  intro e s
  unfold bodyBra
  simp only [Env.EndsShallow.bind_iff, Checks.resident, Checks.straight, Checks.notLast, true_and]
  intros
  exact e.split_endsShallow _ _ _ _ _ _

theorem bodyCall_spillsOnly (f : FC) : (bodyCall f).SpillsOnly := by
  intro e s
  unfold bodyCall
  dsimp only
  refine Env.EndsShallow.bind_iff.2 ⟨Checks.resident, fun _ _ => Env.EndsShallow.bind_iff.2 ⟨Checks.jumpReg, fun _ _ =>
    Env.EndsShallow.bind_iff.2 ⟨Checks.notLast, fun _ _ => Env.EndsShallow.bind_iff.2 ⟨Checks.straight, fun _ _ =>
      (e.split_endsShallow _ _ _ _ _ s).bind (fun _ h => Env.link_shallow h) fun _ => by simp⟩⟩⟩⟩

theorem indirectBody_spillsOnly (f : FC) (wide landing leave : Bool) {fin : Env → W32 → State → State} (dflt : Env → W32)
    (hs : ∀ e m t, Env.Shallow e (fin e m t) → e.Shallow t) (hm : ∀ e m t, (fin e m t).mem = t.mem) :
    (indirectBody f wide landing leave fin dflt).SpillsOnly := by
  intro e s
  unfold indirectBody
  dsimp only
  refine Env.EndsShallow.bind_iff.2 ⟨Checks.jumpReg, fun _ _ => Env.EndsShallow.bind_iff.2 ⟨?_, fun _ _ =>
    Env.EndsShallow.bind_iff.2 ⟨Checks.indirect, fun _ _ =>
      (e.split_endsShallow _ _ _ _ _ s).bind (hs e _) (hm e _)⟩⟩⟩
  split
  · trivial
  · exact fun _ => rfl

theorem bodyBrk_spillsOnly (f : FC) : (bodyBrk f).SpillsOnly := by
  intro e s
  unfold bodyBrk
  dsimp only
  simp only [Env.EndsShallow.bind_iff, Checks.enc, Checks.notLast, true_and]
  intros
  split
  · exact fun _ => rfl
  · refine Env.EndsShallow.bind_iff.2 ⟨Checks.need, fun _ _ => ?_⟩
    simpa using e.spill_endsShallow (s.modWarp e.c e.w _)

theorem bodyExit_spillsOnly (f : FC) : (bodyExit f).SpillsOnly := by
  intro e s
  unfold bodyExit
  simp only [Env.EndsShallow.bind_iff, Checks.notLast, true_and]
  intros
  split
  · exact fun _ => rfl
  · split
    · exact fun _ => by simp
    · simpa using e.spill_endsShallow (s.modWarp e.c e.w _)

/-- A transfer that ends with few records at its warp has left memory as it was. -/
theorem issue_shallow {k : Cost} {g : Guard} {body : Body} {s t : State} (hb : body.SpillsOnly) (h : issue k g body s = .next t)
    (ht : ∀ y, (t.core s.sel.core).warps.find? s.sel.warp = some y → y.allRecs.length ≤ 16) : t.mem = s.mem := by
  unfold issue at h
  split at h
  · cases h
  · rename_i e he
    obtain ⟨hc, hw⟩ := State.env_coords he
    have hb' : e.EndsShallow s.mem (if e.edgeMissed then .error (.trap cFolioMiss e.path.mask) else body e (e.enter s)) := by
      split
      · trivial
      · have := hb e (e.enter s); rwa [Env.enter_mem] at this
    revert h
    generalize (if e.edgeMissed then .error (.trap cFolioMiss e.path.mask) else body e (e.enter s) : Except Stop State) = r at hb'
    intro h
    cases r with
    | ok u =>
      cases h
      refine (Env.complete_mem _ _ _ _).trans (hb' (Env.Shallow.before (e.complete_same k g u) Warp.SameButIssue.allRecs ?_))
      intro y hy
      rw [hc, hw] at hy
      exact ht y hy
    | error r => cases h; exact Stop.keeps_stopped hb'

/-! ## Bundles of slots that store nothing -/

/-- What stops a slot that stores nothing leaves memory as it was. -/
theorem slotBody_stop {i : Instr} (h : storesNothing i = true) {e : Env} {s : State} {r : Stop}
    (hr : slotBody i e s = .error r) : r.Keeps := by
  have := slotBody_bytes h e s 0
  rwa [hr] at this

theorem runSlots_stop (s0 : State) (next : W32) (l : List (Who × Slot)) (hl : ∀ p ∈ l, storesNothing p.2.instr = true) :
    ∀ (ls : Bool) (s : State), ∀ n x, (runSlots s0 next ls l s).2 = some (n, x) → x.Keeps := by
  induction l with
  | nil => exact fun _ s => nofun
  | cons p l ih =>
    intro ls s
    have ih := ih fun q hq => hl q (List.mem_cons_of_mem _ hq)
    unfold runSlots
    split
    · exact ih ls s
    · split
      · exact ih _ _
      · rename_i x hx
        split
        · exact ih ls s
        · exact fun n y hy => by cases hy; exact slotBody_stop (hl p List.mem_cons_self) hx

theorem State.slotStops_mem (s : State) (next : W32) (l : List (Who × Slot)) (hl : ∀ p ∈ l, storesNothing p.2.instr = true) :
    (∀ x ∈ (s.slotStops next l).1, ∀ t, (x.note t).mem = t.mem) ∧
      ∀ y ∈ (s.slotStops next l).2, ∀ t, (y.2 t).mem = t.mem := by
  induction l with
  | nil => exact ⟨nofun, nofun⟩
  | cons p l ih =>
    have ih := ih fun q hq => hl q (List.mem_cons_of_mem _ hq)
    simp only [State.slotStops, List.foldr_cons]
    simp only [State.slotStops] at ih
    split
    · exact ih
    · split
      · exact ih
      · exact ⟨List.forall_mem_cons.2 ⟨fun _ => rfl, ih.1⟩, ih.2⟩
      · rename_i hr
        exact ⟨List.forall_mem_cons.2 ⟨slotBody_stop (hl p List.mem_cons_self) hr, ih.1⟩, ih.2⟩
      · rename_i hr
        exact ⟨ih.1, List.forall_mem_cons.2 ⟨slotBody_stop (hl p List.mem_cons_self) hr, ih.2⟩⟩

theorem State.bundleStops_mem (s : State) (t : Strand) (b : Block) (h : W64) (next : W32) (l : List (Who × Slot))
    (hl : ∀ p ∈ l, storesNothing p.2.instr = true) :
    (∀ x ∈ (s.bundleStops t b h next l).1, ∀ t, (x.note t).mem = t.mem) ∧
      ∀ y ∈ (s.bundleStops t b h next l).2, ∀ t, (y.2 t).mem = t.mem := by
  obtain ⟨hn, ha⟩ := State.slotStops_mem s next l hl
  unfold State.bundleStops
  split
  · exact ⟨List.forall_mem_cons.2 ⟨fun _ => rfl, hn⟩, ha⟩
  · exact ⟨hn, ha⟩

/-- The end of a bundle's issue leaves a byte that its slots have left. -/
theorem State.bundleOver_get {s : State} {v : Nat} (c : Nat) (t : Strand) (x : Warp) (h : W64) (next : W32)
    (l : List (Who × Slot)) (first : Nat) (late : Option SlotTrap) {r : State × Option (Nat × Stop)}
    (hr : SMap.get 0 r.1.mem v = SMap.get 0 s.mem v) (hk : ∀ n x, r.2 = some (n, x) → x.Keeps) :
    SMap.get 0 (s.bundleOver c t x h next l first late r).mem v = SMap.get 0 s.mem v := by
  unfold State.bundleOver
  dsimp only
  split
  · rename_i hn
    rw [State.bundleHold_mem, hk _ _ hn]; exact hr
  · simp
  · rename_i hn
    have := hk _ _ hn s
    simpa using congrArg (fun m => SMap.get 0 m v) this
  · have he (u : State) (hu : u.mem = r.1.mem) : SMap.get 0 u.mem v = SMap.get 0 s.mem v := by rw [hu]; exact hr
    have hw : SMap.get 0 (s.bundleWait c t.warp .capacity).mem v = SMap.get 0 s.mem v := by rw [State.bundleWait_mem]
    split <;>
    · split
      · exact hw
      · split
        · exact he _ (by simp)
        · split <;> exact he _ (by simp)

/-- A bundle of slots that store nothing leaves every byte as it was. -/
theorem issueBundle_get {h : W64} {ws : List W64} {s u : State} {v : Nat}
    (hl : ∀ n l, (decodeSlots ws).bind (assign h n) = some l → ∀ p ∈ l, storesNothing p.2.instr = true)
    (hu : issueBundle h ws s = .next u) : SMap.get 0 u.mem v = SMap.get 0 s.mem v := by
  have done {m : State} (hm : m.mem = s.mem) : SMap.get 0 m.mem v = SMap.get 0 s.mem v := by rw [hm]
  unfold issueBundle at hu
  dsimp only at hu
  split at hu
  · cases hu
  rename_i t _
  split at hu
  · cases hu
  rename_i x _
  split at hu
  · cases hu
  rename_i b _
  split at hu
  · cases hu; exact done (by simp)
  rename_i l hassign
  have hl' : ∀ p ∈ l, storesNothing p.2.instr = true := by
    split at hassign
    · exact hl _ _ hassign
    · cases hassign
  obtain ⟨hn, ha⟩ := State.bundleStops_mem { s with sel := ⟨s.sel.core, t.warp, .core⟩ } t b h
    (x.pri.pc + BitVec.ofNat 32 (8 * (1 + ws.length))) l hl'
  generalize State.bundleStops { s with sel := ⟨s.sel.core, t.warp, .core⟩ } t b h
    (x.pri.pc + BitVec.ofNat 32 (8 * (1 + ws.length))) l = st at hu hn ha
  have hf := firstTrap_keeps st.1 hn
  have hd := firstTrap_keeps (st.1.filter (fun x => decide (x.rank < 2))) fun x hx => hn x (List.mem_of_mem_filter hx)
  generalize firstTrap st.1 = first at hu hf
  split at hu
  · cases hu
    have hld : ∀ p ∈ l.drop x.pri.done, storesNothing p.2.instr = true := fun p hp => hl' p (List.mem_of_mem_drop hp)
    refine State.bundleOver_get _ _ _ _ _ _ _ _ ?_ (runSlots_stop _ _ _ hld _ _)
    rw [State.bundleRest, runSlots_get _ _ _ _ hld, State.modPath_mem]
  split at hu
  · rename_i y hy
    cases hu; exact done (by simp [hd y hy])
  split at hu
  · cases hu; exact done (by simp)
  split at hu
  · cases hu; exact done (by simp)
  split at hu
  · cases hu; exact done (by simp)
  split at hu
  · rename_i y hy
    cases hu; exact done (by simp [hf y (Option.bind_test hy)])
  split at hu
  · cases hu; exact done (by simp)
  split at hu
  · rename_i w ask _ hst
    cases hu
    exact done ((State.bundleWait_mem _ _ _ _).trans (ha (w, ask) (by rw [hst]; exact List.mem_cons_self) _))
  split at hu
  · rename_i y hy
    cases hu
    cases first with
    | none => cases hy
    | some z =>
      simp only [Option.bind_some] at hy
      split at hy
      · cases hy
      · cases hy; exact done (by simp [hf y rfl])
  split at hu
  · split at hu
    · cases hu; exact done (by simp)
    · cases hu; exact done (by simp)
  cases hu
  refine State.bundleOver_get _ _ _ _ _ _ _ _ ?_ (runSlots_stop _ _ _ hl' _ _)
  rw [State.bundleRun, runSlots_get _ _ _ _ hl', State.bundleHead_mem]

/-! ## The write buffer -/

theorem natBytes_length (n : Nat) : ∀ x, (natBytes n x).length = n := by
  induction n with
  | zero => exact fun _ => rfl
  | succ n ih => exact fun x => congrArg (· + 1) (ih _)

/-- An atomic performed on memory changes no byte outside its own. -/
theorem State.atomMem_get {s : State} {c w : Nat} {kind : AccKind} {n lane id pa ea : Nat} {data cmp : List W32} {x : Nat}
    (h : x < pa ∨ pa + n ≤ x) : SMap.get 0 (s.atomMem c w kind n lane id pa ea data cmp).mem x = SMap.get 0 s.mem x := by
  have hw : SMap.get (0 : Byte) (match (atomBytes kind n (s.read pa n) data cmp).2 with
      | some b => s.write pa b | none => s : State).mem x = SMap.get 0 s.mem x := by
    cases ha : atomNew kind n (bytesNat (s.read pa n)) (wordsNat data) (wordsNat cmp) with
    | none => simp [atomBytes, ha]
    | some v =>
      simp only [atomBytes, ha, Option.map_some]
      exact State.write_get (by rwa [natBytes_length])
  refine Eq.trans (congrArg (fun m => SMap.get (0 : Byte) m x) ?_) hw
  unfold State.atomMem
  simp only [State.modWarp_mem, State.fill_mem]
  split <;> rfl

theorem State.deliver_get {s : State} {c : Nat} {y : WbEntry} {x : Nat}
    (hst : ∀ b, y.kind = .store b → x < y.addr ∨ y.addr + b.length ≤ x)
    (hat : ∀ k n lane id ea d m, y.kind = .atom k n lane id ea d m → x < y.addr ∨ y.addr + n ≤ x) :
    SMap.get 0 (s.deliver c y).mem x = SMap.get 0 s.mem x := by
  unfold State.deliver
  split
  · rename_i b hb
    exact State.write_get (hst b hb)
  · rename_i hk
    split
    · rfl
    · exact State.atomMem_get (hat _ _ _ _ _ _ _ hk)
  · simp

/-- The drain of a write buffer changes no byte outside its oldest entry's. -/
theorem State.drain_get {s : State} {c : Nat} {y : WbEntry} {l : List WbEntry} {x : Nat} (hw : (s.core c).wb = y :: l)
    (hst : ∀ b, y.kind = .store b → x < y.addr ∨ y.addr + b.length ≤ x)
    (hat : ∀ k n lane id ea d m, y.kind = .atom k n lane id ea d m → x < y.addr ∨ y.addr + n ≤ x) :
    SMap.get 0 (s.drain c).mem x = SMap.get 0 s.mem x := by
  unfold State.drain
  rw [hw]
  exact (State.deliver_get hst hat).trans (by simp)

/-- What a store's body leaves, its instruction leaves where its access goes nowhere else. -/
theorem issue_off_of {k : Cost} {g : Guard} {body : Body} {s t : State} {x : Nat} {e : Env} (he : s.Issues g e)
    (hb : EndsOff x (e.enter s).mem (body e (e.enter s))) (h : issue k g body s = .next t) :
    SMap.get 0 t.mem x = SMap.get 0 s.mem x := by
  refine issue_off (fun e' he' => ?_) h
  cases he.1.symm.trans he'.1
  rwa [Env.enter_mem] at hb

/-- Settles O55, clause by clause: an instruction that stores nothing, a transfer with few records after it, a bundle of
slots that store nothing, the two forms of a store, and the drain of a write buffer. -/
theorem memoryFrame : Obligations.MemoryFrame := by
  intro i s t h
  refine ⟨fun hn x => ?_, ?_, ?_, ?_, ?_, ?_⟩
  · have hb := slotBody_bytes hn
    cases meaning i with
    | slot g _ hm => rw [hm] at h; exact issue_bytes hb h x
    | bundle hdr ws hi => subst hi; cases hn
    | event hi _ => exact absurd (hi.symm.trans (Bool.and_eq_true_iff.mp hn).1) Bool.false_ne_true
  · rintro ⟨f, hf⟩ hy x
    have hm : t.mem = s.mem := by
      simp only [List.mem_cons, List.not_mem_nil, or_false] at hf
      rcases hf with rfl | rfl | rfl | rfl | rfl | rfl | rfl
      · exact issue_shallow (bodyBra_spillsOnly f) ((exec_bra f s).symm.trans h) hy
      · exact issue_shallow (indirectBody_spillsOnly f _ _ _ _ (fun _ _ _ => id) fun _ _ _ => rfl)
          ((exec_brx f s).symm.trans h) hy
      · exact issue_shallow (bodyCall_spillsOnly f) ((exec_call f s).symm.trans h) hy
      · exact issue_shallow (indirectBody_spillsOnly f _ _ _ _ (fun _ _ _ => Env.link_shallow) fun _ _ _ => by simp)
          ((exec_callx f s).symm.trans h) hy
      · exact issue_shallow (indirectBody_spillsOnly f _ _ _ _ (fun _ _ _ => id) fun _ _ _ => rfl)
          ((exec_ret f s).symm.trans h) hy
      · exact issue_shallow (bodyBrk_spillsOnly f) ((exec_brk f s).symm.trans h) hy
      · exact issue_shallow (bodyExit_spillsOnly f) ((exec_exit f s).symm.trans h) hy
    rw [hm]
  · rintro hdr ws rfl hl x
    exact issueBundle_get hl ((exec_bundle hdr ws s).symm.trans h)
  · intro e f rel he hi n x hx
    cases rel with
    | false => subst hi; exact issue_off_of he (storeBody_off (idx := idxOpnd f.b) hx) ((exec_st f s).symm.trans h)
    | true => subst hi; exact issue_off_of he (storeRelBody_off (idx := idxOpnd f.b) hx) ((exec_stRel f s).symm.trans h)
  · intro e f rel he hi n x hx
    cases rel with
    | false => subst hi; exact issue_off_of he (storeBody_off (idx := []) (off := immOff f.imm) hx) ((exec_stI f s).symm.trans h)
    | true =>
      subst hi
      exact issue_off_of he (storeRelBody_off (idx := []) (off := immOff f.imm) hx) ((exec_stRelI f s).symm.trans h)
  · rintro c y l rfl hw x hst hat
    rw [exec_writeBufferDrain] at h
    cases h
    split
    · exact State.drain_get hw hst hat
    · rfl

end Sys2Proof.Machine
end

section
/-! SUPPORT. Taking a trap and returning from it (model: Ops). -/
namespace Sys2Proof.Machine

theorem State.takeTrap_some {s : State} {c w : Nat} {x : Warp} (hx : (s.core c).warps.find? w = some x) (alt : Bool)
    (cause : BitVec 8) (pc lanes : W32) : s.takeTrap c w alt cause pc lanes =
      if (x.strand && x.hand.isNone) || x.results.isEmpty then s.enterTrap c w alt cause pc lanes
      else s.modPath c w alt (fun p => { p with park := some (.trap cause pc lanes) }) := by
  simp only [State.takeTrap, hx]

/-- A warp in its program, or a strand, takes its trap at once when nothing is in the way. -/
theorem State.takeTrap_now {s : State} {c w : Nat} {x : Warp} (hx : (s.core c).warps.find? w = some x)
    (h : x.hand = none ∧ x.strand = true ∨ x.results = []) (alt : Bool) (cause : BitVec 8) (pc lanes : W32) :
    s.takeTrap c w alt cause pc lanes = s.enterTrap c w alt cause pc lanes := by
  rw [State.takeTrap_some hx, if_pos]
  rcases h with ⟨hh, hs⟩ | hr
  · simp [hh, hs]
  · simp [hr]

section
variable {s : State} {c w : Nat} {x : Warp} {b : Block} (hx : (s.core c).warps.find? w = some x)
  (hb : (s.core c).blocks.find? x.rix = some b)
include hx hb

/-- In its handler a warp's trap ends its block (R162). -/
theorem State.enterTrap_hand {h : Handler} (hh : x.hand = some h) (alt : Bool) (cause : BitVec 8) (pc lanes : W32) :
    s.enterTrap c w alt cause pc lanes = s.killBlock c x.rix h.cause.toNat cause.toNat (b.lr.code + pc.setWidth 64) := by
  simp only [State.enterTrap, hx, hb, hh]

/-- Without a handler a trap ends the block (R159). -/
theorem State.enterTrap_bare (hh : x.hand = none) (he : (b.lr.roles.getD x.role ⟨0, 0xFFFFFFFF, 0, 0⟩).handler = 0xFFFFFFFF)
    (alt : Bool) (cause : BitVec 8) (pc lanes : W32) :
    s.enterTrap c w alt cause pc lanes = s.killBlock c x.rix cause.toNat 0 (b.lr.code + pc.setWidth 64) := by
  simp only [State.enterTrap, hx, hb, hh, he, if_true]

/-- The warp that a trap leaves in its handler. -/
theorem State.enterTrap_enters (hh : x.hand = none)
    (he : (b.lr.roles.getD x.role ⟨0, 0xFFFFFFFF, 0, 0⟩).handler ≠ 0xFFFFFFFF) (alt : Bool) (cause : BitVec 8) (pc lanes : W32) :
    ∃ y h, ((s.enterTrap c w alt cause pc lanes).core c).warps.find? w = some y ∧ y.hand = some h ∧
      y.trapcause = cause.setWidth 32 ∧ y.trappc = b.lr.code + pc.setWidth 64 ∧ y.traplanes = lanes ∧ y.priv = true ∧
      y.v = x.swapBanks.v ∧ y.w = x.swapBanks.w ∧ y.bankV = x.swapBanks.bankV ∧ y.bankW = x.swapBanks.bankW ∧
      y.q = x.q ∧ y.flags = x.flags ∧ y.fmode = x.fmode ∧ y.seed = x.seed ∧
      y.pri.live = true ∧ y.pri.pc = (b.lr.roles.getD x.role ⟨0, 0xFFFFFFFF, 0, 0⟩).handler ∧ y.alt.live = false ∧
      (x.strand = false → y.pri.mask = (x.path alt).mask ∧ y.strand = false) ∧
      h.priv = x.priv ∧ h.recs = x.recs ∧ h.loops = x.loops := by
  have hw : (((s.withdraw c w false x.rix).withdraw c w true x.rix).core c).warps.find? w = some x := by
    rw [State.withdraw_warps, State.withdraw_warps, hx]
  simp only [State.enterTrap, hx, hb, hh, if_neg he]
  cases hs : x.strand with
  | false =>
    simp only [Bool.false_eq_true, if_false, State.modWarp_find hw, Option.some.injEq]
    exact ⟨_, _, rfl, rfl, rfl, rfl, rfl, rfl, rfl, rfl, rfl, rfl, rfl, rfl, rfl, rfl, rfl, rfl, rfl, fun _ => ⟨rfl, hs⟩,
      rfl, rfl, rfl⟩
  | true =>
    simp only [if_true, State.modStrand_warps, State.modWarp_find hw, Option.some.injEq]
    exact ⟨_, _, rfl, rfl, rfl, rfl, rfl, rfl, rfl, rfl, rfl, rfl, rfl, rfl, rfl, rfl, rfl, rfl, rfl, nofun, rfl, rfl, rfl⟩

/-- The warp that the return from a warp's handler leaves. -/
theorem State.leaveTrap_leaves {h : Handler} (hh : x.hand = some h) (hs : h.strand = false) :
    ∃ y, ((s.leaveTrap c w).core c).warps.find? w = some y ∧ y.hand = none ∧ y.priv = h.priv ∧
      y.recs = h.recs ∧ y.loops = h.loops ∧ y.v = x.swapBanks.v ∧ y.w = x.swapBanks.w ∧
      (y.path (!h.onPri)).pc = (x.trappc - b.lr.code).setWidth 32 := by
  simp only [State.leaveTrap, hx, hb, hh, hs, State.modWarp_find hx]
  refine ⟨_, rfl, rfl, rfl, rfl, rfl, rfl, rfl, ?_⟩
  cases h.onPri <;> rfl

end

/-- Settles O54: each branch of the trap's entry by itself; ERET's checks hold, and what issuing it changes of its warp
touches nothing that the return reads. -/
theorem trapEntryAndReturn : Obligations.TrapEntryAndReturn := by
  intro s c w x b hx hb
  dsimp only
  refine ⟨fun alt cause pc lanes => ⟨?_, fun hs hr => ?_, fun h hh hr => ?_, fun hh hn he => ?_, fun hh hn he => ?_⟩, ?_⟩
  · exact State.takeTrap_mem ..
  · have : x.results.isEmpty = false := by simpa using hr
    exact (State.takeTrap_some hx alt cause pc lanes).trans (by simp [hs, this])
  · exact (State.takeTrap_now hx (.inr hr) alt cause pc lanes).trans (State.enterTrap_hand hx hb hh alt cause pc lanes)
  · exact (State.takeTrap_now hx (hn.imp_left (⟨hh, ·⟩)) alt cause pc lanes).trans
      (State.enterTrap_bare hx hb hh he alt cause pc lanes)
  · rw [State.takeTrap_now hx (hn.imp_left (⟨hh, ·⟩))]
    exact State.enterTrap_enters hx hb hh he alt cause pc lanes
  · intro e f h hi hc hw hwarp hst hh hs hl hconv hmask hr
    subst hc hw
    constructor
    · refine (exec_eret f s).trans (issue_next hi ?_)
      have hkeep : e.warp.keepsPc e.core = true := by
        unfold Warp.keepsPc
        rw [hwarp, hh]
        split
        · rename_i hx' _
          cases hx'
          simp [hs]
        · rfl
      rw [hwarp] at hkeep
      simp only [bodyEret, hst, Bool.not_false, Env.field_true rfl, hl, hconv, ok_bind, hwarp, hh, hr, hmask,
        need_true (beq_iff_eq.mpr rfl), List.isEmpty_nil, hkeep, Bool.true_or, Bool.true_and, if_true]
    · obtain ⟨_, _, hcore, _, hfind⟩ := e.enter_same s
      obtain ⟨z, hz, hsame⟩ := hfind x hx
      have hblocks : ((e.enter s).core e.c).blocks = (s.core e.c).blocks := (congrArg Core.blocks hcore :)
      have hrix : z.rix = x.rix := (congrArg Warp.rix hsame :)
      have hhand : z.hand = x.hand := (congrArg Warp.hand hsame :)
      have hbank : z.swapBanks.v = x.swapBanks.v ∧ z.swapBanks.w = x.swapBanks.w :=
        ⟨(congrArg (fun y => y.swapBanks.v) hsame :), (congrArg (fun y => y.swapBanks.w) hsame :)⟩
      have hpc : z.trappc = x.trappc := (congrArg Warp.trappc hsame :)
      rw [← hbank.1, ← hbank.2, ← hpc]
      exact State.leaveTrap_leaves hz (by rw [hblocks, hrix]; exact hb) (hhand.trans hh) hs

end Sys2Proof.Machine
end

section
/-! SUPPORT. The events of warps, strands and kettle lines (model: EventsWarp). -/
namespace Sys2Proof.Machine

/-- An event that is due has its effect; one that is not changes nothing. -/
theorem event_due {i : Instr} {s t : State} {d : Bool} (h : exec i s = .next (if d then t else s)) :
    (d = true → exec i s = .next t) ∧ (d = false → exec i s = .next s) :=
  ⟨fun hd => by rw [h, if_pos hd], fun hd => by rw [h, if_neg (ne_true_of_eq_false hd)]⟩

/-! ## Landing results -/

/-- Results written to w registers change those alone. -/
theorem Warp.setW_eq : ∀ (regs : List Nat) (vals : List W32) (y : Warp), ∃ w, y.setW regs vals = { y with w := w }
  | [], _, y => ⟨y.w, rfl⟩
  | _ :: _, [], y => ⟨y.w, rfl⟩
  | _ :: rs, _ :: xs, _ => Warp.setW_eq rs xs _

theorem Warp.orFlags_eq : ∀ (lanes : List Nat) (vals : List W32) (y : Warp), ∃ f, y.orFlags lanes vals = { y with flags := f }
  | [], _, y => ⟨y.flags, rfl⟩
  | _ :: _, [], y => ⟨y.flags, rfl⟩
  | _ :: ls, _ :: xs, _ => Warp.orFlags_eq ls xs _

/-- A result that lands at its warp changes registers and flags alone. -/
theorem Warp.land_eq (y : Warp) (r : Result) : ∃ v w q f, y.land r = { y with v := v, w := w, q := q, flags := f } := by
  unfold Warp.land
  split
  · obtain ⟨v, hv⟩ := Warp.setLanes_eq r.regs (lanesOf r.lanes) r.vals y
    exact ⟨v, _, _, _, hv⟩
  · obtain ⟨w, hw⟩ := Warp.setW_eq r.regs r.vals y
    exact ⟨_, w, _, _, hw⟩
  · split <;> exact ⟨_, _, _, _, rfl⟩
  · exact ⟨_, _, _, _, rfl⟩
  · obtain ⟨f, hf⟩ := Warp.orFlags_eq (lanesOf r.lanes) r.vals y
    exact ⟨_, _, _, f, hf⟩
  all_goals exact ⟨_, _, _, _, rfl⟩

theorem Warp.land_rix (y : Warp) (r : Result) : (y.land r).rix = y.rix := by
  obtain ⟨v, w, q, f, h⟩ := y.land_eq r
  rw [h]

theorem State.land_warps (s : State) (c w : Nat) (r : Result) :
    ((s.land c w r).core c).warps = ((s.core c).modWarp w (fun x => x.land r)).warps := by
  unfold State.land
  dsimp only
  repeat' split
  all_goals simp

theorem State.land_blocks (s : State) (c w : Nat) (r : Result) :
    ((s.land c w r).core c).blocks = (((s.core c).modWarp w (fun x => x.land r)).landBlock w r).blocks := by
  unfold State.land
  dsimp only
  repeat' split
  all_goals simp

theorem State.landOne_warp {s : State} {c w : Nat} {r : Result} {y : Warp} (hy : (s.core c).warps.find? w = some y) :
    ((s.landOne c (w, r)).core c).warps.find? w = some (({ y with results := y.results.erase r } : Warp).land r) := by
  simp [State.landOne, State.progress, State.land_warps, hy]

/-- The release of an ACCFREE takes its banks from the block (R262). -/
theorem State.landOne_banks {s : State} {c w : Nat} {r : Result} {y : Warp} {b : Block}
    (hy : (s.core c).warps.find? w = some y) (hb : (s.core c).blocks.find? y.rix = some b) (hr : r.dest = .accFree) :
    ((s.landOne c (w, r)).core c).blocks.find? y.rix =
      some { b with banks := b.banks.filter (fun p => !r.regs.contains p.1) } := by
  simp [State.landOne, State.progress, State.land_blocks, Core.landBlock, hy, Warp.land_rix, hb, Block.land, hr]

/-! ## Back edges -/

/-- An unpipelined loop with an execution left goes back. -/
theorem State.warpEdge_back {s : State} {c w : Nat} {y : Warp} {alt : Bool} {m : LoopEntry} {rest : List LoopEntry}
    (hl : y.loops = m :: rest) (hp : m.pipe = false) (he : 1 < m.e) :
    s.warpEdge c w y alt = s.modWarp c w (fun _ => { (({ y with edge := none } : Warp).modPath alt (fun p => p.jump m.q)) with
      loops := { m with e := m.e - 1, k := m.k - 1 } :: rest }) := by
  simp only [State.warpEdge, hl, hp, Bool.false_eq_true, if_false, if_pos he]

theorem State.backEdge_warp {s : State} {c w : Nat} {y : Warp} {alt : Bool} (he : (s.core c).edgeWarp = some (w, y, alt))
    (hb : y.bundled = false) : s.backEdge c = s.warpEdge c w y alt := by
  simp only [State.backEdge, he, hb]

/-- Settles O44: each event's law says when it is due; the four effects by what landing, a trap's entry and a back edge do. -/
theorem warpEventsTakeEffect : Obligations.WarpEventsTakeEffect := by
  intro s c l
  refine ⟨?_, ?_, ?_, ?_, ?_⟩
  · simp only [List.forall_mem_cons]
    exact ⟨event_due (exec_resultLands c s), event_due (exec_interlockedResultReturn c s), event_due (exec_linePresent c s),
      event_due (exec_requestEntryFree c s), event_due (exec_warpReady c s), event_due (exec_loopBackEdge c s),
      event_due (exec_reconvergeMerge c s), event_due (exec_folldComplete c s), event_due (exec_collapseComplete c s),
      event_due (exec_expandComplete c s), event_due (exec_strandFaultFreeze c s), event_due (exec_strandSnapshotResume c s),
      event_due (exec_trapEntry c s), event_due (exec_asyncTrapDelivery c s), event_due (exec_kettleLineRise l s),
      event_due (exec_kettleRelease l s), List.forall_mem_nil _⟩
  · intro w r y hl hy
    simp only [State.resultLands, hl, State.landOne_warp hy]
  · intro w r y b hl hy hb hr
    simp only [State.resultLands, hl, State.landOne_banks hy hb hr]
  · intro w alt x p cause pc lanes hbegun htp hpark
    rw [exec_trapEntry]
    simp only [State.trapDue, hbegun, htp, Option.isSome_some, Bool.and_self, if_true, State.trapEntry, hpark]
  · intro w y alt m rest he hb hl hp hy h1
    rw [State.backEdge_warp he hb, State.warpEdge_back hl hp h1]
    exact State.modWarp_find hy

end Sys2Proof.Machine
end

section
/-! SUPPORT. The events of the copy, matrix and marbling engines (model: EventsCopy, EventsEngine). -/
namespace Sys2Proof.Machine

/-- An event that is due has its effect. -/
theorem exec_due {i : Instr} {s t u : State} {d : Bool} (h : exec i s = .next (if d then t else s)) (hd : d = true)
    (ht : t = u) : exec i s = .next u := ht ▸ (event_due h).1 hd

/-- The record of one key changed, entry by entry. -/
theorem KMap.find?_mapIf {α : Type} (j : Nat) (f : α → α) : ∀ m : KMap α,
    KMap.find? (m.map (fun p => if p.1 = j then (p.1, f p.2) else p)) j = (KMap.find? m j).map f
  | [] => rfl
  | (k, x) :: m => by
    by_cases hk : k = j
    · simp [KMap.find?, hk]
    · simp [KMap.find?, hk, KMap.find?_mapIf j f m]

/-! ## The copy engine -/

section
variable {s : State} {c : Nat}

theorem State.acceptNext_head {q : CReq} {l : List CReq} (hq : (s.core c).caccept = q :: l)
    (hr : (s.core c).rixRuns q.rix = true) (ha : s.acceptable c q = true) : s.acceptNext c = some q := by
  simp only [State.acceptNext, hq, List.find?_cons, hr, ha, if_true]

theorem Core.marbleNext_head {k : Core} {q : MReq} {l : List MReq} (hq : k.marbleWaiting = q :: l) (hf : k.marbleFits q = true) :
    k.marbleNext = some q := by
  simp only [Core.marbleNext, hq, hf, if_true]

theorem State.putReq_find (s : State) (c slot : Nat) (q : CReq) : ((s.putReq c slot q).core c).copy.find? slot = some q := by
  simp only [State.putReq, State.modCore_core, KMap.find?_put_same]

/-- The sources that are released leave every request. -/
theorem State.copySources_copy (s : State) (c slot : Nat) (q : CReq) :
    ((s.copySources c slot q).core c).copy = (s.core c).copy := by
  unfold State.copySources
  dsimp only
  split
  · simp [Core.dropClasp]
  · rfl

/-- The data of one more part is asked for, and the cycle's line has moved (R214). -/
def State.thenFetch (u : State) (c : Nat) : State :=
  (match u.fetchNext c with
    | some x => u.within (u.copyFetch c x.1 x.2 (u.rixPasid c x.2.rix)) c
    | none => u).modClock c (fun k => { k with moved := true })

theorem State.moveStep_none (h : s.moveNext c = none) : s.moveStep c = s.thenFetch c := by
  simp only [State.moveStep, State.thenFetch, h]
  cases s.fetchNext c <;> rfl

theorem State.moveStep_some {m : Move} (h : s.moveNext c = some m) : s.moveStep c = (s.makeMove c m).thenFetch c := by
  simp only [State.moveStep, State.thenFetch, h]
  cases (s.makeMove c m).fetchNext c <;> rfl

theorem State.makeMove_out {slot : Nat} {q r : CReq} {p : CPart}
    (h : ((s.within (s.copyTake c slot q (s.rixPasid c q.rix)) c).core c).copy.find? slot = some r) (hp : r.parts = q.parts ++ [p]) :
    s.makeMove c (.out slot q) =
      (s.within (s.copyTake c slot q (s.rixPasid c q.rix)) c).lineOn c (s.partSplit c q (q.shape.dir == 2) p) := by
  simp only [State.makeMove, h, hp, List.drop_left]

theorem State.makeMove_out_none {slot : Nat} {q r : CReq}
    (h : ((s.within (s.copyTake c slot q (s.rixPasid c q.rix)) c).core c).copy.find? slot = some r) (hp : r.parts = q.parts) :
    s.makeMove c (.out slot q) = s.within (s.copyTake c slot q (s.rixPasid c q.rix)) c := by
  simp only [State.makeMove, h, hp, List.drop_length]

theorem State.thenFetch_moved (u : State) (c : Nat) : ((u.thenFetch c).core c).ck.moved = true := by
  simp [State.thenFetch]

/-- Once an entry of a list is malformed the list ends. -/
theorem State.kickAccept_bad {rix warp : Nat} {by_ : W32} (hk : (s.core c).kickBy = some (rix, warp, by_)) :
    let off := ((s.core c).kick.extractLsb' 0 19).toNat
    let u := s.bankWords c rix off 48 5 0 c 3
    kickEntry rix warp by_ (u.scratchRead c rix off 48) = none →
      s.kickAccept c = (u.copyStatusError c rix kickTag cFormat.toNat off).kickDone c := by
  intro off u h
  simp only [off, u] at h ⊢
  simp only [State.kickAccept, hk, h]

theorem State.kickAccept_good {rix warp : Nat} {by_ : W32} (hk : (s.core c).kickBy = some (rix, warp, by_)) :
    let off := ((s.core c).kick.extractLsb' 0 19).toNat
    let u := s.bankWords c rix off 48 5 0 c 3
    ∀ q q', kickEntry rix warp by_ (u.scratchRead c rix off 48) = some q → u.prep c q (u.core c).kfaults = .ok q' →
      u.acceptable c q' = true →
      s.kickAccept c =
        (let a := u.accept c q'
         let n := ((a.core c).kick.extractLsb' 25 7).toNat
         let t := a.modCore c (fun k => { k with kick := BitVec.ofNat 32 ((n - 1) * 2 ^ 25 + (off + 48)) })
         if n = 1 then t.kickDone c else t) := by
  intro off u q q' hq hp ha
  simp only [off, u] at hq hp ha ⊢
  simp only [State.kickAccept, hk, hq, hp, ha, if_true]

theorem State.landStep_moving {slot : Nat} {q : CReq} {p : CPart} (h : s.landable c = some (slot, q, p)) (hp : p.stage = .moving) :
    s.landStep c =
      (let x := s.localOf c q
       let t := p.elems.foldl (fun s e => s.localPut c x e) s
       (match x, localSpan q.shape.swz p.elems with
          | .scr tc r off _, some sp => t.recheck tc r (off + sp.1) (sp.2 - sp.1)
          | _, _ => t).partLanded c slot q p) := by
  simp only [State.landStep, h, hp] <;> rfl

theorem State.landStep_adds_sent {slot d : Nat} {q : CReq} {p : CPart} (h : s.landable c = some (slot, q, p))
    (hp : p.stage = .store d) (hq : q.op = .scatterAdd) :
    s.landStep c = (p.writes.foldl (fun s x => s.sendAdd c slot q p x) s).putReq c slot
      { q with parts := q.parts.map (fun y => if y.id = p.id then
        { y with stage := .adds ((p.writes.filter (fun x => isModule x.2.1)).length) } else y) } := by
  simp only [State.landStep, h, hp, hq, beq_self_eq_true, if_true]

theorem State.landStep_store {slot d : Nat} {q : CReq} {p : CPart} (h : s.landable c = some (slot, q, p))
    (hp : p.stage = .store d) (hq : q.op ≠ .scatterAdd) :
    s.landStep c = (p.writes.foldl (fun s x => s.globalPut c x.2 x.1) s).partLanded c slot q p := by
  simp only [State.landStep, h, hp, beq_eq_false_iff_ne.mpr hq, Bool.false_eq_true, if_false]

theorem State.landStep_adds {slot n : Nat} {q : CReq} {p : CPart} (h : s.landable c = some (slot, q, p)) (hp : p.stage = .adds n) :
    s.landStep c = s.partLanded c slot q p := by
  simp only [State.landStep, h, hp]

/-- The part whose data is back holds what memory holds, or padding out of bounds. -/
theorem State.returnStep_find {slot : Nat} {q : CReq} {p : CPart} (h : s.returned c = some (slot, q, p)) :
    ((s.returnStep c).core c).copy.find? slot = some { q with parts := q.parts.map (fun y => if y.id = p.id then
      { y with
        elems := (p.elems.zip p.pas).map (fun x =>
          { x.1 with val := if x.1.inb then s.globalGet c x.2 x.1 else q.shape.padding })
        stage := .ready } else y) } := by
  have hv : ∀ x : Elem × Nat × Nat, (if (!x.1.inb) = true then q.shape.padding
      else if (fun _ => false) x.2 = true then 2 ^ x.1.bits - 1 else s.globalGet c x.2 x.1) =
        if x.1.inb = true then s.globalGet c x.2 x.1 else q.shape.padding := by
    intro x
    cases x.1.inb <;> rfl
  simp only [State.returnStep, h, State.partBack, State.copySources_copy, State.putReq_find, hv]

end

/-! ## The matrix engine -/

/-- What ends an occupancy besides what its job writes: the engine is free, and fillers may follow. -/
theorem State.mxEnd_core {s : State} {c : Nat} {r : MxRun} (h : (s.core c).mx.cur = some r) :
    (∃ n, ((s.mxEnd c).core c).mx = { ((s.mxWrite c r).core c).mx with cur := none, filler := n }) ∧
      ((s.mxEnd c).core c).blocks = ((s.mxWrite c r).core c).blocks ∧
      ((s.mxEnd c).core c).mar = ((s.mxWrite c r).core c).mar := by
  have hl : (((s.mxWrite c r).mxLanded c r).core c).mx = ((s.mxWrite c r).core c).mx ∧
      (((s.mxWrite c r).mxLanded c r).core c).blocks = ((s.mxWrite c r).core c).blocks ∧
      (((s.mxWrite c r).mxLanded c r).core c).mar = ((s.mxWrite c r).core c).mar := by
    unfold State.mxLanded
    split
    · split <;> simp
    · simp
  obtain ⟨hmx, hbl, hmar⟩ := hl
  simp only [State.mxEnd, h]
  split
  · exact ⟨⟨16, by simp [State.modMx, hmx]⟩, by simp [State.modMx, hbl], by simp [State.modMx, hmar]⟩
  · exact ⟨⟨_, by simp [State.modMx, hmx]; rfl⟩, by simp [State.modMx, hbl], by simp [State.modMx, hmar]⟩

/-! ## An instruction that waited for the matrix engine -/

theorem F2.word_guard (u : BitVec 3) (o : BitVec 6) (f : F2) : guardOf (f.word u o) = f.g :=
  (congrArg F2.g (F2.word_fields u o f).2.2.2 :)

theorem FI.word_guard (u : BitVec 3) (o : BitVec 6) (f : FI) : guardOf (f.word u o) = f.g :=
  (congrArg FI.g (FI.word_fields u o f).2.2.2 :)

/-- What an event runs of an instruction is what the instruction does. -/
theorem runInstr_next {i : Instr} {s t : State} {g : Guard} (hb : ∀ h l, i ≠ .bundle h l) (hg : instrGuard i = g)
    (hi : exec i s = issue (costOf i) g (slotBody i) s) (h : exec i s = .next t) : runInstr i s = t := by
  unfold runInstr
  split
  · exact absurd rfl (hb _ _)
  · rw [hg, ← hi, h]

end Sys2Proof.Machine
end

section
/-! SUPPORT. The events of the copy, matrix and marbling engines, clause by clause (model: EventsCopy, EventsEngine). -/
namespace Sys2Proof.Machine

/-- The running request is the one that the engine's run names. -/
theorem Core.running_run {k : Core} {r : MRun} {q : MReq} (h : k.running = some (r, q)) : k.mar.run = some r := by
  unfold Core.running at h
  split at h
  · rename_i r' hr
    cases hq : k.mar.slots.find? r'.slot with
    | none => rw [hq] at h; cases h
    | some q' => rw [hq] at h; cases h; exact hr
  · cases h

theorem State.marbleRuns_run {s : State} {c : Nat} {r : MRun} {q : MReq} {p : MRun → MReq → List W32 → Bool}
    (hg : s.enginesGo c = true) (h : (s.core c).running = some (r, q)) (hs : r.stage = .run)
    (hp : p r q (s.core c).mar.elems = true) : s.marbleRuns c p = true := by
  simp only [State.marbleRuns, hg, h, hs, hp, beq_self_eq_true, Bool.and_self]

/-- Settles O45: the laws of the events say when each is due; each effect is its step where what the step reads is known. -/
theorem engineEventsTakeEffect : Obligations.EngineEventsTakeEffect := by
  intro s c
  refine ⟨?_, ?_, ?_, ?_, ?_, ?_, ?_, ?_, ?_⟩
  · simp only [List.forall_mem_cons]
    exact ⟨event_due (exec_copyAccept c s), event_due (exec_kickEntryAccept c s), event_due (exec_copyLineMove c s),
      event_due (exec_copyGlobalReturn c s), event_due (exec_copyBytesLand c s), event_due (exec_requestError c s),
      event_due (exec_pfl2LineDone c s), event_due (exec_pageWaitResume c s), event_due (exec_mxStart c s),
      event_due (exec_mxOccupancyEnd c s), event_due (exec_mmsgRecordRead c s), event_due (exec_accallocGrant c s),
      event_due (exec_accfreeRelease c s), event_due (exec_accDeadlock c s), event_due (exec_mxResetEnd c s),
      event_due (exec_bankTransfer c s), event_due (exec_marbleAccept c s), event_due (exec_marbleStart c s),
      event_due (exec_marbleComplete c s), event_due (exec_candidateComplete c s), event_due (exec_scanDeadline c s),
      List.forall_mem_nil _⟩
  · intro hg
    refine ⟨?_, ?_, ?_, ?_, ?_, ?_⟩
    · intro q l hq hr ha
      have hn := State.acceptNext_head hq hr ha
      exact exec_due (exec_copyAccept c s) (by simp [State.acceptDue, hg, hn]) (by simp only [State.acceptStep, hn])
    · intro slot q hn
      exact exec_due (exec_pfl2LineDone c s) (by simp [State.pflDue, hg, hn]) (by simp only [State.pflStep, hn])
    · intro q l hq hf
      have hn := Core.marbleNext_head hq hf
      exact exec_due (exec_marbleAccept c s) (by simp [State.marbleAcceptDue, hg, hn])
        (by simp only [State.marbleAcceptStep, hn])
    · intro slot q hn
      exact exec_due (exec_marbleStart c s) (by simp [State.marbleStartDue, hg, hn]) (by simp only [State.marbleStart, hn])
    · intro slot q hn hr hk
      exact exec_due (exec_marbleStart c s) (by simp [State.marbleStartDue, hg, hr, hk])
        (by simp only [State.marbleStart, hn, hr])
    · intro r q hrun hs
      refine ⟨?_, ?_, ?_⟩
      · intro seed0 count b hd hc
        exact exec_due (exec_candidateComplete c s) (State.marbleRuns_run hg hrun hs hc)
          (by simp only [State.candidateStep, hrun, hd])
      · intro hd hc
        refine ⟨_, (event_due (exec_scanDeadline c s)).1 (State.marbleRuns_run hg hrun hs (by simp [hd, hc])), ?_⟩
        simp [State.deadlineStep, State.modRun, Core.running_run hrun]
      · intro hc
        refine exec_due (exec_marbleComplete c s) ?_ ?_
        · simp [State.marbleEndDue, State.marbleRuns_run hg hrun hs hc]
        · simp [State.marbleComplete, hrun, hs]
  · exact fun hd => ⟨_, (event_due (exec_copyLineMove c s)).1 hd, by simp [State.moveStep]⟩
  · intro hd
    have hnext {u : State} (h : s.moveStep c = u.thenFetch c) : exec (.copyLineMove c) s = .next (u.thenFetch c) :=
      exec_due (exec_copyLineMove c s) hd h
    dsimp only
    refine ⟨fun h => ?_, fun slot q h => ?_, fun slot q p h => ?_, fun slot q h => ⟨fun r p hf hp => ?_, fun r hf hp => ?_⟩⟩
    · rw [hnext (State.moveStep_none h)]
      unfold State.thenFetch
      cases s.fetchNext c <;> rfl
    · rw [hnext (State.moveStep_some h)]
      unfold State.thenFetch State.makeMove
      generalize State.fetchNext _ c = o
      cases o <;> rfl
    · rw [hnext (State.moveStep_some h)]
      unfold State.thenFetch State.makeMove
      generalize State.fetchNext _ c = o
      cases o <;> rfl
    · rw [hnext (State.moveStep_some h), State.makeMove_out hf hp]
      unfold State.thenFetch
      generalize State.fetchNext _ c = o
      cases o <;> rfl
    · rw [hnext (State.moveStep_some h), State.makeMove_out_none hf hp]
      unfold State.thenFetch
      generalize State.fetchNext _ c = o
      cases o <;> rfl
  · intro rix warp by_ hd hk
    refine ⟨fun h => ⟨?_, ?_⟩, fun q q' hq hp ha => ?_⟩
    · exact exec_due (exec_kickEntryAccept c s) hd (State.kickAccept_bad hk h)
    · simp [State.kickDone]
    · exact exec_due (exec_kickEntryAccept c s) hd (State.kickAccept_good hk q q' hq hp ha)
  · intro hg
    refine ⟨?_, ?_, ?_, ?_, ?_, ?_, ?_⟩
    · intro slot q p h
      refine ⟨_, (event_due (exec_copyGlobalReturn c s)).1 (by simp [State.returnDue, hg, h]), ?_, State.returnStep_find h⟩
      simp [State.returnStep, h, State.partBack]
    · exact fun slot q p h hp => exec_due (exec_copyBytesLand c s) (by simp [State.landDue, hg, h]) (State.landStep_moving h hp)
    · exact fun slot q p d h hp hq => exec_due (exec_copyBytesLand c s) (by simp [State.landDue, hg, h])
        (State.landStep_adds_sent h hp hq)
    · exact fun slot q p d h hp hq => exec_due (exec_copyBytesLand c s) (by simp [State.landDue, hg, h])
        (State.landStep_store h hp hq)
    · exact fun slot q p n h hp => exec_due (exec_copyBytesLand c s) (by simp [State.landDue, hg, h]) (State.landStep_adds h hp)
    · exact fun slot q cause va h he => exec_due (exec_requestError c s) (by simp [State.errorDue, hg, h])
        (by simp only [State.errorStep, h, State.copyError, he])
    · intro slot q h
      refine ⟨_, (event_due (exec_pageWaitResume c s)).1 (by simp [State.pageDue, hg, h]), ?_⟩
      simp only [State.pageStep, h, State.putReq_find]
  · exact fun x hd hx hs => exec_due (exec_mxStart c s) hd (by simp only [State.mxStart, hx, hs, if_true])
  · intro x f g hd hx hs i hi hxi u t ht
    have hrun : runInstr i u = t := by
      simp only [List.mem_cons, List.not_mem_nil, or_false] at hi
      rcases hi with rfl | rfl | rfl | rfl | rfl | rfl | rfl | rfl | rfl
      · exact runInstr_next nofun (F2.word_guard _ _ f) (exec_mms f _) ht
      · exact runInstr_next nofun (F2.word_guard _ _ f) (exec_mmsz f _) ht
      · exact runInstr_next nofun (F2.word_guard _ _ f) (exec_mmsg f _) ht
      · exact runInstr_next nofun (F2.word_guard _ _ f) (exec_accrd f _) ht
      · exact runInstr_next nofun (F2.word_guard _ _ f) (exec_accwr f _) ht
      · exact runInstr_next nofun (F2.word_guard _ _ f) (exec_accclr f _) ht
      · exact runInstr_next nofun (F2.word_guard _ _ f) (exec_accadd f _) ht
      · exact runInstr_next nofun (F2.word_guard _ _ f) (exec_fmtset f _) ht
      · exact runInstr_next nofun (FI.word_guard _ _ g) (exec_fmtsetI g _) ht
    subst hrun
    exact exec_due (exec_mxStart c s) hd (by simp only [State.mxStart, hx, hs, Bool.false_eq_true, if_false, hxi] <;> rfl)
  · intro hb
    refine ⟨?_, ?_, ?_, ?_, ?_, ?_, ?_, ?_⟩
    · intro r hr hl
      obtain ⟨⟨n, hmx⟩, hbl, hmar⟩ := State.mxEnd_core hr
      refine ⟨_, (event_due (exec_mxOccupancyEnd c s)).1 (by simp [State.occupancyDue, hb, hr, hl]), ?_, ?_, ?_, ?_, ?_, ?_, ?_⟩
      · rw [hmx]
      · intro zero bank ent v a b sa sb hj
        refine ⟨?_, fun k hk => ?_⟩
        · rw [hmx]; simp [State.mxWrite, hj, State.advanceCur, State.modMx, Mx.putBank]
        · rw [hbl]; simp [State.mxWrite, hj, State.advanceCur, State.modMx, hk]
      · intro bank g vals hj
        rw [hmx]; simp [State.mxWrite, hj, State.modMx, Mx.putBank]
      · intro bank hj
        rw [hmx]; simp [State.mxWrite, hj, State.modMx]
      · intro d a hj
        rw [hmx]; simp only [State.mxWrite, hj, State.modMx, State.modCore_core, Mx.putBank, Nat.add_zero]
      · intro ent v k hj hk
        rw [hbl]; simp [State.mxWrite, hj, hk]
      · intro slot bank hj
        refine ⟨?_, fun q hq => ?_⟩
        · rw [hmar]; simp [State.mxWrite, hj]
        · rw [hmar]
          simp only [State.mxWrite, hj, State.modCore_core]
          rw [KMap.find?_mapIf slot (fun q : MReq => { q with filled := true }), hq]
          rfl
    · intro r hh hs
      exact exec_due (exec_mmsgRecordRead c s) (by simp [State.recordDue, hb, hs]) (by simp only [State.recordStep, hh, hs])
    · intro r hh hs hn
      exact exec_due (exec_mmsgRecordRead c s) (by simp [State.recordDue, hb, hn]) (by simp only [State.recordStep, hh, hs, hn])
    · intro x hr hn
      exact exec_due (exec_accallocGrant c s) (by simp [State.allocDue, hb, hr, hn]) (by simp only [State.allocGrant, hn])
    · intro x hn
      exact exec_due (exec_accfreeRelease c s) (by simp [State.freeDue, hb, hn]) (by simp only [State.freeRelease, hn])
    · intro r hd hn
      exact exec_due (exec_accDeadlock c s) (by simp [State.deadlockDue, hb, hd, hn]) (by simp only [State.deadlock, hn])
    · intro hr
      refine ⟨_, (event_due (exec_mxResetEnd c s)).1 (by simp [State.resetOver, hb, hr]), ?_, ?_⟩
      · change ((s.modMx c (fun m => { m with reset := 0 })).core c).mx.reset = 0
        simp [State.modMx]
      · simp [State.resetEnd]
    · intro x q b hn hblk
      refine ⟨_, (event_due (exec_bankTransfer c s)).1 (by simp [State.transferDue, hb, hn]), ?_, ?_⟩
      · simp [State.transferStart, hn, hblk, State.mxBegin, State.modMx]
      · simp [State.transferStart, hn, hblk, State.mxBegin, State.modMx]

end Sys2Proof.Machine
end

section
/-! SUPPORT. The events of memory, translation and launch (model: EventsMem, EventsXlate, Launch, EventsRun). -/
namespace Sys2Proof.Machine

/-! ## Atomics at a slice -/

/-- What a slice notes of an atomic leaves every core, the time, and what the module answers. -/
def State.Noted (s t : State) : Prop := t.cores = s.cores ∧ t.time = s.time ∧ t.answer = s.answer

theorem State.Noted.refl (s : State) : s.Noted s := ⟨rfl, rfl, rfl⟩

theorem State.Noted.trans {s t u : State} (h : s.Noted t) (k : t.Noted u) : s.Noted u :=
  ⟨k.1.trans h.1, k.2.1.trans h.2.1, k.2.2.trans h.2.2⟩

theorem State.Noted.core {s t : State} (h : s.Noted t) (c : Nat) : t.core c = s.core c := by
  unfold State.core
  rw [h.1, h.2.1]

theorem State.modSlice_noted (s : State) (sl : Nat) (f : Slice → Slice) : s.Noted (s.modSlice sl f) := ⟨rfl, rfl, rfl⟩

theorem State.traceLossless_noted (s : State) (cls sub src : Nat) (l : List W64) : s.Noted (s.traceLossless cls sub src l) := by
  unfold State.traceLossless
  dsimp only
  split <;> exact ⟨rfl, rfl, rfl⟩

theorem State.rlogSend_noted (sl : Nat) : ∀ (n : Nat) (l : List Chunk) (s : State), s.Noted (s.rlogSend sl n l)
  | 0, _, s => .refl s
  | n + 1, l, s => by
    unfold State.rlogSend
    split
    · exact .refl s
    · exact (s.traceLossless_noted 3 0 (srcOfSlice sl) _).trans (State.rlogSend_noted sl n _ _)

theorem State.rlogFlush_noted (s : State) (sl : Nat) : s.Noted (s.rlogFlush sl) :=
  (State.rlogSend_noted sl _ _ s).trans (State.modSlice_noted _ sl _)

theorem State.chunkClose_noted (s : State) (sl : Nat) : s.Noted (s.chunkClose sl) := by
  unfold State.chunkClose
  split
  · exact .refl s
  · dsimp only
    split
    · exact (s.modSlice_noted sl _).trans (State.rlogFlush_noted _ sl)
    · exact s.modSlice_noted sl _

theorem State.logAtomic_noted (s : State) (sl core warp : Nat) (eng : Bool) : s.Noted (s.logAtomic sl core warp eng) := by
  unfold State.logAtomic
  dsimp only
  split
  · split
    · exact s.modSlice_noted sl _
    · exact (s.chunkClose_noted sl).trans (State.modSlice_noted _ sl _)
  · exact s.modSlice_noted sl _

theorem State.gateMark_noted (s : State) (sl : Nat) : s.Noted (s.gateMark sl) := by
  unfold State.gateMark
  split
  · exact s.modSlice_noted sl _
  · exact .refl s

theorem State.gateUse_noted (s : State) (sl : Nat) : s.Noted (s.gateUse sl) := by
  unfold State.gateUse
  split
  · exact .refl s
  · dsimp only
    split
    · exact (s.modSlice_noted sl _).trans (State.gateMark_noted _ sl)
    · exact s.gateMark_noted sl

/-- After its atomic a slice notes it: memory, the cores and the answer are as the atomic leaves them. -/
theorem State.sliceStep_some {s : State} {sl : Nat} {r : SliceReq} (h : s.nextAtomic sl = some r) :
    let u := (s.modSlice sl (fun x => { x with reqs := x.reqs.erase r, next := (s.time / 10 + 1) * 10 })).sliceEffect r
    (s.sliceStep sl).mem = u.mem ∧ u.Noted (s.sliceStep sl) := by
  intro u
  simp only [State.sliceStep, h]
  split
  · exact ⟨State.logAtomic_mem .., State.logAtomic_noted ..⟩
  · exact ⟨State.gateUse_mem .., State.gateUse_noted ..⟩

/-- The memory that an atomic leaves at its slice: what it writes, if it writes. -/
theorem State.sliceEffect_mem (s : State) (r : SliceReq) : (s.sliceEffect r).mem =
    (((atomBytes r.kind r.n (s.read r.addr r.n) r.data r.cmp).2.map (s.write r.addr)).getD s).mem := by
  unfold State.sliceEffect
  dsimp only
  split
  · split
    · rw [State.addDone_mem, State.l1Drop_mem]
      cases (atomBytes r.kind r.n (s.read r.addr r.n) r.data r.cmp).2 <;> rfl
    · cases (atomBytes r.kind r.n (s.read r.addr r.n) r.data r.cmp).2 <;> rfl
  · unfold State.atomMem
    simp only [State.modWarp_mem, State.fill_mem]
    cases (atomBytes r.kind r.n (s.read r.addr r.n) r.data r.cmp).2 <;> split <;> rfl

theorem State.sliceEffect_writes {s : State} {r : SliceReq} {x : Nat}
    (h : atomNew r.kind r.n (s.readNat r.addr r.n) (wordsNat r.data) (wordsNat r.cmp) = some x) :
    (s.sliceEffect r).mem = (s.write r.addr (natBytes r.n x)).mem := by
  rw [State.sliceEffect_mem, atomBytes, ← State.readNat, h]
  rfl

theorem State.sliceEffect_reads {s : State} {r : SliceReq}
    (h : atomNew r.kind r.n (s.readNat r.addr r.n) (wordsNat r.data) (wordsNat r.cmp) = none) :
    (s.sliceEffect r).mem = s.mem := by
  rw [State.sliceEffect_mem, atomBytes, ← State.readNat, h]
  rfl

/-- What each operation of R184 leaves of an old value and an operand. -/
def atomOps (n old a : Nat) : List (Nat × Nat) :=
  [(0, (old + a) % 2 ^ (8 * n)), (1, if signedBytes n a < signedBytes n old then a else old),
    (2, if signedBytes n old < signedBytes n a then a else old),
    (3, if n = 8 then a else (BitVec.ofNat 64 old &&& BitVec.ofNat 64 a).toNat),
    (4, (BitVec.ofNat 64 old ||| BitVec.ofNat 64 a).toNat), (5, (BitVec.ofNat 64 old ^^^ BitVec.ofNat 64 a).toNat),
    (6, a), (7, atomFadd (BitVec.ofNat 32 old) (BitVec.ofNat 32 a))]

theorem atomNew_atom {n old a c : Nat} {p : Nat × Nat} (hp : p ∈ atomOps n old a) : atomNew (.atom p.1) n old a c = some p.2 := by
  simp only [atomOps, List.mem_cons, List.not_mem_nil, or_false] at hp
  rcases hp with rfl | rfl | rfl | rfl | rfl | rfl | rfl | rfl <;> simp [atomNew]

theorem atomNew_op {k : AccKind} {n old a c : Nat} {p : Nat × Nat} (hp : p ∈ atomOps n old a) (hk : k = .atom p.1 ∨ k = .red p.1) :
    atomNew k n old a c = some p.2 := by
  rcases hk with rfl | rfl
  · exact atomNew_atom hp
  · exact atomNew_atom (c := c) hp

/-- An atomic of a thread at its slice. -/
theorem State.sliceEffect_thread {s : State} {r : SliceReq} (he : r.eng = false) (hc : r.core < 576) :
    s.sliceEffect r = s.atomMem r.core r.warp r.kind r.n r.lane r.id r.addr r.ea r.data r.cmp := by
  simp only [State.sliceEffect, he, Bool.false_or, decide_eq_false (Nat.not_le.mpr hc), Bool.false_eq_true, if_false]

/-- An atomic of the host or a peer has the old value as its answer. -/
theorem State.sliceEffect_answer {s : State} {r : SliceReq} (he : r.eng = false) (hc : 576 ≤ r.core) :
    (s.sliceEffect r).answer = s.readNat r.addr r.n := by
  simp only [State.sliceEffect, he, Bool.false_or, decide_eq_true hc, if_true, Bool.false_eq_true, if_false, State.readNat]

/-- A line dropped from an L1 leaves every warp. -/
theorem State.l1Drop_warps (s : State) (c pa d : Nat) : ((s.l1Drop c pa).core d).warps = (s.core d).warps := by
  unfold State.l1Drop
  by_cases hd : d = s.l1Core c pa
  · subst hd; simp
  · rw [State.modCore_core_other _ _ _ _ hd]

/-- The warp whose atomic is performed takes the old value, and its write enters in its place. -/
theorem State.atomMem_warp {s : State} {c w : Nat} {kind : AccKind} {n lane id pa ea : Nat} {data cmp : List W32} {x : Warp}
    (hx : (s.core c).warps.find? w = some x) :
    ((s.atomMem c w kind n lane id pa ea data cmp).core c).warps.find? w =
      some ((x.modResult id (fun q => q.fill lane (wordsOfBytes (s.read pa n)))).hashDone lane id
        ((atomBytes kind n (s.read pa n) data cmp).2.map (hashBytes 0 ea))) := by
  have hm : ∀ u : State, (u.core c).warps = (s.core c).warps →
      ((if isModule pa then u.l1Drop c pa else u).core c).warps.find? w = some x := by
    intro u hu
    split
    · rw [State.l1Drop_warps, hu, hx]
    · rw [hu, hx]
  unfold State.atomMem
  dsimp only
  refine State.modWarp_find (State.modWarp_find (hm _ ?_))
  split <;> rfl

/-! ## Warps as they start -/

theorem SMap.get_map {α : Type} (d : α) (f : Nat → α) (j : Nat) : ∀ l : List Nat, j ∈ l → SMap.get d (l.map (fun t => (t, f t))) j = f j
  | t :: l, h => by
    by_cases ht : t = j
    · simp [SMap.get, ht]
    · have hj : j ∈ l := (List.mem_cons.1 h).resolve_left fun e => ht e.symm
      simp [SMap.get, ht, SMap.get_map d f j l hj]

/-- The uniform registers of a warp as it starts: its argument, and the number of blocks. -/
theorem Warp.start_w (rix ro i : Nat) (l : LRec) (r : Role) :
    SMap.get 0 (Warp.start rix ro i l r).w 0 = l.arg.extractLsb' 0 32 ∧ SMap.get 0 (Warp.start rix ro i l r).w 1 = l.arg.extractLsb' 32 32 ∧
      SMap.get 0 (Warp.start rix ro i l r).w 2 = BitVec.ofNat 32 l.nblk ∧
      ∀ k, 3 ≤ k → SMap.get 0 (Warp.start rix ro i l r).w k = 0 :=
  ⟨SMap.get_setMany_in 0 _ 0 0 rfl (by simp), SMap.get_setMany_in 0 _ 0 1 rfl (by simp),
    SMap.get_setMany_in 0 _ 0 2 rfl (by simp), fun k hk => SMap.get_setMany_other 0 _ _ 0 k (.inr (by simpa using hk))⟩

/-! ## Placement -/

/-- Warps given to a core change its warps alone, and depend on them alone. -/
theorem Core.addWarps_eq : ∀ (l : List Warp) (k : Core), ∃ ws, k.addWarps l = { k with warps := ws }
  | [], k => ⟨k.warps, rfl⟩
  | _ :: l, _ => Core.addWarps_eq l _

theorem Core.addWarps_congr : ∀ (l : List Warp) {k k' : Core}, k.warps = k'.warps → (k.addWarps l).warps = (k'.addWarps l).warps
  | [], _, _, h => h
  | w :: l, k, k', h => Core.addWarps_congr l (by simp only [h])

theorem Core.addWarps_blocks (k : Core) (l : List Warp) : (k.addWarps l).blocks = k.blocks := by
  obtain ⟨ws, h⟩ := Core.addWarps_eq l k
  rw [h]

/-- The governor's recomputation changes the governor alone. -/
theorem Core.recomputeAt_eq (k : Core) (time : Nat) : ∃ g, k.recomputeAt time = { k with gov := g } := by
  unfold Core.recomputeAt
  dsimp only
  repeat' split
  all_goals exact ⟨_, rfl⟩

theorem Core.recomputeAt_warps (k : Core) (time : Nat) : (k.recomputeAt time).warps = k.warps := by
  obtain ⟨g, h⟩ := k.recomputeAt_eq time
  rw [h]

theorem Core.recomputeAt_blocks (k : Core) (time : Nat) : (k.recomputeAt time).blocks = k.blocks := by
  obtain ⟨g, h⟩ := k.recomputeAt_eq time
  rw [h]

/-- What %domain takes at a placement leaves the warps, the blocks and the waiting lists. -/
theorem State.setMember_keeps (s : State) (c rix i b : Nat) (l : LRec) :
    ((s.setMember c rix i b l).core c).warps = (s.core c).warps ∧ ((s.setMember c rix i b l).core c).blocks = (s.core c).blocks ∧
      (s.setMember c rix i b l).waiting = s.waiting := by
  unfold State.setMember
  split
  · exact ⟨rfl, rfl, rfl⟩
  · have h (u : State) (g : KMap Grid) : ({ u with grids := g } : State).core c = u.core c := rfl
    unfold State.putMember
    exact ⟨by rw [h]; simp, by rw [h]; simp, rfl⟩

/-- The scheduler's note of faults leaves the warps, the blocks and the waiting lists. -/
theorem State.schedDone_keeps (s : State) (c : Nat) : ((s.schedDone).core c).warps = (s.core c).warps ∧
    ((s.schedDone).core c).blocks = (s.core c).blocks ∧ s.schedDone.waiting = s.waiting := by
  unfold State.schedDone
  by_cases hc : c = schedCore
  · subst hc; exact ⟨by simp, by simp, rfl⟩
  · rw [State.modCore_core_other _ _ _ _ hc]; exact ⟨rfl, rfl, rfl⟩

/-- A block placed with its folios: it is resident with the warps of its record, and has left its waiting list. -/
theorem State.placeNew_ok (s : State) (c i : Nat) (g : Grid) (b : Nat) (m : KMap Folio) :
    (s.placeNew c i g b (.ok m)).waitList c = (s.waitList c).tail ∧
      ((s.placeNew c i g b (.ok m)).core c).blocks.find? (freeKey (s.core c).blocks 8) =
        some (Block.place i g b (s.core c).placed m) ∧
      ((s.placeNew c i g b (.ok m)).core c).warps =
        ((s.core c).addWarps (startWarps (freeKey (s.core c).blocks 8) g.lr 0 0 g.lr.roles)).warps := by
  simp only [State.placeNew]
  generalize hu : ((s.leaveWait c).modCore c _).progress c = u
  have huw : (u.core c).warps = (s.core c).warps := by subst hu; rw [State.progress]; simp; rfl
  have hub : (u.core c).blocks = (s.core c).blocks.put (freeKey (s.core c).blocks 8) (Block.place i g b (s.core c).placed m) := by
    subst hu; rw [State.progress]; simp; rfl
  have huq : u.waiting = s.waiting.put c (s.waitList c).tail := by subst hu; rfl
  obtain ⟨hw, hb, hq⟩ := u.setMember_keeps c (freeKey (s.core c).blocks 8) i b g.lr
  refine ⟨?_, ?_, ?_⟩
  · have : ∀ (v : State) (f : Core → Core), (v.modCore c f).waiting = v.waiting := fun _ _ => rfl
    simp only [State.waitList, this, hq, huq, KMap.find?_put_same, Option.getD_some]
  · rw [State.modCore_core, Core.recomputeAt_blocks, Core.addWarps_blocks, hb, hub, KMap.find?_put_same]
  · rw [State.modCore_core, Core.recomputeAt_warps]
    exact Core.addWarps_congr _ (hw.trans huw)

theorem State.placeFirst_ok {s : State} {c : Nat} {x : Waiting} {l : List Waiting} {g : Grid} {m : KMap Folio}
    (hl : s.waitList c = x :: l) (hs : x.saved = none) (hg : s.grids.find? x.grid = some g) (hf : g.lr.fuse = false)
    (hm : s.loadImages g.pasid ((g.images.zipIdx).map (fun p => (p.2, p.1))) [] = .ok m) :
    s.placeFirst c = (s.placeNew c x.grid g x.bno (.ok m)).schedDone := by
  simp only [State.placeFirst, hl, hs, hg, State.placeGrid, hm, State.placeFused, hf, Bool.false_and, Bool.false_eq_true, if_false]
  rfl

end Sys2Proof.Machine
end

section
/-! SUPPORT. Walks that end, blocks that end, and the events of the module (model: EventsMem, EventsXlate, Launch, EventsRun). -/
namespace Sys2Proof.Machine

/-! ## Walks -/

/-- A walk that finds a page of the module: it is noted as swept, its path is cached, and it is served. -/
theorem State.walkTake_found {s : State} {c : Nat} {w : Walk} {f : Found} (ht : (s.core c).tlbHit w.pasid w.va w.write = none)
    (hq : s.qtlbHit (quireOf c) w.pasid w.va w.write = none) (hf : s.walkTables (quireOf c) w.pasid w.va = .ok f)
    (hh : f.leaf.extractLsb' 6 2 ≠ 1) :
    ∃ l, s.walkTake c w = ({ s.tickNonce.walkSet c w (w.swept (f.tlb w.pasid w.va)) with wcache := l }).walkServe c
      (w.swept (f.tlb w.pasid w.va)) (f.tlb w.pasid w.va) true := by
  simp only [State.walkTake, ht, hq, hf, beq_eq_false_iff_ne.mpr hh, Bool.false_eq_true, if_false]
  split
  · exact ⟨_, rfl⟩
  · exact ⟨_, rfl⟩

theorem State.walkTake_fault {s : State} {c : Nat} {w : Walk} {r : Nat} (ht : (s.core c).tlbHit w.pasid w.va w.write = none)
    (hq : s.qtlbHit (quireOf c) w.pasid w.va w.write = none) (hf : s.walkTables (quireOf c) w.pasid w.va = .error r) :
    s.walkTake c w = s.tickNonce.walkFail c w r := by
  simp only [State.walkTake, ht, hq, hf]

theorem mem_tlbInsert (n nonce : Nat) (l : List Tlb) (t : Tlb) : t ∈ tlbInsert n nonce l t := by
  unfold tlbInsert
  dsimp only
  split <;> exact List.mem_cons_self

/-- A walk that nobody waits for any more leaves the list, and its translation is cached unless a sweep has covered it. -/
theorem State.walkServe_alone (s : State) (c : Nat) (w : Walk) (t : Tlb) (hw : w.who = []) :
    ((s.walkServe c w t true).core c).walks = (s.core c).walks.erase w ∧
      (w.nocache = false → t ∈ ((s.walkServe c w t true).core c).tlb) := by
  have hq (u : State) (q : Nat) : (u.cacheQuire q t).tickNonce.core c = u.core c := rfl
  unfold State.walkServe
  simp only [hw, List.foldl_nil, if_true]
  cases w.nocache with
  | true => exact ⟨by simp [State.walkGone], nofun⟩
  | false =>
    simp only [Bool.false_eq_true, if_false, hq, State.tickNonce_core]
    exact ⟨by simp [State.cacheCore, State.walkGone], fun _ => by simp [State.cacheCore, mem_tlbInsert]⟩

/-- One entry of a list replaced and then removed: one fewer is left. -/
theorem List.length_erase_map_replace {α : Type} [DecidableEq α] {l : List α} {a b : α} (h : a ∈ l) :
    ((l.map (fun y => if y = a then b else y)).erase b).length + 1 = l.length := by
  have hb : b ∈ l.map (fun y => if y = a then b else y) := List.mem_map.2 ⟨a, h, if_pos rfl⟩
  rw [List.length_erase_of_mem hb, List.length_map]
  have := List.length_pos_of_mem h
  omega

theorem State.walkTake_found_alone {s : State} {c : Nat} {w : Walk} {f : Found} (hm : w ∈ (s.core c).walks)
    (ht : (s.core c).tlbHit w.pasid w.va w.write = none) (hq : s.qtlbHit (quireOf c) w.pasid w.va w.write = none)
    (hf : s.walkTables (quireOf c) w.pasid w.va = .ok f) (hh : f.leaf.extractLsb' 6 2 ≠ 1) (hw : w.who = []) :
    ((s.walkTake c w).core c).walks.length + 1 = (s.core c).walks.length ∧
      ((w.swept (f.tlb w.pasid w.va)).nocache = false → f.tlb w.pasid w.va ∈ ((s.walkTake c w).core c).tlb) := by
  obtain ⟨l, hl⟩ := State.walkTake_found ht hq hf hh
  rw [hl]
  obtain ⟨hwalks, htlb⟩ := State.walkServe_alone { s.tickNonce.walkSet c w (w.swept (f.tlb w.pasid w.va)) with wcache := l } c
    (w.swept (f.tlb w.pasid w.va)) (f.tlb w.pasid w.va) hw
  refine ⟨?_, htlb⟩
  have hset : (({ s.tickNonce.walkSet c w (w.swept (f.tlb w.pasid w.va)) with wcache := l } : State).core c).walks =
      (s.core c).walks.map (fun y => if y = w then w.swept (f.tlb w.pasid w.va) else y) := by
    change ((s.tickNonce.walkSet c w (w.swept (f.tlb w.pasid w.va))).core c).walks = _
    simp [State.walkSet]
  rw [hwalks, hset]
  exact List.length_erase_map_replace hm

/-- A walk that fails for one path tells it the fault. -/
theorem State.walkFail_path {s : State} {c n r : Nat} {w : Walk} {alt : Bool} {y : Warp} (hw : w.who = [.path n alt])
    (hy : (s.core c).warps.find? n = some y) :
    ((s.tickNonce.walkFail c w r).core c).warps.find? n =
      some (y.modPath alt (fun p => { p with faults := p.faults ++ [(page4K w.va, r)] })) := by
  simp only [State.walkFail, hw, List.foldl_cons, List.foldl_nil]
  exact State.modWarp_find (by simpa [State.walkGone] using hy)

/-! ## Blocks that end -/

theorem KMap.find?_del {α : Type} (k : Nat) : ∀ m : KMap α, (m.del k).find? k = none
  | [] => rfl
  | (j, x) :: m => by
    by_cases hj : j = k
    · simpa [KMap.del, hj] using KMap.find?_del k m
    · simpa [KMap.del, hj, KMap.find?] using KMap.find?_del k m

/-- The block leaves its core as it ends. -/
def State.blockOut (s : State) (c rix : Nat) : State :=
  let t := ((s.modCore c (·.endHashes rix)).dropBlock c rix).progress c
  (if s.fused c && !t.fused c then t.l1Clear c else t).resetsOver c

/-- The grid counts a block that ended. -/
def State.countEnded (s : State) (b : Block) (g : Grid) : State :=
  { s with grids := s.grids.put b.grid (match s.grids.find? b.grid with | some g => g.ended b | none => g) }

section
variable {s : State} {c rix : Nat} {b : Block} {g : Grid} (hb : (s.core c).blocks.find? rix = some b)
  (hg : s.grids.find? b.grid = some g)
include hb hg

theorem State.endBlock_plain (hs : b.lr.bstat = false) : s.endBlock c rix = (s.blockOut c rix).countEnded b g := by
  simp only [State.endBlock, hb, hg, hs, Bool.false_eq_true, if_false] <;> rfl

theorem State.endBlock_status (hs : b.lr.bstat = true) {ps : List (Nat × Nat × Tlb)}
    (hp : s.schedPlan g.pasid (b.lr.compl + 64 + 4 * b.bno) 4 true = .ok ps) :
    s.endBlock c rix = (((s.writePieces ps (wBytes b.status)).schedDone).blockOut c rix).countEnded b g := by
  have hl : (wBytes b.status).length = 4 := natBytes_length 4 _
  simp only [State.endBlock, hb, hg, hs, if_true, State.schedPut, hl, hp] <;> rfl

end

theorem State.l1Clear_keeps (s : State) (c d : Nat) :
    ((s.l1Clear c).core d).blocks = (s.core d).blocks ∧ (s.l1Clear c).grids = s.grids := by
  unfold State.l1Clear
  generalize List.range 8 = l
  induction l generalizing s with
  | nil => exact ⟨rfl, rfl⟩
  | cons i l ih =>
    obtain ⟨hb, hg⟩ := ih (s.modCore (8 * gatheringOf c + i) (fun k => { k with l1 := [] }))
    refine ⟨hb.trans ?_, hg⟩
    by_cases hd : d = 8 * gatheringOf c + i
    · subst hd; simp
    · rw [State.modCore_core_other _ _ _ _ hd]

theorem State.resetsOver_keeps (s : State) (c d : Nat) : (s.resetsOver c).core d = s.core d ∧ (s.resetsOver c).grids = s.grids := by
  unfold State.resetsOver
  split <;> exact ⟨rfl, rfl⟩

theorem State.dropBlock_keeps (s : State) (c rix : Nat) :
    ((s.dropBlock c rix).core c).blocks = (s.core c).blocks.del rix ∧ (s.dropBlock c rix).grids = s.grids := by
  refine ⟨?_, rfl⟩
  change ((s.modCore c (fun k => (k.dropBlock rix).recomputeAt s.time)).core c).blocks = _
  rw [State.modCore_core, Core.recomputeAt_blocks]
  rfl

/-- A block that has left its core is not found there; grids and memory are as they were. -/
theorem State.blockOut_keeps (s : State) (c rix : Nat) : ((s.blockOut c rix).core c).blocks.find? rix = none ∧
    (s.blockOut c rix).grids = s.grids ∧ (s.blockOut c rix).mem = s.mem := by
  unfold State.blockOut
  dsimp only
  generalize ht : ((s.modCore c (·.endHashes rix)).dropBlock c rix).progress c = t
  obtain ⟨hdb, hdg⟩ := (s.modCore c (·.endHashes rix)).dropBlock_keeps c rix
  have htb : (t.core c).blocks.find? rix = none := by
    subst ht
    rw [State.progress, State.modClock_core]
    exact (congrArg (·.find? rix) hdb).trans (KMap.find?_del rix _)
  have htg : t.grids = s.grids := by subst ht; exact hdg
  have htm : t.mem = s.mem := by subst ht; simp
  rw [(State.resetsOver_keeps _ c c).1, (State.resetsOver_keeps _ c c).2, State.resetsOver_mem]
  split
  · obtain ⟨hb, hg⟩ := t.l1Clear_keeps c c
    exact ⟨by rw [hb, htb], by rw [hg, htg], by simp [htm]⟩
  · exact ⟨htb, htg, htm⟩

/-- What the end of a block leaves, from a state with the same grids. -/
theorem State.countEnded_keeps {s u : State} {c rix : Nat} {b : Block} {g : Grid} (hu : u.grids = s.grids)
    (hg : s.grids.find? b.grid = some g) :
    ((((u.blockOut c rix).countEnded b g).core c).blocks.find? rix = none) ∧
      ((u.blockOut c rix).countEnded b g).grids.find? b.grid = some (g.ended b) ∧
      ((u.blockOut c rix).countEnded b g).mem = u.mem := by
  obtain ⟨hb, hgr, hm⟩ := u.blockOut_keeps c rix
  have hcore : ((u.blockOut c rix).countEnded b g).core c = (u.blockOut c rix).core c := rfl
  refine ⟨by rw [hcore, hb], ?_, hm⟩
  simp only [State.countEnded, hgr, hu, hg, KMap.find?_put_same]

theorem State.writePieces_grids : ∀ (l : List (Nat × Nat × Tlb)) (s : State) (b : List Byte), (s.writePieces l b).grids = s.grids
  | [], _, _ => rfl
  | _ :: l, _, _ => State.writePieces_grids l _ _

/-! ## The write buffer -/

theorem State.drain_store {s : State} {c : Nat} {x : WbEntry} {l : List WbEntry} {b : List Byte} (hw : (s.core c).wb = x :: l)
    (hk : x.kind = .store b) : (s.drain c).mem = (s.write x.addr b).mem := by
  simp only [State.drain, hw, State.deliver, hk]
  rfl

/-- Settles O46: the laws of the events say when each is due; each effect is what its step leaves of what it names. -/
theorem moduleEventsTakeEffect : Obligations.ModuleEventsTakeEffect := by
  intro s c sl q stk
  refine ⟨?_, ?_, ?_, ?_, ?_, ?_, ?_, ?_, ?_⟩
  · simp only [List.forall_mem_cons]
    exact ⟨event_due (exec_writeBufferDrain c s), event_due (exec_promotionRequest c s), event_due (exec_sliceAtomic sl s),
      event_due (exec_remoteScratchAccess c s), event_due (exec_recordAdmit s), event_due (exec_blockPlace c s),
      event_due (exec_blockEnd c s), event_due (exec_gridComplete s), event_due (exec_preempt c s),
      event_due (exec_preemptHaltDone c s), event_due (exec_walk c s), event_due (exec_atsTimeout c s),
      event_due (exec_pageRequestTimeout c s), event_due (exec_invalidationComplete s), event_due (exec_settleComplete c s),
      event_due (exec_governedStall c s), event_due (exec_slewStep s), event_due (exec_slewGrant c s),
      event_due (exec_fillerEnd c s), event_due (exec_hangTimeout c s), event_due (exec_mxhangTimeout c s),
      event_due (exec_preciseStop c s), event_due (exec_sample c s), event_due (exec_dropCountEmit s),
      event_due (exec_losslessRoom s), event_due (exec_timeSync s), event_due (exec_rlogPartialFlush sl s),
      event_due (exec_gateTimeout sl s), event_due (exec_shashRetire c s), event_due (exec_pressEdge s),
      event_due (exec_pressReleaseEdge s), event_due (exec_attestDone s), event_due (exec_qsubRecordWritten q s),
      List.forall_mem_nil _⟩
  · exact fun x b l hw hk => State.drain_store hw hk
  · intro r hd hr old a n
    obtain ⟨hmem, hnoted⟩ := State.sliceStep_some hr
    refine ⟨_, (event_due (exec_sliceAtomic sl s)).1 hd, fun p hp hk => ?_, fun hk => ?_, fun x he hc hx => ?_, fun he hc => ?_⟩
    · exact hmem.trans (State.sliceEffect_writes (atomNew_op hp hk))
    · have hnew : atomNew r.kind n old a (wordsNat r.cmp) = if old = a then some (wordsNat r.cmp) else none := by rw [hk]; rfl
      split
      · next h => exact hmem.trans (State.sliceEffect_writes (hnew.trans (if_pos h)))
      · next h => exact hmem.trans (State.sliceEffect_reads (hnew.trans (if_neg h)))
    · rw [hnoted.core, State.sliceEffect_thread he hc]
      exact State.atomMem_warp hx
    · exact hnoted.2.2.trans (State.sliceEffect_answer he hc)
  · intro x l g m hd hl hs hg hf hm rix
    obtain ⟨hq, hb, hw⟩ := s.placeNew_ok c x.grid g x.bno m
    obtain ⟨hdw, hdb, hdq⟩ := (s.placeNew c x.grid g x.bno (.ok m)).schedDone_keeps c
    refine ⟨_, exec_due (exec_blockPlace c s) hd (State.placeFirst_ok hl hs hg hf hm), ?_, ?_, ?_⟩
    · rw [hl, List.tail_cons] at hq
      simpa only [State.waitList, hdq] using hq
    · rw [hdb]; exact hb
    · rw [hdw]; exact hw
  · intro rix ro i l r
    obtain ⟨h0, h1, h2, h3⟩ := Warp.start_w rix ro i l r
    refine ⟨fun _ => rfl, h0, h1, h2, h3, rfl, rfl, fun j hj => ?_, rfl, rfl, rfl, rfl, rfl, rfl, rfl, rfl, rfl, rfl, rfl, rfl, rfl⟩
    exact SMap.get_map 0 (fun t => BitVec.ofNat 32 (0x5EED0000 + 32 * i + t + 1)) j _ (List.mem_range.2 hj)
  · intro w hg hw ht hq
    have hdue : s.walkDue c = true := by simp [State.walkDue, hg, hw]
    have hstep : s.walkStep c = s.walkTake c w := by simp only [State.walkStep, hw]
    refine ⟨fun r hr => ⟨exec_due (exec_walk c s) hdue (hstep.trans (State.walkTake_fault ht hq hr)),
      fun n alt y hwho hy => State.walkFail_path hwho hy⟩, fun f hf hh hwho => ?_⟩
    exact ⟨_, exec_due (exec_walk c s) hdue hstep,
      State.walkTake_found_alone (List.mem_of_find?_eq_some hw) ht hq hf hh hwho⟩
  · intro rix b g hd hn hb hg
    have hstep : s.endStep c = s.endBlock c rix := by simp only [State.endStep, hn]
    refine ⟨fun hs => ⟨_, exec_due (exec_blockEnd c s) hd (hstep.trans (State.endBlock_plain hb hg hs)),
      State.countEnded_keeps rfl hg⟩, fun ps hs hp => ⟨_, exec_due (exec_blockEnd c s) hd
        (hstep.trans (State.endBlock_status hb hg hs hp)), State.countEnded_keeps (State.writePieces_grids ps s _) hg⟩⟩
  · exact exec_dramRefresh stk s
  · exact exec_eccScrubForced stk s

end Sys2Proof.Machine
end

section
/-! SUPPORT. What registers, commands, logs and traces leave (model: Host, Launch, Trace, Matrix). -/
namespace Sys2Proof.Machine

/-! ## The reset of a matrix engine -/

theorem State.finish_commanded (s : State) (c w : Nat) (alt : Bool) : (s.finish c w alt).commanded = s.commanded := by
  unfold State.finish
  split
  · rfl
  · split
    · rfl
    · split <;> rfl

theorem KMap.find?_mapEntry {α β : Type} {g : Nat × α → Nat × α} {m : α → β} (h1 : ∀ q, (g q).1 = q.1) (h2 : ∀ q, m (g q).2 = m q.2)
    (k : Nat) : ∀ l : KMap α, (KMap.find? (l.map g) k).map m = (KMap.find? l k).map m
  | [] => rfl
  | q :: l => by
    rw [List.map_cons, show g q = (q.1, (g q).2) from Prod.ext (h1 q) rfl, KMap.find?, KMap.find?]
    split
    · exact congrArg some (h2 q)
    · exact KMap.find?_mapEntry h1 h2 k l

/-- Cores changed in place, their matrix engines left. -/
theorem State.mapCores_mx {s : State} {c : Nat} {g : Nat × Core → Nat × Core} (h1 : ∀ q, (g q).1 = q.1)
    (h2 : ∀ q, (g q).2.mx = q.2.mx) : (({ s with cores := s.cores.map g } : State).core c).mx = (s.core c).mx := by
  have h := KMap.find?_mapEntry (m := Core.mx) h1 h2 c s.cores
  unfold State.core
  dsimp only
  revert h
  cases KMap.find? (s.cores.map g) c <;> cases KMap.find? s.cores c <;> simp

/-- A reset leaves the engine empty, in its 257 cycles, and the commands under way. -/
theorem State.mxReset_starts (s : State) (c : Nat) : ((s.mxReset c).core c).mx.cur = none ∧
    ((s.mxReset c).core c).mx.reset = 257 ∧ (s.mxReset c).commanded = s.commanded := by
  unfold State.mxReset
  extract_lets k m hasMx hit again run read clean noted
  rw [State.mapCores_mx (fun q => by dsimp only; split <;> rfl) (fun q => by dsimp only; split <;> rfl)]
  have hmx : (noted.core c).mx = (clean.core c).mx := by simp only [noted, State.modCore_core]
  rw [hmx]
  refine ⟨?_, ?_, ?_⟩
  · simp only [clean, State.modMx, State.modCore_core]
  · simp only [clean, State.modMx, State.modCore_core]
  · calc noted.commanded = read.commanded := rfl
      _ = run.commanded := by
        simp only [read]
        split
        · split
          · rfl
          · exact State.finish_commanded run c _ _
        · rfl
      _ = s.commanded := by
        simp only [run]
        split
        · split <;> rfl
        · rfl

theorem State.noteReset_commanded (s : State) (c cmd : Nat) : (c, cmd) ∈ (s.noteReset c cmd).commanded :=
  List.mem_append_right _ (List.mem_singleton.2 rfl)

/-! ## Slices and their logs -/

theorem State.modSlice_slice (s : State) (sl : Nat) (f : Slice → Slice) : (s.modSlice sl f).slice sl = f (s.slice sl) := by
  simp [State.slice, State.modSlice, KMap.find?_put_same]

/-- A record is traced by the control registers, the time and the buffer alone. -/
theorem State.traceLossless_modSlice (s : State) (sl : Nat) (f : Slice → Slice) (a b src : Nat) (l : List W64) :
    (s.modSlice sl f).traceLossless a b src l = (s.traceLossless a b src l).modSlice sl f := by
  have hc : ((s.modSlice sl f).roomFor (traceRecord a b src (s.modSlice sl f).time l) &&
      !((s.modSlice sl f).hb.waiting.any (fun p => p.1 = src))) =
      (s.roomFor (traceRecord a b src s.time l) && !(s.hb.waiting.any (fun p => p.1 = src))) := rfl
  simp only [State.traceLossless, hc]
  cases s.roomFor (traceRecord a b src s.time l) && !(s.hb.waiting.any (fun p => p.1 = src)) <;> rfl

/-- What a traced record leaves besides the buffer. -/
theorem State.traceLossless_keeps (s : State) (a b src : Nat) (l : List W64) (sl : Nat) :
    (s.traceLossless a b src l).ctl = s.ctl ∧ (s.traceLossless a b src l).mem = s.mem ∧
      (s.traceLossless a b src l).slice sl = s.slice sl := by
  unfold State.traceLossless
  dsimp only
  split <;> exact ⟨rfl, rfl, rfl⟩

theorem State.rlogSend_nil (s : State) (sl : Nat) : ∀ n, s.rlogSend sl n [] = s
  | 0 => rfl
  | _ + 1 => rfl

/-- One record holds the closed chunks, of which there are 1 to 16. -/
theorem State.rlogFlush_one {s : State} {sl : Nat} {l : List Chunk} (hl : (s.slice sl).closed = l) (h0 : l ≠ [])
    (h16 : l.length ≤ 16) : s.rlogFlush sl =
      (s.traceLossless 3 0 (srcOfSlice sl) (chunkWords l)).modSlice sl (fun x => { x with closed := [] }) := by
  obtain ⟨n, hn⟩ := Nat.exists_eq_succ_of_ne_zero (mt List.length_eq_zero_iff.1 h0)
  have he : l.isEmpty = false := by simpa using h0
  simp only [State.rlogFlush, hl, hn, State.rlogSend, he, Bool.false_eq_true, if_false, List.take_of_length_le h16,
    List.drop_of_length_le h16, State.rlogSend_nil]

theorem State.rlogFlush_none {s : State} {sl : Nat} (hl : (s.slice sl).closed = []) :
    s.rlogFlush sl = s.modSlice sl (fun x => { x with closed := [] }) := by
  simp only [State.rlogFlush, hl, List.length_nil, State.rlogSend]

/-- What a log that is emitted leaves: its open chunk behind the closed ones in one record, and no chunk in the slice. -/
structure State.Emitted (s t : State) (sl : Nat) (l : List Chunk) : Prop where
  hb : t.hb = (s.traceLossless 3 0 (srcOfSlice sl) (chunkWords l)).hb
  ctl : t.ctl = s.ctl
  mem : t.mem = s.mem
  chunk : (t.slice sl).chunk = none
  closed : (t.slice sl).closed = []

theorem State.logEmit_emits {s : State} {sl : Nat} {ch : Chunk} (hc : (s.slice sl).chunk = some ch)
    (hl : (s.slice sl).closed.length < 16) : s.Emitted (s.logEmit sl) sl ((s.slice sl).closed ++ [ch]) := by
  let close (x : Slice) : Slice := { x with
    chunk := none, closed := x.closed ++ [ch], used := x.used + 1, age := if x.closed.isEmpty then s.time else x.age }
  have hslice : (s.modSlice sl close).slice sl = close (s.slice sl) := s.modSlice_slice sl close
  have hsent : (s.modSlice sl close).rlogFlush sl = ((s.traceLossless 3 0 (srcOfSlice sl)
      (chunkWords ((s.slice sl).closed ++ [ch]))).modSlice sl close).modSlice sl (fun x => { x with closed := [] }) := by
    rw [State.rlogFlush_one (congrArg Slice.closed hslice) (by simp [close]) (by simp [close]; omega),
      State.traceLossless_modSlice]
  obtain ⟨hctl, hmem, hkeep⟩ := s.traceLossless_keeps 3 0 (srcOfSlice sl) (chunkWords ((s.slice sl).closed ++ [ch])) sl
  have hclose : s.chunkClose sl = if (s.slice sl).closed.length + 1 = 16 then (s.modSlice sl close).rlogFlush sl
      else s.modSlice sl close := by
    simp only [State.chunkClose, hc, State.modSlice_slice, List.length_append, List.length_singleton, close]
  rw [State.logEmit, hclose]
  split
  · rw [State.rlogFlush_none (by rw [hsent, State.modSlice_slice]), hsent]
    exact ⟨rfl, hctl, hmem, by simp only [State.modSlice_slice, close], by simp only [State.modSlice_slice]⟩
  · rw [hsent]
    exact ⟨rfl, hctl, hmem, by simp only [State.modSlice_slice, close], by simp only [State.modSlice_slice]⟩

theorem State.gateMark_keeps (s : State) (sl : Nat) : (s.gateMark sl).hb = s.hb ∧ (s.gateMark sl).mem = s.mem ∧
    ((s.gateMark sl).slice sl).chunk = (s.slice sl).chunk ∧ ((s.gateMark sl).slice sl).closed = (s.slice sl).closed := by
  unfold State.gateMark
  split
  · rw [State.modSlice_slice]; exact ⟨rfl, rfl, rfl, rfl⟩
  · exact ⟨rfl, rfl, rfl, rfl⟩

/-- What a mode that is entered makes of a slice. -/
def Slice.entered (m time : Nat) (x : Slice) : Slice :=
  if m = 1 then { x with chunk := none, closed := [], used := 0 }
  else if m = 2 then { x with idx := 0, pass := false, ended := false, div := false, headUsed := 0, quiet := time }
  else x

theorem Slice.entered_closed {m time : Nat} {x : Slice} (h1 : x.chunk = none) (h2 : x.closed = []) :
    (x.entered m time).chunk = none ∧ (x.entered m time).closed = [] := by
  unfold Slice.entered
  split
  · exact ⟨rfl, rfl⟩
  · split <;> exact ⟨h1, h2⟩

/-- A write of RPMODE outside record mode. -/
theorem State.setRpmode_fresh {s : State} {sl m : Nat} (hm : m ≤ 2) (hr : s.rpmode sl ≠ 1) : s.setRpmode sl m =
    ((s.setCtl (offReplay sl) (BitVec.ofNat 32 m)).modSlice sl (Slice.entered m s.time)).gateMark sl := by
  simp only [State.setRpmode, if_neg (Nat.not_lt.2 hm), if_neg hr]
  rfl

/-- A write of RPMODE in record mode emits the log. -/
theorem State.setRpmode_leaves {s : State} {sl m : Nat} {ch : Chunk} (hm : m ≤ 2) (hr : s.rpmode sl = 1)
    (hc : (s.slice sl).chunk = some ch) (hl : (s.slice sl).closed.length < 16) :
    (s.setRpmode sl m).hb = (s.traceLossless 3 0 (srcOfSlice sl) (chunkWords ((s.slice sl).closed ++ [ch]))).hb ∧
      (s.setRpmode sl m).mem = s.mem ∧ ((s.setRpmode sl m).slice sl).chunk = none ∧
      ((s.setRpmode sl m).slice sl).closed = [] := by
  have hem := State.logEmit_emits hc hl
  have hset : s.setRpmode sl m = (((s.logEmit sl).setCtl (offReplay sl) (BitVec.ofNat 32 m)).modSlice sl
      (Slice.entered m (s.logEmit sl).time)).gateMark sl := by
    simp only [State.setRpmode, if_neg (Nat.not_lt.2 hm), if_pos hr]
    rfl
  obtain ⟨hhb, hmem, hchunk, hclosed⟩ := State.gateMark_keeps (((s.logEmit sl).setCtl (offReplay sl)
    (BitVec.ofNat 32 m)).modSlice sl (Slice.entered m (s.logEmit sl).time)) sl
  obtain ⟨he1, he2⟩ := Slice.entered_closed (m := m) (time := (s.logEmit sl).time) hem.chunk hem.closed
  rw [hset, hhb, hmem, hchunk, hclosed, State.modSlice_slice]
  exact ⟨hem.hb, hem.mem, he1, he2⟩

/-! ## The flush of the trace -/

theorem List.foldl_keeps {α β γ : Type} {f : α → β → α} {m : α → γ} (h : ∀ a b, m (f a b) = m a) :
    ∀ (l : List β) (a : α), m (l.foldl f a) = m a
  | [], _ => rfl
  | b :: l, a => (List.foldl_keeps h l (f a b)).trans (h a b)

/-- Drop counts are traced, and nothing but the buffer changes. -/
theorem State.dropCounts_keeps (s : State) : s.dropCounts.ctl = s.ctl ∧ s.dropCounts.slices = s.slices ∧
    s.dropCounts.hb.drops = [] ∧ s.dropCounts.hb.full = false := by
  have hctl (u : State) (a b src : Nat) (l : List W64) : (u.traceLossless a b src l).ctl = u.ctl :=
    (u.traceLossless_keeps a b src l 0).1
  have hsl (u : State) (a b src : Nat) (l : List W64) : (u.traceLossless a b src l).slices = u.slices := by
    unfold State.traceLossless
    dsimp only
    split <;> rfl
  refine ⟨?_, ?_, rfl, rfl⟩
  · exact List.foldl_keeps (m := State.ctl) (fun u d => by split <;> simp only [hctl]) s.hb.drops s
  · exact List.foldl_keeps (m := State.slices) (fun u d => by split <;> simp only [hsl]) s.hb.drops s

theorem State.rpmode_ctl {s t : State} (h : t.ctl = s.ctl) (sl : Nat) : t.rpmode sl = s.rpmode sl := by
  simp only [State.rpmode, State.ctlAt, h]

theorem State.flushTrace_quiet {s : State} (h : ∀ p ∈ s.slices, s.rpmode p.1 ≠ 1) : s.flushTrace = s.dropCounts := by
  have hr (sl : Nat) : s.dropCounts.rpmode sl = s.rpmode sl := State.rpmode_ctl s.dropCounts_keeps.1 sl
  have hfold : ∀ (l : KMap Slice) (u : State), (∀ p ∈ l, u.rpmode p.1 ≠ 1) →
      l.foldl (fun s p => if s.rpmode p.1 = 1 then s.logEmit p.1 else s) u = u := by
    intro l
    induction l with
    | nil => exact fun _ _ => rfl
    | cons p l ih =>
      intro u hu
      rw [List.foldl_cons, if_neg (hu p List.mem_cons_self)]
      exact ih u (fun q hq => hu q (List.mem_cons_of_mem p hq))
  exact hfold s.slices s.dropCounts (fun p hp => by rw [hr]; exact h p hp)

theorem State.flushTrace_one {s : State} {sl : Nat} {x : Slice} (h : s.slices = [(sl, x)]) (hr : s.rpmode sl = 1) :
    s.flushTrace = s.dropCounts.logEmit sl := by
  simp only [State.flushTrace, h, List.foldl_cons, List.foldl_nil, State.rpmode_ctl s.dropCounts_keeps.1, hr, if_true]

end Sys2Proof.Machine
end

section
/-! SUPPORT. What the outside does to the module (model: Host, EventsRun). -/
namespace Sys2Proof.Machine

/-! ## Invalidations -/

theorem State.sweep_keeps (s : State) (v : Cover) (c : Nat) :
    (s.sweep v c).ctl = s.ctl ∧ (s.sweep v c).invals = s.invals ∧ (s.sweep v c).nonce = s.nonce := by
  unfold State.sweep
  split <;> exact ⟨rfl, rfl, rfl⟩

theorem State.startInval_keeps (s : State) (v : Cover) (c : Nat) (who : Option (Nat × Bool)) :
    (s.startInval v c who).ctl = s.ctl ∧
      (s.startInval v c who).invals = s.invals ++ [⟨v.mode, v.pasid, v.va, v.len, c, who, s.nonce⟩] := by
  obtain ⟨hctl, hinv, hn⟩ := s.sweep_keeps v c
  refine ⟨hctl, ?_⟩
  rw [← hinv, ← hn]
  rfl

/-! ## Lost reads -/

/-- An error that meets a read of a warp: its result takes all ones. -/
theorem State.outerError_read {s : State} {c w id lane ea n : Nat} {p : Bool} {x : Warp}
    (ho : (s.core c).outerRead p = some (w, id, lane, ea, n)) (hx : (s.core c).warps.find? w = some x) :
    (s.outerError c p).mem = s.mem ∧
      ((s.outerError c p).core c).warps.find? w = some (x.modResult id (fun r => r.lose p lane n)) := by
  simp only [State.outerError, ho, State.endpaper_mem, State.endpaper_core]
  exact ⟨State.modWarp_mem s c w _, State.modWarp_find hx⟩

/-! ## Registers without behaviour of their own -/

theorem State.controlWrite_plain {s : State} {off : Nat} {mgmt : Bool} {v : W32} (h : off ≠ 0xF100) :
    s.controlWrite mgmt off v = s.writeControl mgmt off v := by
  simp only [State.controlWrite, if_neg h]

theorem State.writeControl_stores {s : State} {off : Nat} {mgmt : Bool} {v m : W32} (h4 : off % 4 = 0) (ht : off ≠ 0xE018)
    (hr : s.recovery = false) (hs : s.storedBits off = some m) (hw : mgmt = true ∨ off < 0x31100 ∨ 0x31200 ≤ off) :
    s.writeControl mgmt off v =
      let u := s.setCtl off
        (if (decide (0x28000 ≤ off ∧ off < 0x31000) && off % 64 == 4) && !decide (16 ≤ v.toNat ∧ v.toNat ≤ 2 ^ 24) then 0
         else v &&& m)
      if 0x32000 ≤ off ∧ off < 0x3A000 then u.gateMark ((off - 0x32000) / 64) else u := by
  have hwin : (!mgmt && decide (0x31100 ≤ off ∧ off < 0x31200)) = false := by
    rcases hw with h | h
    · simp [h]
    · rw [Bool.and_eq_false_iff]
      exact .inr (decide_eq_false (by omega))
  simp only [State.writeControl, h4, hr, hwin, ht, hs, ne_eq, not_true_eq_false, decide_false, Bool.false_and, Bool.or_self,
    Bool.false_eq_true, if_false, false_and]

/-- The endpaper window is the management interface's. -/
theorem State.writeControl_window {s : State} {off : Nat} {v : W32} (h1 : 0x31100 ≤ off) (h2 : off < 0x31200) :
    s.writeControl false off v = s := by
  simp only [State.writeControl, h1, h2, Bool.not_false, and_self, decide_true, Bool.or_true, if_true, Bool.true_and]

/-! ## The press -/

/-- The tick edge of a press: the first of 36 ticks at or after the 1000th from now. -/
theorem pressEdgeOf_eq (time : Nat) : pressEdgeOf time = (time + 1035) / 36 * 36 := by
  rw [pressEdgeOf, Nat.add_assoc]

theorem State.pinAssert_keeps (s : State) : s.pinAssert.press.pin = true ∧
    (s.press.at_ = none → s.press.pressed = false →
      s.pinAssert.press.at_ = some ((s.time + 1035) / 36 * 36) ∧ s.pinAssert.press.byPin = true) := by
  unfold State.pinAssert
  refine ⟨by dsimp only; split <;> rfl, fun ha hp => ?_⟩
  simp [ha, hp, pressEdgeOf_eq]

theorem State.pinDeassert_keeps (s : State) : s.pinDeassert.press.pin = false ∧
    (s.press.byPin = true → s.press.pressed = true → s.pinDeassert.press.releasing = true) ∧
    (s.press.byPin = true → s.press.pressed = false → s.pinDeassert.press.at_ = none) := by
  unfold State.pinDeassert
  refine ⟨by dsimp only; split; rfl; split <;> rfl, fun hb hp => by simp [hb, hp], fun hb hp => ?_⟩
  cases ha : s.press.at_ <;> simp [hb, hp, ha]

/-! ## What the end of blocks leaves of the boot -/

theorem State.foldl_boot {α : Type} {f : State → α → State} (h : ∀ u x, (f u x).boot = u.boot) (l : List α) (s : State) :
    (l.foldl f s).boot = s.boot := List.foldl_keeps (m := State.boot) h l s

theorem State.barOp_boot (s : State) (c r off : Nat) (f : Bar → Bar) : (s.barOp c r off f).boot = s.boot := by
  simp only [State.barOp, State.recheck]
  split <;> rfl

theorem State.absentLines_boot (s : State) (l : List (Nat × Nat × Nat)) (up : Bool) : (s.absentLines l up).boot = s.boot :=
  State.foldl_boot (fun _ _ => by simp only [State.modBlock_boot]) _ _

theorem State.count_boot (s : State) (c : Nat) (q : CReq) (n : Int) : (s.count c q n).boot = s.boot := by
  unfold State.count
  split
  · split
    · rfl
    · exact State.barOp_boot _ _ _ _ _
  · rfl

theorem State.copyEnd_boot (s : State) (c slot : Nat) (q : CReq) (n : Nat) : (s.copyEnd c slot q n).boot = s.boot := by
  unfold State.copyEnd
  split <;> simp only [State.progress_boot, State.count_boot, State.modBlock_boot, State.absentLines_boot, State.modCore_boot]

theorem State.copyError_boot (s : State) (c slot : Nat) (q : CReq) : (s.copyError c slot q).boot = s.boot := by
  unfold State.copyError
  split
  · rfl
  · exact State.copyEnd_boot _ c slot q _

theorem State.marbleCount_boot (s : State) (c : Nat) (q : MReq) (n : Int) : (s.marbleCount c q n).boot = s.boot := by
  unfold State.marbleCount
  split
  · split
    · rfl
    · exact State.barOp_boot _ _ _ _ _
  · rfl

theorem State.marbleEnd_boot (s : State) (c slot : Nat) (q : MReq) : (s.marbleEnd c slot q).boot = s.boot := by
  simp only [State.marbleEnd, State.progress_boot, State.marbleCount_boot, State.absentLines_boot, State.modCore_boot]

theorem State.dropEngines_boot (s : State) (c : Nat) : (s.dropEngines c).boot = s.boot := by
  unfold State.dropEngines
  rw [State.foldl_boot (fun _ _ => by simp only [State.marbleEnd_boot, State.endpaper_boot, State.modBlock_boot]),
    State.foldl_boot (fun _ _ => by simp only [State.copyError_boot])]

theorem State.coreReset_boot (s : State) (c : Nat) : (s.coreReset c).boot = s.boot := by
  simp only [State.coreReset, State.modCore_boot, State.setHash]
  rw [State.foldl_boot (fun _ _ => State.setCtl_boot ..)]
  simp only [State.kickDone, State.endpaper_boot, State.modCore_boot, State.dropEngines_boot]

theorem State.statusNow_boot (s : State) (b : Block) : (s.statusNow b).boot = s.boot := by
  unfold State.statusNow
  split
  · rfl
  · split
    · rfl
    · split <;> split <;> rfl

theorem State.endsAll_boot (s : State) (c : Nat) : (s.endsAll c).boot = s.boot := by
  unfold State.endsAll
  split
  · rfl
  · exact (State.foldl_boot (fun _ _ => State.statusNow_boot _ _) _ _).trans (State.coreReset_boot s c)

/-! ## Boot and resets -/

theorem State.powerOn_starts {s : State} {err : Nat} (hp : s.boot.powered = false) (h6 : err ≤ 6) (h3 : err ≠ 3) :
    (s.powerOn err).boot.powered = true ∧ (s.powerOn err).boot.booting = some ⟨1, err, false⟩ ∧
      (s.powerOn err).boot.count = s.boot.count + 1 ∧ (s.powerOn err).time = 0 ∧ (s.powerOn err).cores = [] ∧
      (s.powerOn err).mem = s.mem.filter (fun p => !isModule p.1) := by
  have hc : (s.boot.powered || decide (6 < err) || err == 3) = false := by simp [hp, h6, h3]
  simp only [State.powerOn, hc, Bool.false_eq_true, if_false]
  exact ⟨rfl, rfl, rfl, rfl, rfl, rfl⟩

theorem State.warmReset_starts {s : State} {en : Bool} {err : Nat} (hp : s.boot.powered = true) (hb : s.boot.booting = none)
    (he : err = 0 ∨ (4 ≤ err ∧ err ≤ 6)) :
    (s.warmReset en err).boot.count = s.boot.count ∧ (s.warmReset en err).cores = [] ∧ (s.warmReset en err).grids = [] ∧
      let u := s.cores.foldl (fun s p => s.endsAll p.1) s
      let kept := en && (err == 0 || err == 6) && (imageChosen s.flash).isSome
      (s.warmReset en err).boot.booting = some ⟨3, err, kept⟩ ∧ (s.warmReset en err).rings = u.rings ∧
      (s.warmReset en err).mem = if kept then u.mem else lostMemory s.boot.resets u.mem := by
  have hc : (!s.boot.powered || s.boot.booting.isSome || decide (6 < err) || (err != 0 && decide (err < 4))) = false := by
    rcases he with rfl | ⟨h4, h6⟩
    · simp [hp, hb]
    · simp [hp, hb, h6, h4]
  have hboot : (s.cores.foldl (fun s p => s.endsAll p.1) s).boot = s.boot :=
    State.foldl_boot (fun _ _ => State.endsAll_boot _ _) s.cores s
  rw [← congrArg (·.count) hboot, ← congrArg (·.resets) hboot]
  simp only [State.warmReset, hc, Bool.false_eq_true, if_false]
  exact ⟨rfl, rfl, rfl, rfl, rfl, rfl⟩

theorem State.bootDue_of {s : State} {b : Booting} (hp : s.boot.powered = true) (hn : s.press.pressed = false)
    (hb : s.boot.booting = some b) : s.bootDue = true := by
  simp [State.bootDue, hp, hn, hb]

/-- A boot that goes on comes before everything else but the outside. -/
theorem step_boot {s : State} (hi : s.inboxNext = none) (hd : s.bootDue = true) : step s = .next s.bootStep := by
  have hdue : s.dueEvent = some s.bootStep := by
    simp only [State.dueEvent, State.dueModule, firstTaken, taken, hd, if_true]
  simp only [step, hi, hdue]

/-- The end of the last step opens the module. -/
theorem State.bootStep_last {s : State} {b : Booting} (hp : s.boot.powered = true) (hn : s.press.pressed = false)
    (hb : s.boot.booting = some b) (h7 : 7 ≤ b.next) (he : b.err = 0) :
    s.bootStep.boot.booting = none ∧ s.bootStep.goes = true := by
  have h6 : ¬(b.next = 6 ∧ Config.captureAttached s.boot.resets = true) := fun h => by omega
  have h0 : b.next ≠ bootFails b.err := by rw [he]; exact fun h => absurd (h7.trans_eq h) (by decide)
  have hend : s.bootStep = s.bootEnd 7 0 b.kept := by
    simp only [State.bootStep, hb, if_neg h6, if_neg h0, if_neg (show b.next ≠ 3 by omega), State.bootNext, if_pos h7]
  rw [hend]
  refine ⟨rfl, ?_⟩
  change (s.boot.powered && !s.press.pressed && true) = true
  simp [hp, hn]

/-- BOOTSTAT with an error says recovery mode. -/
theorem bootStat_recovery {err : Nat} (h1 : 1 ≤ err) (h6 : err ≤ 6) (b kept : Bool) :
    (bootStat (bootFails err - 1) err b kept).getLsbD 5 = true := by
  have hall : ∀ e < 7, 1 ≤ e → ∀ b kept : Bool, (bootStat (bootFails e - 1) e b kept).getLsbD 5 = true := by decide
  exact hall err (by omega) h1 b kept

theorem State.bootEnd_recovery {s : State} {b : Booting} {kept : Bool} (h1 : 1 ≤ b.err) (h6 : b.err ≤ 6)
    (hn : b.next = bootFails b.err) (hr : SMap.rising 0 s.ctl = true) : (s.bootEnd (b.next - 1) b.err kept).recovery = true := by
  rw [hn]
  simp only [State.recovery, State.ctlAt, State.bootEnd, State.bootSet, State.setCtl_ctl, SMap.get_set_same 0 hr,
    BitVec.xor_assoc, BitVec.xor_self, BitVec.xor_zero]
  exact bootStat_recovery h1 h6 _ kept

/-- A step of the boot that fails ends it in recovery mode. -/
theorem State.bootStep_fails {s : State} {b : Booting} (hb : s.boot.booting = some b) (h1 : 1 ≤ b.err) (h6 : b.err ≤ 6)
    (hn : b.next = bootFails b.err) : s.bootStep.boot.booting = none ∧
      (SMap.rising 0 s.ctl = true → s.bootStep.recovery = true) := by
  simp only [State.bootStep, hb, if_pos hn]
  refine ⟨rfl, fun hr => State.bootEnd_recovery h1 h6 hn ?_⟩
  split
  · exact SMap.rising_set 0 _ hr (Nat.zero_le _)
  · exact hr

end Sys2Proof.Machine
end

section
/-! SUPPORT. The events from outside (model: Host, Launch, Trace, EventsRun). -/
namespace Sys2Proof.Machine

/-! ## Queues, invalidations and accesses of the host -/

/-- A queue that is disabled takes back what has not been admitted. -/
theorem State.writeQctl_off {s : State} {q : Nat} {v : W32} (h0 : (s.qctl q).getLsbD 0 = true) (hv : v.getLsbD 0 = false) :
    s.writeQctl q v = { s.setCtl (offQueue q + 8) (s.qctl q &&& ~~~1) with
      admits := s.admits.filter (fun a => a.1 ≠ q), stuck := s.stuck.filter (· ≠ q) } := by
  have hone : v &&& 1 = 0 := by
    ext i hi
    cases i with
    | zero => simpa using hv
    | succ i => simp
  have hkept : (s.qctl q &&& ~~~1) ||| (v &&& 1) = s.qctl q &&& ~~~1 := by rw [hone]; exact BitVec.or_zero
  have hbit : (s.qctl q &&& ~~~1).getLsbD 0 = false := by simp
  simp only [State.writeQctl, h0, if_true, hkept, hbit, Bool.not_false]
  rfl

/-- A queue that is enabled shows its records. -/
theorem State.writeQctl_on {s : State} {q : Nat} {v : W32} (h0 : (s.qctl q).getLsbD 0 = false) (hv : v.getLsbD 0 = true) :
    s.writeQctl q v = (s.setCtl (offQueue q + 8) (v &&& 0x1FFFFF)).visible q := by
  have hbit : (v &&& 0x1FFFFF).getLsbD 0 = true := by simp [hv]
  simp only [State.writeQctl, h0, Bool.false_eq_true, if_false, hbit, Bool.not_true]

theorem State.hostInval_page {s : State} {p : Nat} (h : s.tinvBusy = false) :
    (s.hostInval 0 p).ctl = (s.setCtl 0xE018 (BitVec.ofNat 32 (p % 2 ^ 20 * 2 ^ 4))).ctl ∧
      (s.hostInval 0 p).invals = s.invals ++ [⟨0, some (p % 2 ^ 20), (s.ctl64 0xE010).toNat, 0, 0, none, s.nonce⟩] := by
  simp only [State.hostInval, h, Bool.false_eq_true, if_false]
  exact State.startInval_keeps _ _ 0 none

theorem State.hostInval_range {s : State} {p : Nat} (h : s.tinvBusy = false) :
    (s.hostInval 1 p).ctl = (s.setCtl 0xE018 (BitVec.ofNat 32 (p % 2 ^ 20 * 2 ^ 4 + 1))).ctl ∧
      (s.hostInval 1 p).invals = s.invals ++ [⟨1, some (p % 2 ^ 20), (s.ctl64 0xE010).toNat / 65536 * 65536,
        65536 * ((((s.setCtl 0xE018 (BitVec.ofNat 32 (p % 2 ^ 20 * 2 ^ 4 + 1))).ctlAt 0xE01C).extractLsb' 0 24).toNat + 1),
        0, none, s.nonce⟩] := by
  simp only [State.hostInval, h, Bool.false_eq_true, if_false]
  exact State.startInval_keeps _ _ 0 none

theorem State.hostInval_pasid {s : State} {p : Nat} (h : s.tinvBusy = false) :
    (s.hostInval 2 p).ctl = (s.setCtl 0xE018 (BitVec.ofNat 32 (p % 2 ^ 20 * 2 ^ 4 + 2))).ctl ∧
      (s.hostInval 2 p).invals = s.invals ++ [⟨2, some (p % 2 ^ 20), 0, 0, 0, none, s.nonce⟩] := by
  simp only [State.hostInval, h, Bool.false_eq_true, if_false]
  exact State.startInval_keeps _ _ 0 none

theorem State.hostInval_all {s : State} (h : s.tinvBusy = false) :
    (s.hostInval 3 0).ctl = (s.setCtl 0xE018 3).ctl ∧
      (s.hostInval 3 0).invals = s.invals ++ [⟨3, none, 0, 0, 0, none, s.nonce⟩] := by
  simp only [State.hostInval, h, Bool.false_eq_true, if_false]
  exact State.startInval_keeps _ _ 0 none

theorem State.outerAccess_module {s : State} {peer : Bool} {op : OuterOp} {pa : Nat} (h : isModule pa = true) :
    s.outerAccess peer op pa =
      match op with
      | .read n => { s with answer := s.readNat pa n }
      | .write b => s.write pa b
      | .fetchAdd n v => s.outerAtomic peer pa n (.atom 0) v 0
      | .swap n v => s.outerAtomic peer pa n (.atom 6) v 0
      | .cas n c v => s.outerAtomic peer pa n .cas c v
      | .atom op n v => if peer then s.outerAtomic peer pa n (.atom op) v 0 else s := by
  simp only [State.outerAccess, h, Bool.not_true, Bool.false_eq_true, if_false] <;> cases op <;> rfl

/-- OBSCTL holds what is written, whether or not the store hashes start anew. -/
theorem State.writeObsctl_ctl (s : State) (c : Nat) (v : W32) : (s.writeObsctl c v).ctl =
    (s.setCtl (offObs c) (if v.extractLsb' 8 2 == 3 then v &&& 0x7F else v &&& 0x37F)).ctl := by
  simp only [State.writeObsctl]
  generalize (if v.extractLsb' 8 2 == 3 then v &&& 0x7F else v &&& 0x37F) = x
  split <;> rfl

/-- STOPCTL holds the fields that are stored, and the core's count starts anew. -/
theorem State.writeStopctl_keeps (s : State) (c m : Nat) (v : W32) :
    (s.writeStopctl c v m).ctl = (s.setCtl (offObs c + 8) ((v &&& 0x3F8C) ||| BitVec.ofNat 32 m)).ctl ∧
      ((s.writeStopctl c v m).core c).obs.armed = (m != 0) ∧ ((s.writeStopctl c v m).core c).obs.count = 0 := by
  refine ⟨rfl, ?_, ?_⟩ <;> simp only [State.writeStopctl, State.modCore_core]

theorem State.mxResetCmd_starts (s : State) (c : Nat) : ((s.mxResetCmd c).core c).mx.cur = none ∧
    ((s.mxResetCmd c).core c).mx.reset = 257 ∧ (c, 1) ∈ (s.mxResetCmd c).commanded := by
  obtain ⟨hcur, hreset, hcmd⟩ := (s.noteReset c 1).mxReset_starts c
  refine ⟨hcur, hreset, ?_⟩
  change (c, 1) ∈ ((s.noteReset c 1).mxReset c).commanded
  rw [hcmd]
  exact s.noteReset_commanded c 1

theorem State.writeCgrant_keeps (s : State) (c : Nat) (v : W64) :
    (s.writeCgrant c v).ctl = (s.setCtl64 (offCgrant c) (v &&& 0x0000FFFFFFFFFF0F)).ctl ∧
      ((s.writeCgrant c v).core c).gov = (s.core c).gov :=
  ⟨rfl, congrArg Core.gov (s.putCore_core c (s.core c))⟩

theorem State.attestBegin_starts {s : State} (h : s.boot.signing = none) :
    s.attestBegin.ctl = (s.setCtl offAtt 2).ctl ∧ s.attestBegin.boot.signing.isSome = true := by
  simp only [State.attestBegin, h, Option.isSome_none, Bool.false_eq_true, if_false]
  exact ⟨rfl, rfl⟩

/-- Settles O47: the laws of the events say when each is taken; each effect is what its write, command or reset leaves. -/
theorem outsideEventsTakeEffect : Obligations.OutsideEventsTakeEffect := by
  intro s c q g off sl pa pasid pages err v va pas en a b peer hi isCtl mgmt op at_ pr
  refine ⟨?_, exec_powerOn err s, exec_warmReset en err s, exec_powerLoss s, ?_, ?_, ?_, ?_, ?_, ?_, ?_, ?_⟩
  · simp only [List.forall_mem_cons]
    exact ⟨event_due (exec_qwpWrite q v s), event_due (exec_qctlWrite q v s), event_due (exec_qstatClear q v s),
      event_due (exec_mxResetCmd c s), event_due (exec_coreResetCmd c s), event_due (exec_atsCompletion c at_ s),
      event_due (exec_prgResponse c pr s), event_due (exec_hostAtsInvalidate pas va pages s),
      event_due (exec_hostInvPage pasid s), event_due (exec_hostInvRange pasid s), event_due (exec_hostInvPasid pasid s),
      event_due (exec_hostInvAll s), event_due (exec_hostHostAccess peer op pa s), event_due (exec_hostCompletionError c s),
      event_due (exec_peerLoss c s), event_due (exec_cgrantWrite c va s), event_due (exec_slewWrite g hi isCtl v s),
      event_due (exec_wstatClear c v s), event_due (exec_stopArmCycle c v s), event_due (exec_stopArmCount c v s),
      event_due (exec_stopDisarm c v s), event_due (exec_stopResume c s), event_due (exec_bcmClear c s),
      event_due (exec_divergedClear c s), event_due (exec_obsctlWrite c v s), event_due (exec_headbandFlush s),
      event_due (exec_headbandEnable en s), event_due (exec_rpmodeOff sl s), event_due (exec_rpmodeRecord sl s),
      event_due (exec_rpmodeReplay sl s), event_due (exec_pressPinAssert s), event_due (exec_pressPinDeassert s),
      event_due (exec_pressCmd s), event_due (exec_pressReleaseCmd s), event_due (exec_attestGo s),
      event_due (exec_controlRegisterWrite off ⟨v, mgmt⟩ s), event_due (exec_configurationSpaceWrite en a b s),
      List.forall_mem_nil _⟩
  · intro ho hf
    exact exec_due (exec_qwpWrite q v s) ho (by simp only [State.writeQwp, hf, Bool.false_eq_true, if_false])
  · intro ho
    refine ⟨?_, ?_, ?_, ?_, ?_, ?_, ?_, ?_, ?_, ?_, ?_, ?_, ?_, ?_, ?_, ?_, ?_, ?_, ?_, ?_, ?_⟩
    · intro old hold h0 hv
      subst hold
      exact ⟨_, exec_due (exec_qctlWrite q v s) ho (State.writeQctl_off h0 hv), rfl, rfl, rfl⟩
    · exact fun h0 hv => exec_due (exec_qctlWrite q v s) ho (State.writeQctl_on h0 hv)
    · exact (event_due (exec_qstatClear q v s)).1 ho
    · exact ⟨_, (event_due (exec_mxResetCmd c s)).1 ho, s.mxResetCmd_starts c⟩
    · exact (event_due (exec_coreResetCmd c s)).1 ho
    · exact ⟨_, (event_due (exec_hostAtsInvalidate pas va pages s)).1 ho, (s.startInval_keeps _ 0 none).2⟩
    · exact fun hb => ⟨⟨_, (event_due (exec_hostInvPage pasid s)).1 ho, State.hostInval_page hb⟩,
        ⟨_, (event_due (exec_hostInvRange pasid s)).1 ho, State.hostInval_range hb⟩,
        ⟨_, (event_due (exec_hostInvPasid pasid s)).1 ho, State.hostInval_pasid hb⟩,
        _, (event_due (exec_hostInvAll s)).1 ho, State.hostInval_all hb⟩
    · intro hm
      have haccess (p : Bool) (o : OuterOp) := exec_due (exec_hostHostAccess p o pa s) ho (State.outerAccess_module hm)
      exact ⟨fun n => haccess peer (.read n), fun l => haccess peer (.write l), fun n x => haccess peer (.fetchAdd n x),
        fun n x => haccess peer (.swap n x), fun n x y => haccess peer (.cas n x y), fun k n x => haccess true (.atom k n x)⟩
    · exact ⟨_, (event_due (exec_cgrantWrite c va s)).1 ho, s.writeCgrant_keeps c va⟩
    · exact (event_due (exec_slewWrite g hi isCtl v s)).1 ho
    · exact (event_due (exec_wstatClear c v s)).1 ho
    · have hstop : ∀ r ∈ ([(.stopArmCycle c v, 1), (.stopArmCount c v, 2), (.stopDisarm c v, 0)] : List (Instr × Nat)),
          exec r.1 s = .next (s.writeStopctl c v r.2) := by
        simp only [List.forall_mem_cons]
        exact ⟨(event_due (exec_stopArmCycle c v s)).1 ho, (event_due (exec_stopArmCount c v s)).1 ho,
          (event_due (exec_stopDisarm c v s)).1 ho, List.forall_mem_nil _⟩
      exact fun i m him => ⟨_, hstop (i, m) him, s.writeStopctl_keeps c m v⟩
    · exact fun hs => exec_due (exec_stopResume c s) ho (if_pos hs)
    · exact ⟨_, (event_due (exec_bcmClear c s)).1 ho, by simp only [State.clearBcm, State.modCore_core]⟩
    · exact (event_due (exec_divergedClear c s)).1 ho
    · exact ⟨_, (event_due (exec_obsctlWrite c v s)).1 ho, s.writeObsctl_ctl c v⟩
    · exact fun hr => ⟨_, exec_due (exec_headbandFlush s) ho (State.flushTrace_quiet hr), s.dropCounts_keeps.2.2⟩
    · exact (event_due (exec_headbandEnable en s)).1 ho
    · exact fun hr => ⟨exec_due (exec_rpmodeOff sl s) ho (State.setRpmode_fresh (by decide) hr),
        exec_due (exec_rpmodeRecord sl s) ho (State.setRpmode_fresh (by decide) hr),
        exec_due (exec_rpmodeReplay sl s) ho (State.setRpmode_fresh (by decide) hr)⟩
    · intro hr ch hc hl sent
      simp only [List.forall_mem_cons]
      exact ⟨⟨_, (event_due (exec_rpmodeOff sl s)).1 ho, State.setRpmode_leaves (by decide) hr hc hl⟩,
        ⟨_, (event_due (exec_rpmodeRecord sl s)).1 ho, State.setRpmode_leaves (by decide) hr hc hl⟩,
        ⟨_, (event_due (exec_rpmodeReplay sl s)).1 ho, State.setRpmode_leaves (by decide) hr hc hl⟩, List.forall_mem_nil _⟩
    · intro x ch hs hr hd hc hl sent
      have hslice : s.dropCounts.slice sl = x := by
        simp [State.slice, s.dropCounts_keeps.2.1, hs, KMap.find?]
      have hem := State.logEmit_emits (s := s.dropCounts) (sl := sl) (ch := ch) (by rw [hslice]; exact hc)
        (by rw [hslice]; exact hl)
      rw [hslice] at hem
      exact ⟨_, exec_due (exec_headbandFlush s) ho (State.flushTrace_one hs hr), hem.hb, hem.chunk, hem.closed⟩
  · intro hg
    refine ⟨?_, ?_, ?_, ?_, ?_, ?_, ?_⟩
    · intro w hw
      exact exec_due (exec_atsCompletion c at_ s) (by simp [State.atsDue, hg, hw]) (by simp only [State.atsStep, hw])
    · intro w hw
      exact exec_due (exec_prgResponse c pr s) (by simp [State.prgDue, hg, hw]) (by simp only [State.prgStep, hw])
    · have herr : ∀ r ∈ ([(.hostCompletionError c, false), (.peerLoss c, true)] : List (Instr × Bool)),
          exec r.1 s = .next (s.outerError c r.2) := by
        simp only [List.forall_mem_cons]
        exact ⟨(event_due (exec_hostCompletionError c s)).1 hg, (event_due (exec_peerLoss c s)).1 hg, List.forall_mem_nil _⟩
      exact fun i p hip w id lane ea n x hr hx => ⟨_, herr (i, p) hip, State.outerError_read hr hx⟩
    · intro hs
      exact ⟨_, (event_due (exec_attestGo s)).1 hg, State.attestBegin_starts hs⟩
    · exact fun m h4 hf ht hr hs hw => exec_due (exec_controlRegisterWrite off ⟨v, mgmt⟩ s) hg
        ((State.controlWrite_plain hf).trans (State.writeControl_stores h4 ht hr hs hw))
    · exact fun h1 h2 => exec_due (exec_controlRegisterWrite off ⟨v, false⟩ s) hg
        ((State.controlWrite_plain (by omega)).trans (State.writeControl_window h1 h2))
    · exact (event_due (exec_configurationSpaceWrite en a b s)).1 hg
  · intro hp
    refine ⟨⟨_, (event_due (exec_pressPinAssert s)).1 hp, s.pinAssert_keeps⟩,
      ⟨_, (event_due (exec_pressPinDeassert s)).1 hp, s.pinDeassert_keeps⟩, fun ha hn => ?_, fun hn => ?_⟩
    · exact exec_due (exec_pressCmd s) hp (by simp [State.pressAsk, ha, hn, pressEdgeOf_eq])
    · exact exec_due (exec_pressReleaseCmd s) hp (if_pos hn)
  · exact fun hp h6 h3 => ⟨_, exec_powerOn err s, State.powerOn_starts hp h6 h3⟩
  · exact fun hp hb he => ⟨_, exec_warmReset en err s, State.warmReset_starts hp hb he⟩
  · exact fun hi hp hn b hb => ⟨step_boot hi (State.bootDue_of hp hn hb), fun h7 he => State.bootStep_last hp hn hb h7 he,
      fun h1 h6 he => State.bootStep_fails hb h1 h6 he⟩
  · exact ⟨_, exec_powerLoss s, rfl, rfl, rfl⟩

end Sys2Proof.Machine
end
